-- ==== Sys2Proof/Word.lean ====
section
/-! DEFINITION. The plainest word of the model: the byte (R8). Records, descriptors, registers and instructions are
read as natural numbers (R9, R10); the helpers that take them apart are in Machine/Bits.lean. -/

namespace Sys2Proof

/-- A byte, 8 bits (R8). -/
abbrev Byte := BitVec 8

end Sys2Proof
end

