-- ==== Sys2Proof/Syntax.lean ====
section
/-! DEFINITION. The commands of the block: one constructor per row of the table of operations and events. An operand
names the unit concerned, or carries what comes from outside the device (a value written, a bolt, a reading of a
sensor, what a training run found). What a command finds inside the device it takes from the state. -/

namespace Sys2Proof

/-- Supply rails of R697. -/
inductive Rail where
  | vcore (d : Fin 8) | vio | vdram | vpp | virl | avdd | avddh | vlpq | vaux
  deriving DecidableEq, Repr

/-- What a regulator answers to a readback on the AVSBus (R653): its rail select, voltage in mV, current in mA and
temperature in °C. -/
structure RailReading where
  select : Nat
  mv : Nat
  ma : Nat
  celsius : Int
  deriving DecidableEq, Repr

/-- What the ROM finds at the NVM interface when it reads the SFDP (R597, R614). -/
inductive Sfdp where
  | absent | unreadable | oneS | eightD
  deriving DecidableEq, Repr

/-- The three PCIe resets of R625. -/
inductive PcieReset where
  | hot | secondary | linkDown
  deriving DecidableEq, Repr

/-- What has gone wrong in storage by the time something is read (log 11): nothing; symbols of granules of memory, by
granule and symbol, which the codes correct or find at this and every later read (R301, R302, R311); or an uncorrectable
word in the on-die buffers that the work passes through (R550). A granule of a stack has symbols 0 to 71; one of the tier
has 8 words of 72 bits, bit b of word j numbered 72 j + b. -/
inductive Finding where
  | good | errors (l : List (Nat × Fin 576)) | buffer
  deriving DecidableEq, Repr

/-- One LPDDR5X package as training finds it (R307 to R310): its interface, its density code and whether it trains at
the configured rate. -/
structure LpPkg where
  iface : Fin 8
  density : Nat
  trains : Bool
  deriving DecidableEq, Repr

/-- The sensor readings that a die controller counts for its die, in °C (R71, R74): its 5 logic sensors, its 2 stack
sensors, and the 8 logic sensors of the two I/O dies. -/
structure Temps where
  logic : List Nat
  stack : List Nat
  io : List Nat
  deriving DecidableEq, Repr

/-- A bolt of R377: the header fields and the 64 payload bytes as one little-endian number. -/
structure Bolt where
  dest : Nat
  ctx : Nat
  op : Nat
  edition : Nat
  seq : Nat
  last : Bool
  scale1 : Nat
  scale0 : Nat
  payload : Nat
  deriving DecidableEq, Repr

/-- A raft of R383: its link word and the bolts that end in it, each with the virtual channel whose place it takes. -/
structure Raft where
  seq : Nat
  ack : Nat
  nak : Bool
  cred : List Nat
  /-- Bits of the first bolt that the raft before carried. -/
  skip : Nat
  /-- Bolts with a bit in the raft, in order; the last may run on in the next raft. -/
  bolts : List (Fin 4 × Bolt)
  deriving DecidableEq, Repr

/-- A traffic slot of R522: its tag and its 64 payload bytes as one little-endian number. -/
structure Slot where
  kind : Nat
  cls : Nat
  dest : Nat
  src : Nat
  tid : Nat
  last : Bool
  payload : Nat
  deriving DecidableEq, Repr

/-- A wire that fails at training (R530): whether it is of the direction from the near to the far end, its group, and
its place: 0 to 63 data, 64 parity, 65 and 66 spare, 67 the forwarded clock. -/
structure BadWire where
  fromNear : Bool
  group : Fin 32
  place : Fin 68
  deriving DecidableEq, Repr

/-- A TRAIN_START frame as it arrives on the sideband of a link, with the wires that the test it begins finds failing
(R530, R538). -/
structure WireTest where
  link : Fin 14
  frame : Nat
  bad : List BadWire
  deriving DecidableEq, Repr

/-- A leaf of R521: the control word and its traffic slots. -/
structure Leaf where
  seq : Nat
  ack : Nat
  nak : Bool
  idle : Bool
  cvc : Nat
  cred : Nat
  slots : List Slot
  deriving DecidableEq, Repr

/-- Where a bolt to be routed stands (R401): an input buffer of a port and virtual channel, a die's injection queue,
or the management core's (SURVEY and MAP bolts). -/
inductive BoltSrc where
  | port (p : Fin 12) (vc : Fin 4)
  | die (d : Fin 8)
  | core
  deriving DecidableEq, Repr

/-- The two rings of R632. -/
inductive RingSel where
  | manifest | transfer
  deriving DecidableEq, Repr

/-- A unit whose wait is granted (R264, R271, R273): the command at the head of an engine's queue, a TOKW of a
gathering program, or the start wait of a stored list of a die in a step. -/
inductive Waiter where
  | engine (d : Fin 8) (u : Fin 14)
  | tokw (d g : Fin 8)
  | list (d : Fin 8) (i step : Nat)
  deriving DecidableEq, Repr

/-- The engines of R560 whose check failure repeats a block. -/
inductive CheckUnit where
  | update | press | collective
  deriving DecidableEq, Repr

/-- Who scrubs (R333): a die controller its own stack, the management cores the tier. -/
inductive Scrubber where
  | stack (d : Fin 8) | tier
  deriving DecidableEq, Repr

/-- Which end of an Irale link receives (R515). -/
inductive LinkEnd where
  | near | far
  deriving DecidableEq, Repr

/-- An end of a link, as the one that sends a sideband frame. -/
structure SideEnd where
  link : Fin 14
  e : LinkEnd
  deriving DecidableEq, Repr

/-- The commands of the block. Each constructor is one row of the table. -/
inductive Instr where
  -- pins, power, links of the host
  | perstNRelease (slot : Fin 4)
  | perstNAssert
  | railOutOfRange (rail : Rail) (us : Nat)
  | refclkLoss
  | pcieHotReset (kind : PcieReset)
  | busMasterEnableChange (en : Bool)
  -- start-up phases
  | romStart (sfdp : Sfdp)
  | imageCheck (avsFail : List (Fin 8))
  | iraleNegotiation (words : List (List Nat)) (crcBad : List (Fin 14)) (near far : List (Fin 14 × BadWire))
  | training (stackFail : List (Fin 8)) (packages : List LpPkg)
  | startWipe
  | retireErase
  | portBringUp
  | portTrainingTimeout (p : Fin 12)
  | surveyTimeout (p : Fin 12)
  | surveyJudgement
  -- timed work
  | budgetEvaluation (d : Fin 8) (t : Temps) (avsOk : Bool)
  | thermalLimit (sensor : Fin 64) (celsius : Nat)
  | thermalTrip (sensor : Fin 64) (celsius : Nat)
  | packagePowerReadback (reads : List RailReading) (avsFail : List (Fin 8))
  | beatMeterWindow (d g : Fin 8) (beats : Nat) (throughout : Bool)
  | periodEnd
  | idlePeriodBoundary
  | congestionSample
  | timeSyncRepeat
  | tokenWaitLong (d : Fin 8) (u : Fin 14)
  | collectiveStall (d : Fin 8) (slot : Fin 16)
  | scrubGranule (w : Scrubber) (f : Finding)
  | refreshRateChange (d : Fin 8) (celsius : Nat)
  | lpddrRecentre (iface : Fin 8) (ch : Fin 4)
  | suspectTileTest (d : Fin 8) (tile : Fin 272) (pass : Bool)
  | tileUntested (d : Fin 8) (tile : Fin 272)
  | observationWindowExpiry (d : Fin 8) (tile : Fin 272)
  | transferRingPoll
  | telemetryRefresh
  | eventPersistBatch
  -- host accesses to control space
  | timeNowLowRead
  | readToClear (off size : Nat)
  | registerWrite (off size value : Nat)
  | budLimitWrite (value : Nat)
  | memQosWrite (value : Nat)
  | yrdRegWrite (d : Fin 8) (cls : Fin 4) (value : Nat)
  | crzCfgWrite (d : Fin 8) (value : Nat)
  | fltCfgWrite (value : Nat)
  | monCfgWrite (ch : Fin 48) (value : Nat)
  | haltReq (d g : Fin 8) (value : Nat)
  | debugStep (d g : Fin 8) (value : Nat)
  | resume (d g : Fin 8) (value : Nat)
  | clearLog (d g : Fin 8) (value : Nat)
  | debugStateRead (d g : Fin 8)
  | xentryWrite (n : Fin 256) (value : Nat)
  | stageDone (value : Nat)
  | editionSwitch (value : Nat)
  | editionRetire (value : Nat)
  | fltStop
  | recoverGo (value : Nat)
  | portRestart (mask : Nat)
  | ringEnable (ring : RingSel) (value : Nat)
  | nvmRead (offset : Nat)
  | nvmProgram (offset : Nat)
  | nvmErase (offset : Nat)
  | nvmUnit (ok : Bool)
  | nvmOperationComplete
  | nonceRead
  | attestGo (addr : Nat)
  | attestComplete
  | bar0BadAccess (write : Bool) (off size : Nat)
  | bar2Read (off len : Nat)
  | bar2Write (off : Nat) (data : List Nat)
  -- rings, jobs, signed commands
  | manifest
  | jobStart
  | provision
  | toField
  | toService
  | retire
  | runMaint
  | clearEvents
  | clearFailed
  | raiseSvn
  | raiseKeygen
  | toDevice
  | toHost
  | toHostCommitted
  | transferComplete
  -- lists, tokens, engine commands
  | listStart (d : Fin 8)
  | dispatchResume (d : Fin 8)
  | waitGrant (w : Waiter)
  | tokenSignal (d : Fin 8) (token : Fin 4096) (count : Nat)
  | signalRelease
  | fence (d : Fin 8) (u : Fin 14)
  | run (d g : Fin 8) (f : Finding)
  | programLoad (d g : Fin 8)
  | stream (d : Fin 8) (y : Fin 4)
  | selftest (d : Fin 8)
  | pattern (d : Fin 8)
  | scrub (d : Fin 8)
  | wipe (d : Fin 8)
  | restore (d : Fin 8)
  | maintComplete (d : Fin 8) (failed : List (Fin 272))
  -- gathering instructions, each the one at the sequencer's instruction address; `bad` is a 64-byte line of scratch, by
  -- its number, in which the instruction's read finds an uncorrectable error (R550)
  | nop (d g : Fin 8)
  | end_ (d g : Fin 8)
  | loop (d g : Fin 8)
  | waitb (d g : Fin 8)
  | mode (d g : Fin 8)
  | smovi (d g : Fin 8)
  | salu (d g : Fin 8)
  | sld (d g : Fin 8)
  | sst (d g : Fin 8)
  | ctset (d g : Fin 8)
  | agset (d g : Fin 8)
  | tokw (d g : Fin 8)
  | toks (d g : Fin 8)
  | toksSignal (d g : Fin 8)
  | mma (d g : Fin 8) (bad : Option Nat)
  | vop (d g : Fin 8)
  | vld (d g : Fin 8) (bad : Option Nat)
  | vst (d g : Fin 8)
  | xmov (d g : Fin 8)
  | red (d g : Fin 8)
  | writeLand (d g : Fin 8)
  | drainComplete (d g : Fin 8)
  | programComplete (d g : Fin 8)
  | debugHalt (d g : Fin 8)
  | tileReplay (d g : Fin 8) (tile : Fin 32)
  | replayBoundary (d g : Fin 8)
  | tileRemap (d : Fin 8) (tile : Fin 272)
  | cruiseSample (d : Fin 8)
  | engineCheckRetry (d : Fin 8) (unit : CheckUnit)
  -- yarders and memory
  | streamLatch (d : Fin 8) (y : Fin 4) (slot : Fin 8)
  | streamGranule (d : Fin 8) (y : Fin 4) (f : Finding)
  | streamComplete (d : Fin 8) (y : Fin 4) (slot : Fin 8)
  | rowRemap (d : Fin 8)
  -- torus
  | raftSend (p : Fin 12)
  | raftReceive (p : Fin 12) (r : Raft) (errs : List (Fin 16 × Fin 544))
  | retrainComplete (p : Fin 12) (mask : Nat)
  | boltRoute (src : BoltSrc)
  | data (b : Bolt) (f : Finding)
  | a2a (b : Bolt)
  | tail (b : Bolt)
  | done (b : Bolt)
  | barrierVote (b : Bolt)
  | counts (b : Bolt)
  | loadReq (b : Bolt)
  | storeReq (b : Bolt)
  | storeData (b : Bolt)
  | loadData (b : Bolt)
  | accessAck (b : Bolt)
  | credit (b : Bolt)
  | survey (p : Fin 12) (b : Bolt)
  | map (b : Bolt)
  -- Irale
  | leafReceive (l : Fin 14) (e : LinkEnd) (leaf : Leaf) (par : Nat)
  | slotRd (sl : Slot)
  | slotWr (sl : Slot)
  | slotData (sl : Slot)
  | slotAck (sl : Slot)
  | slotToken (sl : Slot)
  | slotBolt (h d : Slot)
  | commit
  | commitApply
  | mgmtStop (d : Fin 8)
  | report (pos : Fin 10) (words : List Nat)
  | level (msg : Nat)
  | regRd (addr : Nat)
  | regData (msg : Nat)
  | regWr (addr value : Nat)
  | mgmtEvent (record : Nat)
  | mgmtVerdict (verdict : Nat)
  | cap (pos : Fin 10) (l : Fin 14) (frame : Nat)
  | capAck (e : SideEnd) (frame : Nat)
  | trainStart (test : WireTest)
  | trainDone (e : SideEnd) (frame : Nat)
  | repairReq (l : Fin 14) (frame : Nat)
  | repairDone (l : Fin 14) (frame : Nat)
  | timeFrame (pos : Fin 10) (low high : Nat)
  -- collectives and updates
  | allReduce (d : Fin 8)
  | reduceScatter (d : Fin 8)
  | allGather (d : Fin 8)
  | broadcast (d : Fin 8)
  | allToAll (d : Fin 8)
  | barrier (d : Fin 8)
  | collectiveComplete (d : Fin 8) (slot : Fin 16)
  | updateBlock (d : Fin 8)
  | pressSubblock (d : Fin 8)
  | pressFold (d : Fin 8) (slot : Fin 16)
  | stepClose
  | rollback
  | stateRestoreInPlace
  -- events and sideband
  | eventReport
  | i3cPrivateWrite (data : List Nat)
  | i3cPrivateRead (n : Nat)
  | entdaa (addr : Nat)
  | setdasa (addr : Nat)
  | rstdaa
  | getpid
  | getbcr
  | getdcr
  | getstatus
  | getmwl
  | getmrl
  | enec
  | disec
  | bypass
  | idcode
  | samplePreload (scan : Nat)
  | extest
  | extestPulse
  | extestTrain
  | clamp
  | highz
  -- later occurrences
  | portTrainingComplete (p : Fin 12) (mask : Nat)
  | lpddrInterfaceLost (iface : Fin 8)
  | stackChannelLost (d : Fin 8) (ch : Fin 128)
  | channelDegraded (d : Fin 8) (ch : Fin 128)
  | jtagInternalRead (addr : Nat)
  | jtagInternalWrite (addr value : Nat)
  | railRamp (order : List Rail) (ms : Nat)
  deriving DecidableEq, Repr

end Sys2Proof
end

