-- ==== Sys2Proof/Machine/Bits.lean ====
section
/-! DEFINITION. Bit fields of numbers (R9), little-endian assembly (R10), two's complement and small arithmetic.
Records, descriptors and instructions are read as one natural number whose bit 0 is the least significant bit of the
byte at the lowest address, as R9 and R10 number them. -/

namespace Sys2Proof

/-- NAME[hi:lo] of R9, as a number: `w` bits of `x` from bit `lo`. -/
def bits (x lo w : Nat) : Nat := (x >>> lo) % 2 ^ w

/-- NAME[n] of R9. -/
def bit (x n : Nat) : Bool := (x >>> n) % 2 == 1

/-- `v` placed at bit `lo` of an otherwise zero number. -/
def at_ (v lo : Nat) : Nat := v <<< lo

/-- A flag as a one-bit number. -/
def b2n (b : Bool) : Nat := if b then 1 else 0

/-- Two's-complement reading of the low `w` bits of `x`. -/
def sext (w x : Nat) : Int :=
  let m := x % 2 ^ w
  if m ≥ 2 ^ (w - 1) then (m : Int) - (2 ^ w : Nat) else (m : Int)

/-- Two's-complement pattern of `i` in `w` bits. -/
def ofInt (w : Nat) (i : Int) : Nat := (i % ((2 ^ w : Nat) : Int)).toNat

/-- The number whose little-endian bytes are given, lowest address first (R10). -/
def leNat : List Nat → Nat
  | [] => 0
  | b :: bs => b % 256 + 256 * leNat bs

/-- The `n` little-endian bytes of a number (R10). -/
def leBytes : Nat → Nat → List Nat
  | 0, _ => []
  | n + 1, v => v % 256 :: leBytes n (v / 256)

/-- Ceiling division. -/
def cdiv (a b : Nat) : Nat := (a + b - 1) / b

/-- The least natural number not below `lo` and not above `hi`, for a value `v`. -/
def inRange (lo hi v : Nat) : Bool := lo ≤ v && v ≤ hi

end Sys2Proof
end

