-- ==== Sys2Proof/Machine/Operands.lean ====
section
/-! DEFINITION. The records and instructions the device reads, field by field: each accessor takes a record as one
little-endian number (R9, R10) and gives the bits that the table of the named rule gives the field. -/

namespace Sys2Proof.Machine

/-! ## MMA instruction (R208) -/

/-- OPCODE. -/
def mmaOpcode (r : Nat) : Nat := bits r 0 8

/-- HA. -/
def mmaHa (r : Nat) : Nat := bits r 8 16

/-- HB. -/
def mmaHb (r : Nat) : Nat := bits r 24 16

/-- HC. -/
def mmaHc (r : Nat) : Nat := bits r 40 16

/-- AGA. -/
def mmaAga (r : Nat) : Nat := bits r 56 4

/-- AGB. -/
def mmaAgb (r : Nat) : Nat := bits r 60 4

/-- AGC. -/
def mmaAgc (r : Nat) : Nat := bits r 64 4

/-- CTM. -/
def mmaCtm (r : Nat) : Nat := bits r 68 4

/-- CTN. -/
def mmaCtn (r : Nat) : Nat := bits r 72 4

/-- CTK. -/
def mmaCtk (r : Nat) : Nat := bits r 76 4

/-- RMODE. -/
def mmaRmode (r : Nat) : Nat := bits r 80 2

/-- HOLD. -/
def mmaHold (r : Nat) : Nat := bits r 82 1

/-- CONT. -/
def mmaCont (r : Nat) : Nat := bits r 83 1

/-- SGNA. -/
def mmaSgna (r : Nat) : Nat := bits r 84 1

/-- SGNB. -/
def mmaSgnb (r : Nat) : Nat := bits r 85 1

/-- SITE. -/
def mmaSite (r : Nat) : Nat := bits r 86 16

/-- Whether every reserved bit of the record is 0. -/
def mmaClean (r : Nat) : Bool :=
  bits r 102 26 == 0

/-! ## VOP instruction (R212) -/

/-- OPCODE. -/
def vopOpcode (r : Nat) : Nat := bits r 0 8

/-- OP. -/
def vopOp (r : Nat) : Nat := bits r 8 6

/-- VD. -/
def vopVd (r : Nat) : Nat := bits r 14 4

/-- VA. -/
def vopVa (r : Nat) : Nat := bits r 18 4

/-- VB. -/
def vopVb (r : Nat) : Nat := bits r 22 4

/-- VC. -/
def vopVc (r : Nat) : Nat := bits r 26 4

/-- RMODE. -/
def vopRmode (r : Nat) : Nat := bits r 30 2

/-- CONF. -/
def vopConf (r : Nat) : Nat := bits r 32 1

/-- TYPE. -/
def vopType (r : Nat) : Nat := bits r 33 2

/-- BSC. -/
def vopBsc (r : Nat) : Nat := bits r 35 1

/-- SB. -/
def vopSb (r : Nat) : Nat := bits r 36 5

/-- SITE. -/
def vopSite (r : Nat) : Nat := bits r 41 16

/-- Whether every reserved bit of the record is 0. -/
def vopClean (r : Nat) : Bool :=
  bits r 57 71 == 0

/-! ## VLD and VST instruction (R215) -/

/-- OPCODE. -/
def vlsOpcode (r : Nat) : Nat := bits r 0 8

/-- H. -/
def vlsH (r : Nat) : Nat := bits r 8 16

/-- AG. -/
def vlsAg (r : Nat) : Nat := bits r 24 4

/-- VR. -/
def vlsVr (r : Nat) : Nat := bits r 28 4

/-- LANE. -/
def vlsLane (r : Nat) : Nat := bits r 32 2

/-- RMODE. -/
def vlsRmode (r : Nat) : Nat := bits r 34 2

/-- SITE. -/
def vlsSite (r : Nat) : Nat := bits r 36 16

/-- Whether every reserved bit of the record is 0. -/
def vlsClean (r : Nat) : Bool :=
  bits r 52 76 == 0

/-! ## XMOV instruction (R217) -/

/-- OPCODE. -/
def xmOpcode (r : Nat) : Nat := bits r 0 8

/-- HS. -/
def xmHs (r : Nat) : Nat := bits r 8 16

/-- HD. -/
def xmHd (r : Nat) : Nat := bits r 24 16

/-- AGS. -/
def xmAgs (r : Nat) : Nat := bits r 40 4

/-- AGD. -/
def xmAgd (r : Nat) : Nat := bits r 44 4

/-- CTR. -/
def xmCtr (r : Nat) : Nat := bits r 48 4

/-- CTC. -/
def xmCtc (r : Nat) : Nat := bits r 52 4

/-- TRANS. -/
def xmTrans (r : Nat) : Nat := bits r 56 1

/-- RMODE. -/
def xmRmode (r : Nat) : Nat := bits r 57 2

/-- SITE. -/
def xmSite (r : Nat) : Nat := bits r 59 16

/-- Whether every reserved bit of the record is 0. -/
def xmClean (r : Nat) : Bool :=
  bits r 75 53 == 0

/-! ## RED instruction (R218) -/

/-- OPCODE. -/
def rdOpcode (r : Nat) : Nat := bits r 0 8

/-- OP. -/
def rdOp (r : Nat) : Nat := bits r 8 3

/-- VS. -/
def rdVs (r : Nat) : Nat := bits r 11 4

/-- ACROSS. -/
def rdAcross (r : Nat) : Nat := bits r 15 1

/-- DEST. -/
def rdDest (r : Nat) : Nat := bits r 16 1

/-- SD. -/
def rdSd (r : Nat) : Nat := bits r 17 5

/-- HD. -/
def rdHd (r : Nat) : Nat := bits r 22 16

/-- AGD. -/
def rdAgd (r : Nat) : Nat := bits r 38 4

/-- Whether every reserved bit of the record is 0. -/
def rdClean (r : Nat) : Bool :=
  bits r 42 86 == 0

/-! ## MODE, LOOP, WAITB, TOKW and TOKS instruction (R220) -/

/-- OPCODE. -/
def ct1Opcode (r : Nat) : Nat := bits r 0 8

/-- CONFIG. -/
def ct1Config (r : Nat) : Nat := bits r 8 2

/-- SHAPE. -/
def ct1Shape (r : Nat) : Nat := bits r 10 4

/-- BUCK. -/
def ct1Buck (r : Nat) : Nat := bits r 14 11

/-- FTZ. -/
def ct1Ftz (r : Nat) : Nat := bits r 25 1

/-- SETCFG. -/
def ct1Setcfg (r : Nat) : Nat := bits r 26 1

/-- SETBUCK. -/
def ct1Setbuck (r : Nat) : Nat := bits r 27 1

/-- SETFTZ. -/
def ct1Setftz (r : Nat) : Nat := bits r 28 1

/-- CTL. -/
def ct1Ctl (r : Nat) : Nat := bits r 8 4

/-- BODY. -/
def ct1Body (r : Nat) : Nat := bits r 12 12

/-- BEATS. -/
def ct1Beats (r : Nat) : Nat := bits r 8 24

/-- TOKEN. -/
def ct1Token (r : Nat) : Nat := bits r 8 12

/-- COUNT. -/
def ct1Count (r : Nat) : Nat := bits r 20 16

/-- DIE. -/
def ct1Die (r : Nat) : Nat := bits r 20 4

/-- COUNT. -/
def ct1Count24 (r : Nat) : Nat := bits r 24 16

/-! ## scalar instruction (R223) -/

/-- OPCODE. -/
def scOpcode (r : Nat) : Nat := bits r 0 8

/-- SD. -/
def scSd (r : Nat) : Nat := bits r 8 5

/-- SA. -/
def scSa (r : Nat) : Nat := bits r 13 5

/-- SB. -/
def scSb (r : Nat) : Nat := bits r 18 5

/-- FUNC. -/
def scFunc (r : Nat) : Nat := bits r 23 4

/-- IMM. -/
def scImm (r : Nat) : Nat := bits r 27 1

/-- CTD. -/
def scCtd (r : Nat) : Nat := bits r 28 4

/-- AGD. -/
def scAgd (r : Nat) : Nat := bits r 32 3

/-- AGF. -/
def scAgf (r : Nat) : Nat := bits r 35 3

/-- H. -/
def scH (r : Nat) : Nat := bits r 38 16

/-- AGS. -/
def scAgs (r : Nat) : Nat := bits r 54 4

/-- IMM64. -/
def scImm64 (r : Nat) : Nat := bits r 64 64

/-- Whether every reserved bit of the record is 0. -/
def scClean (r : Nat) : Bool :=
  bits r 58 6 == 0

/-! ## Command list header (R254) -/

/-- KIND. -/
def lhKind (r : Nat) : Nat := bits r 0 8

/-- DIE. -/
def lhDie (r : Nat) : Nat := bits r 8 4

/-- CLASS. -/
def lhClass (r : Nat) : Nat := bits r 16 2

/-- JOB. -/
def lhJob (r : Nat) : Nat := bits r 18 1

/-- PERIOD. -/
def lhPeriod (r : Nat) : Nat := bits r 20 16

/-- COUNT. -/
def lhCount (r : Nat) : Nat := bits r 36 13

/-- START_TOKEN. -/
def lhStartToken (r : Nat) : Nat := bits r 52 12

/-- START_COUNT. -/
def lhStartCount (r : Nat) : Nat := bits r 64 16

/-- LIST_ID. -/
def lhListId (r : Nat) : Nat := bits r 80 16

/-- COMPLETION. -/
def lhCompletion (r : Nat) : Nat := bits r 96 48

/-- Whether every reserved bit of the record is 0. -/
def lhClean (r : Nat) : Bool :=
  bits r 12 4 == 0 && bits r 19 1 == 0 && bits r 49 3 == 0 && bits r 144 368 == 0

/-! ## Command record (R255) -/

/-- KIND. -/
def cmKind (r : Nat) : Nat := bits r 0 8

/-- ENGINE. -/
def cmEngine (r : Nat) : Nat := bits r 8 8

/-- RECOMPUTE. -/
def cmRecompute (r : Nat) : Nat := bits r 16 1

/-- W0_TOKEN. -/
def cmW0Token (r : Nat) : Nat := bits r 24 12

/-- W0_COUNT. -/
def cmW0Count (r : Nat) : Nat := bits r 36 16

/-- W1_TOKEN. -/
def cmW1Token (r : Nat) : Nat := bits r 52 12

/-- W1_COUNT. -/
def cmW1Count (r : Nat) : Nat := bits r 64 16

/-- S0_DIE. -/
def cmS0Die (r : Nat) : Nat := bits r 80 3

/-- S0_TOKEN. -/
def cmS0Token (r : Nat) : Nat := bits r 84 12

/-- S0_COUNT. -/
def cmS0Count (r : Nat) : Nat := bits r 96 16

/-- S1_DIE. -/
def cmS1Die (r : Nat) : Nat := bits r 112 3

/-- S1_TOKEN. -/
def cmS1Token (r : Nat) : Nat := bits r 116 12

/-- S1_COUNT. -/
def cmS1Count (r : Nat) : Nat := bits r 128 16

/-- LAYER. -/
def cmLayer (r : Nat) : Nat := bits r 144 16

/-- BODY. -/
def cmBody (r : Nat) : Nat := bits r 160 352

/-- Whether every reserved bit of the record is 0. -/
def cmClean (r : Nat) : Bool :=
  bits r 17 7 == 0 && bits r 83 1 == 0 && bits r 115 1 == 0

/-! ## Command body (R257) -/

/-- PROG. -/
def cbProg (r : Nat) : Nat := bits r 160 48

/-- LENGTH. -/
def cbLength (r : Nat) : Nat := bits r 208 13

/-- SDESC. -/
def cbSdesc (r : Nat) : Nat := bits r 160 48

/-- CDESC. -/
def cbCdesc (r : Nat) : Nat := bits r 160 48

/-- UPROG. -/
def cbUprog (r : Nat) : Nat := bits r 208 48

/-- OP. -/
def cbOp (r : Nat) : Nat := bits r 160 8

/-- ADDR. -/
def cbAddr (r : Nat) : Nat := bits r 168 48

/-- SIZE. -/
def cbSize (r : Nat) : Nat := bits r 216 48

/-- ARG. -/
def cbArg (r : Nat) : Nat := bits r 264 16

/-! ## Tensor descriptor (R315) -/

/-- ADDR. -/
def tdAddr (r : Nat) : Nat := bits r 0 48

/-- PLANE2. -/
def tdPlane2 (r : Nat) : Nat := bits r 48 48

/-- LIMIT. -/
def tdLimit (r : Nat) : Nat := bits r 96 44

/-- FORMAT. -/
def tdFormat (r : Nat) : Nat := bits r 140 4

/-- BLOCKED. -/
def tdBlocked (r : Nat) : Nat := bits r 144 1

/-- SCALE_MODE. -/
def tdScaleMode (r : Nat) : Nat := bits r 145 2

/-- KIND. -/
def tdKind (r : Nat) : Nat := bits r 147 3

/-- STATE. -/
def tdState (r : Nat) : Nat := bits r 150 1

/-- SHARED_READ. -/
def tdSharedRead (r : Nat) : Nat := bits r 151 1

/-- RANK. -/
def tdRank (r : Nat) : Nat := bits r 152 2

/-- EXT0. -/
def tdExt0 (r : Nat) : Nat := bits r 160 24

/-- EXT1. -/
def tdExt1 (r : Nat) : Nat := bits r 184 24

/-- EXT2. -/
def tdExt2 (r : Nat) : Nat := bits r 208 24

/-- EXT3. -/
def tdExt3 (r : Nat) : Nat := bits r 232 24

/-- STRIDE1. -/
def tdStride1 (r : Nat) : Nat := bits r 256 40

/-- STRIDE2. -/
def tdStride2 (r : Nat) : Nat := bits r 296 40

/-- STRIDE3. -/
def tdStride3 (r : Nat) : Nat := bits r 336 40

/-- DSCALE. -/
def tdDscale (r : Nat) : Nat := bits r 376 32

/-- ISCALE. -/
def tdIscale (r : Nat) : Nat := bits r 408 32

/-- COPY_OFFSET. -/
def tdCopyOffset (r : Nat) : Nat := bits r 440 44

/-- Whether every reserved bit of the record is 0. -/
def tdClean (r : Nat) : Bool :=
  bits r 154 6 == 0 && bits r 484 28 == 0

/-! ## Stream descriptor (R341) -/

/-- START. -/
def sdStart (r : Nat) : Nat := bits r 0 48

/-- BOUND. -/
def sdBound (r : Nat) : Nat := bits r 48 16

/-- PACK. -/
def sdPack (r : Nat) : Nat := bits r 64 16

/-- FORMAT. -/
def sdFormat (r : Nat) : Nat := bits r 80 4

/-- CLASS. -/
def sdClass (r : Nat) : Nat := bits r 84 2

/-- DIR. -/
def sdDir (r : Nat) : Nat := bits r 86 1

/-- MODE. -/
def sdMode (r : Nat) : Nat := bits r 87 2

/-- NDIM. -/
def sdNdim (r : Nat) : Nat := bits r 89 3

/-- LATE. -/
def sdLate (r : Nat) : Nat := bits r 92 1

/-- POFF. -/
def sdPoff (r : Nat) : Nat := bits r 96 32

/-- COUNTk, k from 0 to 5. -/
def sdCount (r k : Nat) : Nat := bits r (128 + 64 * k) 24

/-- STRIDEk, k from 0 to 5, two's complement (R341). -/
def sdStride (r k : Nat) : Int := sext 40 (bits r (152 + 64 * k) 40)

/-- Whether every reserved bit of the record is 0. -/
def sdClean (r : Nat) : Bool :=
  bits r 93 3 == 0

/-! ## Bolt header (R377) -/

/-- DEST. -/
def bhDest (r : Nat) : Nat := bits r 47 17

/-- CONTEXT. -/
def bhContext (r : Nat) : Nat := bits r 35 12

/-- OP. -/
def bhOp (r : Nat) : Nat := bits r 31 4

/-- EDITION. -/
def bhEdition (r : Nat) : Nat := bits r 29 2

/-- SEQ. -/
def bhSeq (r : Nat) : Nat := bits r 17 12

/-- LAST. -/
def bhLast (r : Nat) : Nat := bits r 16 1

/-- SCALE1. -/
def bhScale1 (r : Nat) : Nat := bits r 8 8

/-- SCALE0. -/
def bhScale0 (r : Nat) : Nat := bits r 0 8

/-! ## Link word of a raft (R383) -/

/-- RAFT_SEQ. -/
def lwRaftSeq (r : Nat) : Nat := bits r 0 12

/-- ACK_SEQ. -/
def lwAckSeq (r : Nat) : Nat := bits r 12 12

/-- NAK. -/
def lwNak (r : Nat) : Nat := bits r 24 1

/-- CRED_VC0. -/
def lwCredVc0 (r : Nat) : Nat := bits r 32 8

/-- CRED_VC1. -/
def lwCredVc1 (r : Nat) : Nat := bits r 40 8

/-- CRED_VC2. -/
def lwCredVc2 (r : Nat) : Nat := bits r 48 8

/-- CRED_VC3. -/
def lwCredVc3 (r : Nat) : Nat := bits r 56 8

/-- Whether every reserved bit of the record is 0. -/
def lwClean (r : Nat) : Bool :=
  bits r 25 7 == 0 && bits r 64 16 == 0

/-! ## Board access request payload (R399) -/

/-- ADDR. -/
def brAddr (r : Nat) : Nat := bits r 0 44

/-- COUNT. -/
def brCount (r : Nat) : Nat := bits r 48 5

/-- MASK_FIRST. -/
def brMaskFirst (r : Nat) : Nat := bits r 64 64

/-- MASK_LAST. -/
def brMaskLast (r : Nat) : Nat := bits r 128 64

/-- Whether every reserved bit of the record is 0. -/
def brClean (r : Nat) : Bool :=
  bits r 44 4 == 0 && bits r 53 11 == 0 && bits r 192 320 == 0

/-! ## Exception table entry (R402) -/

/-- MATCH. -/
def xtMatch (r : Nat) : Nat := bits r 0 17

/-- MASK. -/
def xtMask (r : Nat) : Nat := bits r 17 17

/-- REST_OWN. -/
def xtRestOwn (r : Nat) : Nat := bits r 34 1

/-- PORT. -/
def xtPort (r : Nat) : Nat := bits r 35 4

/-- VCSEL. -/
def xtVcsel (r : Nat) : Nat := bits r 39 2

/-- VALID. -/
def xtValid (r : Nat) : Nat := bits r 41 1

/-! ## Port record of the machine plan (R411) -/

/-- PEER_COORD. -/
def ppPeerCoord (r : Nat) : Nat := bits r 0 17

/-- PEER_PORT. -/
def ppPeerPort (r : Nat) : Nat := bits r 17 4

/-- USED. -/
def ppUsed (r : Nat) : Nat := bits r 21 1

/-- LEARN. -/
def ppLearn (r : Nat) : Nat := bits r 22 1

/-- PEER_HASH. -/
def ppPeerHash (r : Nat) : Nat := bits r 64 64

/-- Whether every reserved bit of the record is 0. -/
def ppClean (r : Nat) : Bool :=
  bits r 23 41 == 0

/-! ## SURVEY payload (R412) -/

/-- ID_HASH. -/
def svIdHash (r : Nat) : Nat := bits r 0 256

/-- COORD. -/
def svCoord (r : Nat) : Nat := bits r 256 17

/-- PORT. -/
def svPort (r : Nat) : Nat := bits r 273 4

/-- PLAN_ID. -/
def svPlanId (r : Nat) : Nat := bits r 280 32

/-- ACCEPT. -/
def svAccept (r : Nat) : Nat := bits r 312 1

/-- Whether every reserved bit of the record is 0. -/
def svClean (r : Nat) : Bool :=
  bits r 277 3 == 0 && bits r 313 199 == 0

/-! ## Collective descriptor (R420) -/

/-- TYPE. -/
def cdType (r : Nat) : Nat := bits r 0 4

/-- AXIS. -/
def cdAxis (r : Nat) : Nat := bits r 4 3

/-- GRAD. -/
def cdGrad (r : Nat) : Nat := bits r 7 1

/-- MODE. -/
def cdMode (r : Nat) : Nat := bits r 8 3

/-- RMODE. -/
def cdRmode (r : Nat) : Nat := bits r 11 2

/-- DST_EN. -/
def cdDstEn (r : Nat) : Nat := bits r 13 1

/-- RESID_EN. -/
def cdResidEn (r : Nat) : Nat := bits r 14 1

/-- CTX_BASE. -/
def cdCtxBase (r : Nat) : Nat := bits r 16 12

/-- MEMBERS. -/
def cdMembers (r : Nat) : Nat := bits r 32 32

/-- ROOT. -/
def cdRoot (r : Nat) : Nat := bits r 64 5

/-- KQ. -/
def cdKq (r : Nat) : Nat := bits r 69 5

/-- SRC. -/
def cdSrc (r : Nat) : Nat := bits r 80 16

/-- DST. -/
def cdDst (r : Nat) : Nat := bits r 96 16

/-- RESID. -/
def cdResid (r : Nat) : Nat := bits r 112 16

/-- A2A_CNT. -/
def cdA2aCnt (r : Nat) : Nat := bits r 128 16

/-- SITE. -/
def cdSite (r : Nat) : Nat := bits r 144 16

/-- RECORD. -/
def cdRecord (r : Nat) : Nat := bits r 160 48

/-- Whether every reserved bit of the record is 0. -/
def cdClean (r : Nat) : Bool :=
  bits r 15 1 == 0 && bits r 28 4 == 0 && bits r 74 6 == 0 && bits r 208 304 == 0

/-! ## CTRL payload (R436) -/

/-- KIND. -/
def ctlKind (r : Nat) : Nat := bits r 0 4

/-- SENDER. -/
def ctlSender (r : Nat) : Nat := bits r 4 5

/-- NONFINITE. -/
def ctlNonfinite (r : Nat) : Nat := bits r 9 1

/-- STEP_LO. -/
def ctlStepLo (r : Nat) : Nat := bits r 32 32

/-- STEP_HI. -/
def ctlStepHi (r : Nat) : Nat := bits r 64 32

/-- SQ. -/
def ctlSq (r : Nat) : Nat := bits r 96 64

/-- ARG. -/
def ctlArg (r : Nat) : Nat := bits r 160 32

/-- Whether every reserved bit of the record is 0. -/
def ctlClean (r : Nat) : Bool :=
  bits r 10 22 == 0 && bits r 192 320 == 0

/-! ## Update program header (R468) -/

/-- KIND. -/
def uhKind (r : Nat) : Nat := bits r 0 8

/-- NOPS. -/
def uhNops (r : Nat) : Nat := bits r 8 6

/-- FTZ. -/
def uhFtz (r : Nat) : Nat := bits r 14 1

/-- ROWS. -/
def uhRows (r : Nat) : Nat := bits r 15 1

/-- PRESS. -/
def uhPress (r : Nat) : Nat := bits r 16 1

/-- STATHOLD. -/
def uhStathold (r : Nat) : Nat := bits r 17 1

/-- D1. -/
def uhD1 (r : Nat) : Nat := bits r 32 32

/-- D2. -/
def uhD2 (r : Nat) : Nat := bits r 64 32

/-- Qi, i from 0 to 5. -/
def uhQ (r i : Nat) : Nat := bits r (96 + 32 * i) 32

/-- LRTAB. -/
def uhLrtab (r : Nat) : Nat := bits r 288 48

/-- LRN. -/
def uhLrn (r : Nat) : Nat := bits r 336 8

/-- Whether every reserved bit of the record is 0. -/
def uhClean (r : Nat) : Bool :=
  bits r 18 14 == 0 && bits r 344 168 == 0

/-! ## Update program slot entry (R469) -/

/-- HANDLE. -/
def usHandle (r : Nat) : Nat := bits r 0 16

/-- LOAD. -/
def usLoad (r : Nat) : Nat := bits r 16 1

/-- STORE. -/
def usStore (r : Nat) : Nat := bits r 17 1

/-- Whether every reserved bit of the record is 0. -/
def usClean (r : Nat) : Bool :=
  bits r 18 46 == 0

/-! ## Update program auxiliary record (R470) -/

/-- LSTAT. -/
def uaLstat (r : Nat) : Nat := bits r 0 16

/-- RSTAT. -/
def uaRstat (r : Nat) : Nat := bits r 16 16

/-- LROOT. -/
def uaLroot (r : Nat) : Nat := bits r 32 16

/-- RROOT. -/
def uaRroot (r : Nat) : Nat := bits r 48 16

/-- LNEW. -/
def uaLnew (r : Nat) : Nat := bits r 64 16

/-- RNEW. -/
def uaRnew (r : Nat) : Nat := bits r 80 16

/-- REFRESH. -/
def uaRefresh (r : Nat) : Nat := bits r 96 16

/-- SX. -/
def uaSx (r : Nat) : Nat := bits r 112 8

/-- SDECAY. -/
def uaSdecay (r : Nat) : Nat := bits r 120 32

/-- PWORK. -/
def uaPwork (r : Nat) : Nat := bits r 152 48

/-- ROWIDX. -/
def uaRowidx (r : Nat) : Nat := bits r 200 16

/-- ROWHDR. -/
def uaRowhdr (r : Nat) : Nat := bits r 216 16

/-- ROWLOG. -/
def uaRowlog (r : Nat) : Nat := bits r 232 48

/-- LOGCAP. -/
def uaLogcap (r : Nat) : Nat := bits r 280 21

/-- Whether every reserved bit of the record is 0. -/
def uaClean (r : Nat) : Bool :=
  bits r 301 211 == 0

/-! ## Update program operation (R471) -/

/-- OP. -/
def uoOp (r : Nat) : Nat := bits r 0 5

/-- DST. -/
def uoDst (r : Nat) : Nat := bits r 5 4

/-- SA. -/
def uoSa (r : Nat) : Nat := bits r 9 5

/-- SB. -/
def uoSb (r : Nat) : Nat := bits r 14 5

/-- SC. -/
def uoSc (r : Nat) : Nat := bits r 19 5

/-- RMODE. -/
def uoRmode (r : Nat) : Nat := bits r 24 2

/-- SLOT. -/
def uoSlot (r : Nat) : Nat := bits r 26 3

/-- FMT. -/
def uoFmt (r : Nat) : Nat := bits r 29 4

/-- IMM. -/
def uoImm (r : Nat) : Nat := bits r 33 8

/-- SITE. -/
def uoSite (r : Nat) : Nat := bits r 41 16

/-- Whether every reserved bit of the record is 0. -/
def uoClean (r : Nat) : Bool :=
  bits r 57 7 == 0

/-! ## Job mapping record (R502) -/

/-- KIND. -/
def jmKind (r : Nat) : Nat := bits r 0 8

/-- LOGICAL. -/
def jmLogical (r : Nat) : Nat := bits r 8 17

/-- REPLICA. -/
def jmReplica (r : Nat) : Nat := bits r 25 5

/-- SCHEDULE. -/
def jmSchedule (r : Nat) : Nat := bits r 30 2

/-- MICRO. -/
def jmMicro (r : Nat) : Nat := bits r 32 16

/-- RECIPE. -/
def jmRecipe (r : Nat) : Nat := bits r 48 40

/-- Whether every reserved bit of the record is 0. -/
def jmClean (r : Nat) : Bool :=
  bits r 88 424 == 0

/-! ## Leaf control word (R521) -/

/-- LEAF_SEQ. -/
def lcLeafSeq (r : Nat) : Nat := bits r 0 6

/-- ACK_SEQ. -/
def lcAckSeq (r : Nat) : Nat := bits r 6 6

/-- NAK. -/
def lcNak (r : Nat) : Nat := bits r 12 1

/-- IDLE. -/
def lcIdle (r : Nat) : Nat := bits r 13 1

/-- CVC. -/
def lcCvc (r : Nat) : Nat := bits r 14 2

/-- CRED_TOTAL. -/
def lcCredTotal (r : Nat) : Nat := bits r 16 8

/-- Whether every reserved bit of the record is 0. -/
def lcClean (r : Nat) : Bool :=
  bits r 24 8 == 0

/-! ## Slot tag (R522) -/

/-- KIND. -/
def tgKind (r : Nat) : Nat := bits r 0 4

/-- CLASS. -/
def tgClass (r : Nat) : Nat := bits r 4 2

/-- DEST. -/
def tgDest (r : Nat) : Nat := bits r 6 4

/-- SRC. -/
def tgSrc (r : Nat) : Nat := bits r 10 4

/-- TID. -/
def tgTid (r : Nat) : Nat := bits r 14 12

/-- LAST. -/
def tgLast (r : Nat) : Nat := bits r 26 1

/-- Whether every reserved bit of the record is 0. -/
def tgClean (r : Nat) : Bool :=
  bits r 27 5 == 0

/-! ## Fault-history record (R561) -/

/-- SEQ. -/
def hrSeq (r : Nat) : Nat := bits r 0 32

/-- BOOT. -/
def hrBoot (r : Nat) : Nat := bits r 32 32

/-- TIME. -/
def hrTime (r : Nat) : Nat := bits r 64 64

/-- UNIT. -/
def hrUnit (r : Nat) : Nat := bits r 128 8

/-- KIND. -/
def hrKind (r : Nat) : Nat := bits r 136 8

/-- DIE. -/
def hrDie (r : Nat) : Nat := bits r 144 4

/-- INDEX. -/
def hrIndex (r : Nat) : Nat := bits r 152 16

/-- DETAIL. -/
def hrDetail (r : Nat) : Nat := bits r 168 32

/-- VALID. -/
def hrValid (r : Nat) : Nat := bits r 504 8

/-- Whether every reserved bit of the record is 0. -/
def hrClean (r : Nat) : Bool :=
  bits r 148 4 == 0 && bits r 200 304 == 0

/-! ## Trailer header (R581) -/

/-- KIND. -/
def trKind (r : Nat) : Nat := bits r 0 8

/-- SIGNER. -/
def trSigner (r : Nat) : Nat := bits r 8 1

/-- SVN. -/
def trSvn (r : Nat) : Nat := bits r 16 8

/-- CMD. -/
def trCmd (r : Nat) : Nat := bits r 24 8

/-- BODY_LEN. -/
def trBodyLen (r : Nat) : Nat := bits r 64 64

/-- TARGET. -/
def trTarget (r : Nat) : Nat := bits r 128 64

/-- NONCE. -/
def trNonce (r : Nat) : Nat := bits r 192 128

/-- Whether every reserved bit of the record is 0. -/
def trClean (r : Nat) : Bool :=
  bits r 9 7 == 0 && bits r 32 32 == 0 && bits r 320 192 == 0

/-! ## Delegation record (R582) -/

/-- DELEGATE_PK. -/
def drDelegatePk (r : Nat) : Nat := bits r 0 256

/-- ROLES. -/
def drRoles (r : Nat) : Nat := bits r 256 8

/-- GENERATION. -/
def drGeneration (r : Nat) : Nat := bits r 264 8

/-- TARGET. -/
def drTarget (r : Nat) : Nat := bits r 272 64

/-- Whether every reserved bit of the record is 0. -/
def drClean (r : Nat) : Bool :=
  bits r 336 176 == 0

/-! ## Image slot descriptor (R601) -/

/-- OBJECT_LEN. -/
def isObjectLen (r : Nat) : Nat := bits r 0 32

/-- SEQUENCE. -/
def isSequence (r : Nat) : Nat := bits r 32 32

/-- Whether every reserved bit of the record is 0. -/
def isClean (r : Nat) : Bool :=
  bits r 64 448 == 0

/-! ## Configuration record (R602) -/

/-- KIND. -/
def crKind (r : Nat) : Nat := bits r 0 8

/-- LAYOUT. -/
def crLayout (r : Nat) : Nat := bits r 8 8

/-- SEQUENCE. -/
def crSequence (r : Nat) : Nat := bits r 32 32

/-- BUD_LIMIT. -/
def crBudLimit (r : Nat) : Nat := bits r 64 12

/-- VCORE_MIN. -/
def crVcoreMin (r : Nat) : Nat := bits r 76 10

/-- VCORE_NOM. -/
def crVcoreNom (r : Nat) : Nat := bits r 86 10

/-- VCORE_MAX. -/
def crVcoreMax (r : Nat) : Nat := bits r 96 10

/-- AVS_SEL. -/
def crAvsSel (r : Nat) : Nat := bits r 128 32

/-- AUX_SEL. -/
def crAuxSel (r : Nat) : Nat := bits r 160 16

/-- AUX_EN. -/
def crAuxEn (r : Nat) : Nat := bits r 176 4

/-- The rail selects in use (R653): the VCORE rails of the dies enabled in fuses, and the enabled auxiliary rails. -/
def selects (present r : Nat) : List Nat :=
  ((List.range 8).filter (bit present)).map (fun n => bits (crAvsSel r) (4 * n) 4) ++
    ((List.range 4).filter (bit (crAuxEn r))).map fun i => bits (crAuxSel r) (4 * i) 4

/-- POLICY. -/
def crPolicy (r : Nat) : Nat := bits r 192 56

/-- LP_DENSITY. -/
def crLpDensity (r : Nat) : Nat := bits r 256 3

/-- LP_RATE. -/
def crLpRate (r : Nat) : Nat := bits r 259 2

/-- LP_ECC. -/
def crLpEcc (r : Nat) : Nat := bits r 261 1

/-- QOS. -/
def crQos (r : Nat) : Nat := bits r 264 24

/-- SCRUB_STACK_H. -/
def crScrubStackH (r : Nat) : Nat := bits r 288 8

/-- SCRUB_TIER_H. -/
def crScrubTierH (r : Nat) : Nat := bits r 296 8

/-- YRD_REG. -/
def crYrdReg (r : Nat) : Nat := bits r 320 256

/-- CRZ. -/
def crCrz (r : Nat) : Nat := bits r 576 22

/-- FLT_CFG. -/
def crFltCfg (r : Nat) : Nat := bits r 640 64

/-- COL_CFG. -/
def crColCfg (r : Nat) : Nat := bits r 704 64

/-- Whether every reserved bit of the record is 0. -/
def crClean (r : Nat) : Bool :=
  bits r 16 16 == 0 && bits r 106 22 == 0 && bits r 180 12 == 0 && bits r 248 8 == 0 && bits r 262 2 == 0 && bits r 304 16 == 0 && bits r 598 42 == 0 && bits r 768 256 == 0

/-! ## Plan record (R607) -/

/-- KIND. -/
def prKind (r : Nat) : Nat := bits r 0 8

/-- LAYOUT. -/
def prLayout (r : Nat) : Nat := bits r 8 8

/-- GENERATION. -/
def prGeneration (r : Nat) : Nat := bits r 32 32

/-- PLACE. -/
def prPlace (r : Nat) : Nat := bits r 64 64

/-- PLAN_ID. -/
def prPlanId (r : Nat) : Nat := bits r 128 32

/-- RACK. -/
def prRack (r : Nat) : Nat := bits r 160 16

/-- BOARD. -/
def prBoard (r : Nat) : Nat := bits r 176 16

/-- CRC. -/
def prCrc (r : Nat) : Nat := bits r 480 32

/-- Whether every reserved bit of the record is 0. -/
def prClean (r : Nat) : Bool :=
  bits r 16 16 == 0 && bits r 192 288 == 0

/-! ## Manifest ring entry (R634) -/

/-- KIND. -/
def meKind (r : Nat) : Nat := bits r 0 8

/-- SEQ. -/
def meSeq (r : Nat) : Nat := bits r 48 16

/-- ADDR. -/
def meAddr (r : Nat) : Nat := bits r 64 48

/-- LENGTH. -/
def meLength (r : Nat) : Nat := bits r 112 32

/-- RESULT. -/
def meResult (r : Nat) : Nat := bits r 448 8

/-- ERROR. -/
def meError (r : Nat) : Nat := bits r 464 16

/-- LIST_ID. -/
def meListId (r : Nat) : Nat := bits r 480 16

/-- Whether every reserved bit of the record is 0. -/
def meClean (r : Nat) : Bool :=
  bits r 8 40 == 0 && bits r 144 304 == 0

/-! ## Manifest header (R635) -/

/-- KIND. -/
def mfKind (r : Nat) : Nat := bits r 0 8

/-- STANDBY. -/
def mfStandby (r : Nat) : Nat := bits r 8 1

/-- CUR. -/
def mfCur (r : Nat) : Nat := bits r 9 1

/-- PERIODS. -/
def mfPeriods (r : Nat) : Nat := bits r 16 16

/-- NOMINAL_US. -/
def mfNominalUs (r : Nat) : Nat := bits r 32 24

/-- CATCHUP_CAP. -/
def mfCatchupCap (r : Nat) : Nat := bits r 56 6

/-- ARREARS_EVENT. -/
def mfArrearsEvent (r : Nat) : Nat := bits r 64 8

/-- MIN_ISA. -/
def mfMinIsa (r : Nat) : Nat := bits r 72 8

/-- MIN_UPDATE. -/
def mfMinUpdate (r : Nat) : Nat := bits r 80 8

/-- STEP. -/
def mfStep (r : Nat) : Nat := bits r 96 32

/-- STEPS. -/
def mfSteps (r : Nat) : Nat := bits r 128 32

/-- SEED. -/
def mfSeed (r : Nat) : Nat := bits r 160 64

/-- DESC_TABLE. -/
def mfDescTable (r : Nat) : Nat := bits r 224 48

/-- LIST_COUNT. -/
def mfListCount (r : Nat) : Nat := bits r 272 16

/-- LIST_TABLE. -/
def mfListTable (r : Nat) : Nat := bits r 288 48

/-- CTX_COUNT. -/
def mfCtxCount (r : Nat) : Nat := bits r 336 12

/-- CTX_TABLE. -/
def mfCtxTable (r : Nat) : Nat := bits r 352 48

/-- STATUS_RING. -/
def mfStatusRing (r : Nat) : Nat := bits r 400 64

/-- STATUS_SLOTS. -/
def mfStatusSlots (r : Nat) : Nat := bits r 464 16

/-- LAYERS. -/
def mfLayers (r : Nat) : Nat := bits r 480 11

/-- Whether every reserved bit of the record is 0. -/
def mfClean (r : Nat) : Bool :=
  bits r 10 6 == 0 && bits r 62 2 == 0 && bits r 88 8 == 0 && bits r 348 4 == 0 && bits r 491 21 == 0

/-! ## Context entry (R636) -/

/-- CONTEXT. -/
def ceContext (r : Nat) : Nat := bits r 0 12

/-- PEER. -/
def cePeer (r : Nat) : Nat := bits r 12 17

/-- KIND. -/
def ceKind (r : Nat) : Nat := bits r 29 2

/-- CREDITS. -/
def ceCredits (r : Nat) : Nat := bits r 32 12

/-- Whether every reserved bit of the record is 0. -/
def ceClean (r : Nat) : Bool :=
  bits r 31 1 == 0 && bits r 44 20 == 0

/-! ## Event rate entry (R661) -/

/-- RATE. -/
def erRate (r : Nat) : Nat := bits r 0 16

/-- BURST. -/
def erBurst (r : Nat) : Nat := bits r 16 16

/-! ## Transfer ring entry (R642) -/

/-- KIND. -/
def xeKind (r : Nat) : Nat := bits r 0 8

/-- DIE. -/
def xeDie (r : Nat) : Nat := bits r 8 4

/-- TOKEN. -/
def xeToken (r : Nat) : Nat := bits r 12 12

/-- COUNT. -/
def xeCount (r : Nat) : Nat := bits r 24 16

/-- SEQ. -/
def xeSeq (r : Nat) : Nat := bits r 48 16

/-- HOST. -/
def xeHost (r : Nat) : Nat := bits r 64 64

/-- DEVICE. -/
def xeDevice (r : Nat) : Nat := bits r 128 48

/-- HANDLE. -/
def xeHandle (r : Nat) : Nat := bits r 176 16

/-- LENGTH. -/
def xeLength (r : Nat) : Nat := bits r 192 32

/-- RESULT. -/
def xeResult (r : Nat) : Nat := bits r 448 8

/-- ERROR. -/
def xeError (r : Nat) : Nat := bits r 464 16

/-- Whether every reserved bit of the record is 0. -/
def xeClean (r : Nat) : Bool :=
  bits r 40 8 == 0 && bits r 224 224 == 0

end Sys2Proof.Machine
end

