-- ==== Sys2Proof/Config.lean ====
section
/-! DEFINITION. What the spec leaves to an implementation or to mathematics outside the device, as constants without a
body: no proof can see a value of any of them, and a statement that holds, holds whatever they are. -/

namespace Sys2Proof

/-- A free value: the value the spec leaves open at the `n`-th use in a run (the model's own counter numbers the
uses). -/
opaque Config.free : Nat → Nat

/-- Bits of the hardware random generator: one draw per challenge (R587), and one for the randomness of a signature (R594,
log 216). -/
opaque Config.random : Nat → Nat

/-- ROM_ID (R593). -/
opaque Config.romId : Nat

/-- The package power that a die controller projects (R86) for die `d` at `mv` millivolts while the averaged power is
`w` watts: the spec gives no formula. Arguments: w, d, mv. -/
opaque Config.projected : Nat → Nat → Nat → Nat

/-- Which channel of a stack holds a row, which bank and which row of the bank (R294 and the organisation table of
stacked DRAM give the counts and no mapping). Argument: the row's number within the stack, offset / 2,048. -/
opaque Config.rowPlace : Nat → Nat × Nat × Nat

/-- Symbol of R301 that the dead data wire of a channel carries, by die × 128 + channel: the spec does not map wires to
symbols (log 205). -/
opaque Config.deadSymbol : Nat → Nat

/-- Length of the pattern bundle in the NVM region, by the region's first 64 bytes: the spec gives a bundle no header (R567,
log 84). -/
opaque Config.bundleLen : Nat → Nat

/-- Number less one, modulo 256, of the patterns that a bundle holds, by its bytes: the spec gives a bundle no layout (R567,
log 84). -/
opaque Config.bundleCount : Nat → Nat

/-- Granules that the first segment of a maintenance operation covers, by its OP: R684 bounds the segment in time alone
(log 83). -/
opaque Config.segment : Nat → Nat

/-- Whether the device tests for tininess after rounding or before it (R133 leaves IEEE 754's choice open). -/
opaque Config.tinyAfterRounding : Bool

/-- Sideband answers that the spec does not give: 0 the I3C provisioned ID, 1 BCR, 2 DCR, 3 the maximum write length,
4 the maximum read length, 5 the bits of the JTAG IDCODE outside R654. -/
opaque Config.sideband : Nat → Nat

end Sys2Proof
end

