-- ==== Sys2Proof/Machine/Codes.lean ====
section
/-! DEFINITION. Error and event codes with their numbers and severities (R669). -/

namespace Sys2Proof.Machine

/-- The named codes of R669; `ok` is code 0, no error. -/
inductive Err where
  | ok
  | listFormat
  | engineAbsent
  | listDie
  | badKind
  | kindEngine
  | kindJob
  | fieldInvalid
  | addressInvalid
  | statePlacement
  | recomputeWrite
  | listStoreFull
  | illegalOpcode
  | loopNest
  | noEnd
  | badHandle
  | handleLimit
  | uprogInvalid
  | updateExtent
  | collMembers
  | contextInvalid
  | mappingInvalid
  | manifestInvalid
  | jobActive
  | editionStale
  | isaLevelLow
  | configAbsent
  | planAbsent
  | operandBounds
  | blockAlign
  | formatMismatch
  | configMismatch
  | valueRange
  | operandAlign
  | streamAlign
  | streamBounds
  | streamLength
  | startOverrun
  | contextFault
  | a2aCount
  | rowOrder
  | rowBounds
  | rowTwice
  | rowlogFull
  | updateCoverage
  | scheduleHazard
  | tokenOverflow
  | tokenWaitLong
  | arrearsHigh
  | stepSkipped
  | stepSkew
  | rootRejected
  | jobStoppedPeer
  | collectiveStall
  | multicastLaggard
  | memUncorrectable
  | spareRowsExhausted
  | channelDegraded
  | lpddrConfig
  | lpddrFail
  | scratchUncorrectable
  | bufferUncorrectable
  | cruiseMismatch
  | tileRetired
  | tileSparesLow
  | tileUntested
  | patternFail
  | dieFailed
  | historyFull
  | stateLost
  | avsFault
  | thermalLimit
  | thermalTrip
  | portDegraded
  | portDown
  | routeDown
  | boltInvalid
  | cableMismatch
  | iraleRepair
  | iraleLinkFail
  | iraleTime
  | iraleExcluded
  | deviceDegraded
  | sigFormat
  | keyUnknown
  | sigInvalid
  | keyRevoked
  | roleDenied
  | targetMismatch
  | svnLow
  | nonceStale
  | lifecycleDenied
  | svnInvalid
  | fusesExhausted
  | lifecycleChange
  | eventsCleared
  | nvmFail
  | configInvalid
  | planInvalid
  | deviceReady
  | jobStarted
  | jobFinished
  | debugHalt
  deriving DecidableEq, Repr

/-- The number of a code (R669). -/
def Err.code : Err → Nat
  | .ok => 0
  | .listFormat => 0x0101
  | .engineAbsent => 0x0102
  | .listDie => 0x0103
  | .badKind => 0x0104
  | .kindEngine => 0x0105
  | .kindJob => 0x0106
  | .fieldInvalid => 0x0107
  | .addressInvalid => 0x0108
  | .statePlacement => 0x0109
  | .recomputeWrite => 0x010A
  | .listStoreFull => 0x010B
  | .illegalOpcode => 0x010C
  | .loopNest => 0x010D
  | .noEnd => 0x010E
  | .badHandle => 0x010F
  | .handleLimit => 0x0110
  | .uprogInvalid => 0x0111
  | .updateExtent => 0x0112
  | .collMembers => 0x0113
  | .contextInvalid => 0x0114
  | .mappingInvalid => 0x0115
  | .manifestInvalid => 0x0116
  | .jobActive => 0x0117
  | .editionStale => 0x0118
  | .isaLevelLow => 0x0119
  | .configAbsent => 0x011A
  | .planAbsent => 0x011B
  | .operandBounds => 0x0201
  | .blockAlign => 0x0202
  | .formatMismatch => 0x0203
  | .configMismatch => 0x0204
  | .valueRange => 0x0205
  | .operandAlign => 0x0206
  | .streamAlign => 0x0207
  | .streamBounds => 0x0208
  | .streamLength => 0x0209
  | .startOverrun => 0x020A
  | .contextFault => 0x020B
  | .a2aCount => 0x020C
  | .rowOrder => 0x020D
  | .rowBounds => 0x020E
  | .rowTwice => 0x020F
  | .rowlogFull => 0x0210
  | .updateCoverage => 0x0211
  | .scheduleHazard => 0x0301
  | .tokenOverflow => 0x0302
  | .tokenWaitLong => 0x0303
  | .arrearsHigh => 0x0304
  | .stepSkipped => 0x0305
  | .stepSkew => 0x0306
  | .rootRejected => 0x0307
  | .jobStoppedPeer => 0x0308
  | .collectiveStall => 0x0401
  | .multicastLaggard => 0x0402
  | .memUncorrectable => 0x0501
  | .spareRowsExhausted => 0x0502
  | .channelDegraded => 0x0503
  | .lpddrConfig => 0x0504
  | .lpddrFail => 0x0505
  | .scratchUncorrectable => 0x0506
  | .bufferUncorrectable => 0x0507
  | .cruiseMismatch => 0x0601
  | .tileRetired => 0x0602
  | .tileSparesLow => 0x0603
  | .tileUntested => 0x0604
  | .patternFail => 0x0605
  | .dieFailed => 0x0606
  | .historyFull => 0x0607
  | .stateLost => 0x0608
  | .avsFault => 0x0701
  | .thermalLimit => 0x0702
  | .thermalTrip => 0x0703
  | .portDegraded => 0x0801
  | .portDown => 0x0802
  | .routeDown => 0x0803
  | .boltInvalid => 0x0804
  | .cableMismatch => 0x0805
  | .iraleRepair => 0x0901
  | .iraleLinkFail => 0x0902
  | .iraleTime => 0x0903
  | .iraleExcluded => 0x0904
  | .deviceDegraded => 0x0905
  | .sigFormat => 0x0A01
  | .keyUnknown => 0x0A02
  | .sigInvalid => 0x0A03
  | .keyRevoked => 0x0A04
  | .roleDenied => 0x0A05
  | .targetMismatch => 0x0A06
  | .svnLow => 0x0A07
  | .nonceStale => 0x0A08
  | .lifecycleDenied => 0x0A09
  | .svnInvalid => 0x0A0A
  | .fusesExhausted => 0x0A0B
  | .lifecycleChange => 0x0A0C
  | .eventsCleared => 0x0A0D
  | .nvmFail => 0x0B01
  | .configInvalid => 0x0B02
  | .planInvalid => 0x0B03
  | .deviceReady => 0x0C01
  | .jobStarted => 0x0C02
  | .jobFinished => 0x0C03
  | .debugHalt => 0x0C04

/-- Severity with which the event of a code is raised (R669): 0 DEBUG, 1 INFO, 2 WARNING, 3 ERROR, 4 FATAL.
CABLE_MISMATCH takes its severity from R415. -/
def Err.sev : Err → Nat
  | .ok => 0
  | .listFormat => 3
  | .engineAbsent => 3
  | .listDie => 3
  | .badKind => 3
  | .kindEngine => 3
  | .kindJob => 3
  | .fieldInvalid => 3
  | .addressInvalid => 3
  | .statePlacement => 3
  | .recomputeWrite => 3
  | .listStoreFull => 3
  | .illegalOpcode => 3
  | .loopNest => 3
  | .noEnd => 3
  | .badHandle => 3
  | .handleLimit => 3
  | .uprogInvalid => 3
  | .updateExtent => 3
  | .collMembers => 3
  | .contextInvalid => 3
  | .mappingInvalid => 3
  | .manifestInvalid => 3
  | .jobActive => 3
  | .editionStale => 3
  | .isaLevelLow => 3
  | .configAbsent => 3
  | .planAbsent => 3
  | .operandBounds => 3
  | .blockAlign => 3
  | .formatMismatch => 3
  | .configMismatch => 3
  | .valueRange => 3
  | .operandAlign => 3
  | .streamAlign => 3
  | .streamBounds => 3
  | .streamLength => 3
  | .startOverrun => 3
  | .contextFault => 3
  | .a2aCount => 3
  | .rowOrder => 3
  | .rowBounds => 3
  | .rowTwice => 3
  | .rowlogFull => 3
  | .updateCoverage => 3
  | .scheduleHazard => 2
  | .tokenOverflow => 2
  | .tokenWaitLong => 2
  | .arrearsHigh => 2
  | .stepSkipped => 2
  | .stepSkew => 2
  | .rootRejected => 2
  | .jobStoppedPeer => 2
  | .collectiveStall => 2
  | .multicastLaggard => 2
  | .memUncorrectable => 3
  | .spareRowsExhausted => 2
  | .channelDegraded => 2
  | .lpddrConfig => 2
  | .lpddrFail => 4
  | .scratchUncorrectable => 3
  | .bufferUncorrectable => 3
  | .cruiseMismatch => 2
  | .tileRetired => 2
  | .tileSparesLow => 2
  | .tileUntested => 2
  | .patternFail => 2
  | .dieFailed => 4
  | .historyFull => 3
  | .stateLost => 4
  | .avsFault => 3
  | .thermalLimit => 2
  | .thermalTrip => 4
  | .portDegraded => 2
  | .portDown => 3
  | .routeDown => 3
  | .boltInvalid => 3
  | .cableMismatch => 3
  | .iraleRepair => 1
  | .iraleLinkFail => 3
  | .iraleTime => 3
  | .iraleExcluded => 3
  | .deviceDegraded => 3
  | .sigFormat => 3
  | .keyUnknown => 3
  | .sigInvalid => 3
  | .keyRevoked => 3
  | .roleDenied => 3
  | .targetMismatch => 3
  | .svnLow => 3
  | .nonceStale => 3
  | .lifecycleDenied => 3
  | .svnInvalid => 3
  | .fusesExhausted => 3
  | .lifecycleChange => 2
  | .eventsCleared => 2
  | .nvmFail => 4
  | .configInvalid => 3
  | .planInvalid => 3
  | .deviceReady => 1
  | .jobStarted => 1
  | .jobFinished => 1
  | .debugHalt => 0

end Sys2Proof.Machine
end

