-- ==== Sys2Proof/Machine/Fields.lean ====
section
/-! DEFINITION. The register catalogue: every register of control space with its place (R628, R675), and every named
field of its map with its bits, its access code (R13) and its Reset value (R15). A reserved bit is no field (R14). -/

namespace Sys2Proof.Machine

/-- Access codes of R13. -/
inductive Acc where
  | ro | rw | w1c | wo | rc
  deriving DecidableEq, Repr

/-- How the copies of a register are spread: one block of the device, one per compute die, one per gathering, or one
per monitor channel. -/
inductive Scope where
  | device | die | gath | mon
  deriving DecidableEq, Repr

/-- The registers, in the order of R628. -/
inductive Reg where
  | hifMring  -- HIF.MRING, R631
  | hifXring  -- HIF.XRING, R631
  | hifWindow  -- HIF.WINDOW, R629
  | hifNvmctl  -- HIF.NVMCTL, R646
  | hifCause  -- HIF.CAUSE, R628
  | orgIdent  -- ORG.IDENT, R33
  | startStatus  -- START.STATUS, R617
  | startPhaseend  -- START.PHASEEND, R617
  | timeNow  -- TIME.NOW, R58
  | perCfg  -- PER.CFG, R68
  | perStatus  -- PER.STATUS, R68
  | perCount  -- PER.COUNT, R68
  | budLimit  -- BUD.LIMIT, R73
  | budPower  -- BUD.POWER, R88
  | budStatus  -- BUD.STATUS, R88
  | updStep  -- UPD.STEP, R459
  | mapJob  -- MAP.JOB, R506
  | colVerdict  -- COL.VERDICT, R441
  | colFence  -- COL.FENCE, R424
  | colCfg  -- COL.CFG, R449
  | memQos  -- MEM.QOS, R327
  | memLpcfg  -- MEM.LPCFG, R314
  | memLperr  -- MEM.LPERR, R306
  | sclRecipe  -- SCL.RECIPE, R115
  | fltCfg  -- FLT.CFG, R560
  | fltStop  -- FLT.STOP, R570
  | fltRecover  -- FLT.RECOVER, R576
  | cfgPortctl  -- CFG.PORTCTL, R621
  | irlLevel  -- IRL.LEVEL, R543
  | irlLinkstat  -- IRL.LINKSTAT, R543
  | irlCap  -- IRL.CAP, R537
  | secState  -- SEC.STATE, R595
  | secNonce  -- SEC.NONCE, R587
  | secResult  -- SEC.RESULT, R587
  | secChallenge  -- SEC.CHALLENGE, R594
  | secAttest  -- SEC.ATTEST, R594
  | secIdhash  -- SEC.IDHASH, R580
  | secIdkey  -- SEC.IDKEY, R580
  | torCoord  -- TOR.COORD, R376
  | torEdition  -- TOR.EDITION, R404
  | torDrops  -- TOR.DROPS, R410
  | torPstat  -- TOR.PSTAT, R416
  | congRecord  -- CONG.RECORD, R418
  | congSweep  -- CONG.SWEEP, R419
  | torXentry  -- TOR.XENTRY, R402
  | ctxEntry  -- CTX.ENTRY, R393
  | evtHead  -- EVT.HEAD, R660
  | evtCtl  -- EVT.CTL, R660
  | evtLost  -- EVT.LOST, R660
  | evtRate  -- EVT.RATE, R661
  | evtSlot  -- EVT.SLOT, R655
  | monCfg  -- MON.CFG, R675
  | monStat  -- MON.STAT, R675
  | monHist  -- MON.HIST, R675
  | gthCfg  -- GTH.CFG, R144
  | gthBeatmeter  -- GTH.BEATMETER, R49
  | gthNumstat  -- GTH.NUMSTAT, R133
  | gthSeqstat  -- GTH.SEQSTAT, R240
  | gthDbgctl  -- GTH.DBGCTL, R245
  | gthDbgsel  -- GTH.DBGSEL, R189
  | gthDbgdata  -- GTH.DBGDATA, R189
  | gthStalllog  -- GTH.STALLLOG, R249
  | gthStallcnt  -- GTH.STALLCNT, R249
  | engQstat  -- ENG.QSTAT, R278
  | tokCommit  -- TOK.COMMIT, R282
  | yrdTally  -- YRD.TALLY, R365
  | yrdStat  -- YRD.STAT, R369
  | yrdReg  -- YRD.REG, R368
  | memStackstat  -- MEM.STACKSTAT, R306
  | memStackerr  -- MEM.STACKERR, R306
  | updQstat  -- UPD.QSTAT, R483
  | updNumstat  -- UPD.NUMSTAT, R478
  | crzCfg  -- CRZ.CFG, R501
  | crzStat  -- CRZ.STAT, R501
  | fltDiestat  -- FLT.DIESTAT, R560
  | tokEntry  -- TOK.ENTRY, R278
  deriving DecidableEq, Repr

/-- Where a register lies: BAR0 offset of its first copy, bytes that one copy takes, how many copies stand in a row,
and its scope. -/
structure RegInfo where
  base : Nat
  size : Nat
  count : Nat
  scope : Scope
  deriving DecidableEq, Repr

/-- The map of R628 and R675. -/
def Reg.info : Reg → RegInfo
  | .hifMring => ⟨0x0, 16, 1, .device⟩
  | .hifXring => ⟨0x10, 16, 1, .device⟩
  | .hifWindow => ⟨0x20, 8, 1, .device⟩
  | .hifNvmctl => ⟨0x30, 16, 1, .device⟩
  | .hifCause => ⟨0x40, 8, 1, .device⟩
  | .orgIdent => ⟨0x10000, 8, 1, .device⟩
  | .startStatus => ⟨0x10008, 8, 1, .device⟩
  | .startPhaseend => ⟨0x10010, 8, 7, .device⟩
  | .timeNow => ⟨0x10048, 8, 1, .device⟩
  | .perCfg => ⟨0x10050, 8, 1, .device⟩
  | .perStatus => ⟨0x10058, 8, 1, .device⟩
  | .perCount => ⟨0x10060, 8, 1, .device⟩
  | .budLimit => ⟨0x10068, 8, 1, .device⟩
  | .budPower => ⟨0x10070, 8, 1, .device⟩
  | .budStatus => ⟨0x10078, 8, 8, .device⟩
  | .updStep => ⟨0x100B8, 8, 1, .device⟩
  | .mapJob => ⟨0x100C0, 8, 1, .device⟩
  | .colVerdict => ⟨0x100D0, 16, 1, .device⟩
  | .colFence => ⟨0x100E0, 8, 5, .device⟩
  | .colCfg => ⟨0x10108, 8, 1, .device⟩
  | .memQos => ⟨0x10110, 8, 1, .device⟩
  | .memLpcfg => ⟨0x10118, 8, 1, .device⟩
  | .memLperr => ⟨0x10120, 8, 1, .device⟩
  | .sclRecipe => ⟨0x10128, 8, 1, .device⟩
  | .fltCfg => ⟨0x10130, 8, 1, .device⟩
  | .fltStop => ⟨0x10138, 8, 1, .device⟩
  | .fltRecover => ⟨0x10140, 8, 1, .device⟩
  | .cfgPortctl => ⟨0x10148, 8, 1, .device⟩
  | .irlLevel => ⟨0x10150, 8, 1, .device⟩
  | .irlLinkstat => ⟨0x10158, 8, 14, .device⟩
  | .irlCap => ⟨0x101C8, 8, 160, .device⟩
  | .secState => ⟨0x20000, 8, 1, .device⟩
  | .secNonce => ⟨0x20010, 16, 1, .device⟩
  | .secResult => ⟨0x20020, 8, 1, .device⟩
  | .secChallenge => ⟨0x20040, 32, 1, .device⟩
  | .secAttest => ⟨0x20060, 8, 1, .device⟩
  | .secIdhash => ⟨0x20080, 32, 1, .device⟩
  | .secIdkey => ⟨0x200C0, 64, 1, .device⟩
  | .torCoord => ⟨0x30000, 8, 1, .device⟩
  | .torEdition => ⟨0x30008, 8, 1, .device⟩
  | .torDrops => ⟨0x30010, 16, 1, .device⟩
  | .torPstat => ⟨0x30020, 8, 12, .device⟩
  | .congRecord => ⟨0x30080, 64, 1, .device⟩
  | .congSweep => ⟨0x300C0, 16, 1, .device⟩
  | .torXentry => ⟨0x300D0, 8, 256, .device⟩
  | .ctxEntry => ⟨0x40000, 16, 4096, .device⟩
  | .evtHead => ⟨0x50000, 8, 1, .device⟩
  | .evtCtl => ⟨0x50008, 8, 1, .device⟩
  | .evtLost => ⟨0x50010, 16, 1, .device⟩
  | .evtRate => ⟨0x51000, 8, 256, .device⟩
  | .evtSlot => ⟨0x60000, 64, 4096, .device⟩
  | .monCfg => ⟨0xA0000, 8, 48, .mon⟩
  | .monStat => ⟨0xA0010, 16, 48, .mon⟩
  | .monHist => ⟨0xA0080, 128, 48, .mon⟩
  | .gthCfg => ⟨0x1000000, 8, 1, .gath⟩
  | .gthBeatmeter => ⟨0x1000008, 8, 1, .gath⟩
  | .gthNumstat => ⟨0x1000010, 8, 1, .gath⟩
  | .gthSeqstat => ⟨0x1000018, 8, 1, .gath⟩
  | .gthDbgctl => ⟨0x1000020, 8, 1, .gath⟩
  | .gthDbgsel => ⟨0x1000028, 8, 1, .gath⟩
  | .gthDbgdata => ⟨0x1000030, 8, 1, .gath⟩
  | .gthStalllog => ⟨0x1000038, 8, 16, .gath⟩
  | .gthStallcnt => ⟨0x10000B8, 8, 1, .gath⟩
  | .engQstat => ⟨0x1008000, 8, 14, .die⟩
  | .tokCommit => ⟨0x1008070, 16, 1, .die⟩
  | .yrdTally => ⟨0x1008080, 8, 4, .die⟩
  | .yrdStat => ⟨0x10080A0, 8, 4, .die⟩
  | .yrdReg => ⟨0x10080C0, 8, 4, .die⟩
  | .memStackstat => ⟨0x10080E0, 8, 1, .die⟩
  | .memStackerr => ⟨0x10080E8, 8, 1, .die⟩
  | .updQstat => ⟨0x10080F0, 8, 1, .die⟩
  | .updNumstat => ⟨0x10080F8, 8, 1, .die⟩
  | .crzCfg => ⟨0x1008100, 8, 1, .die⟩
  | .crzStat => ⟨0x1008108, 8, 1, .die⟩
  | .fltDiestat => ⟨0x1008110, 8, 1, .die⟩
  | .tokEntry => ⟨0x1010000, 8, 4096, .die⟩

/-- Every register. -/
def Reg.all : List Reg :=
  [.hifMring, .hifXring, .hifWindow, .hifNvmctl, .hifCause, .orgIdent,
   .startStatus, .startPhaseend, .timeNow, .perCfg, .perStatus, .perCount,
   .budLimit, .budPower, .budStatus, .updStep, .mapJob, .colVerdict,
   .colFence, .colCfg, .memQos, .memLpcfg, .memLperr, .sclRecipe,
   .fltCfg, .fltStop, .fltRecover, .cfgPortctl, .irlLevel, .irlLinkstat,
   .irlCap, .secState, .secNonce, .secResult, .secChallenge, .secAttest,
   .secIdhash, .secIdkey, .torCoord, .torEdition, .torDrops, .torPstat,
   .congRecord, .congSweep, .torXentry, .ctxEntry, .evtHead, .evtCtl,
   .evtLost, .evtRate, .evtSlot, .monCfg, .monStat, .monHist,
   .gthCfg, .gthBeatmeter, .gthNumstat, .gthSeqstat, .gthDbgctl, .gthDbgsel,
   .gthDbgdata, .gthStalllog, .gthStallcnt, .engQstat, .tokCommit, .yrdTally,
   .yrdStat, .yrdReg, .memStackstat, .memStackerr, .updQstat, .updNumstat,
   .crzCfg, .crzStat, .fltDiestat, .tokEntry]

/-- The named fields of the registers. -/
inductive Field where
  | hifMring_base
  | hifMring_entries
  | hifMring_head
  | hifMring_enable
  | hifMring_slot
  | hifXring_base
  | hifXring_entries
  | hifXring_head
  | hifXring_enable
  | hifXring_slot
  | hifWindow_base
  | hifNvmctl_op
  | hifNvmctl_go
  | hifNvmctl_busy
  | hifNvmctl_result
  | hifNvmctl_offset
  | hifNvmctl_buf
  | hifNvmctl_length
  | hifCause_cause
  | hifCause_badAccess
  | hifCause_lostRecords
  | orgIdent_cdPresent
  | orgIdent_io1Joined
  | orgIdent_grade
  | orgIdent_cdJoined
  | startStatus_phase
  | startStatus_ready
  | startStatus_noImage
  | startStatus_noPlan
  | startStatus_degraded
  | startStatus_nvmSlow
  | startStatus_nvmFail
  | startStatus_lpddrReduced
  | startStatus_retireErase
  | startStatus_boot
  | startPhaseend_tEnd
  | timeNow_ns
  | perCfg_nominalUs
  | perCfg_catchupCap
  | perCfg_arrearsEvent
  | perStatus_arrears
  | perStatus_armed
  | perCount_period
  | budLimit_watts
  | budPower_watts
  | budStatus_state
  | budStatus_cause
  | budStatus_vcoreMv
  | budStatus_hotLogic
  | budStatus_hotStack
  | budStatus_unmanaged
  | updStep_step
  | updStep_cur
  | mapJob_logical
  | mapJob_replica
  | mapJob_schedule
  | mapJob_micro
  | colVerdict_nonfinite
  | colVerdict_skew
  | colVerdict_valid
  | colVerdict_stepMin
  | colVerdict_stepMax
  | colFence_mask
  | colCfg_lagThreshold
  | colCfg_stallUs
  | memQos_minC1
  | memQos_minC2
  | memQos_minC3
  | memLpcfg_populated
  | memLpcfg_used
  | memLpcfg_density
  | memLpcfg_rate
  | memLpcfg_ecc
  | memLpcfg_corrected
  | memLpcfg_uncorrectable
  | memLperr_addr
  | memLperr_valid
  | sclRecipe_weightExp
  | sclRecipe_actExp
  | sclRecipe_agradExp
  | sclRecipe_wgradExp
  | sclRecipe_momentExp
  | fltCfg_observeH
  | fltCfg_testMin
  | fltCfg_suspectLimit
  | fltCfg_spareLow
  | fltStop_stop
  | fltStop_stopped
  | fltStop_cause
  | fltRecover_dFence
  | fltRecover_logicalD
  | fltRecover_takeover
  | fltRecover_go
  | fltRecover_status
  | cfgPortctl_restart
  | cfgPortctl_busy
  | irlLevel_iraleMinor
  | irlLevel_isaLevel
  | irlLevel_updateLevel
  | irlLevel_rate
  | irlLevel_valid
  | irlLevel_features
  | irlLevel_numeric
  | irlLinkstat_state
  | irlLinkstat_repairing
  | irlLinkstat_sparesUsed
  | irlLinkstat_minLeft
  | irlLinkstat_parityErrs
  | irlLinkstat_replays
  | irlLinkstat_repairs
  | irlCap_word
  | secState_state
  | secState_lcCount
  | secState_keyGen
  | secState_svnMin
  | secState_image
  | secNonce_challenge
  | secResult_status
  | secResult_cmd
  | secResult_error
  | secResult_nonceTag
  | secChallenge_challenge
  | secAttest_addr
  | secAttest_go
  | secAttest_busy
  | secAttest_done
  | secIdhash_idHash
  | secIdkey_idkey
  | torCoord_coord
  | torCoord_extT
  | torCoord_extS
  | torCoord_extP
  | torCoord_extX
  | torCoord_extD
  | torCoord_guardEn
  | torEdition_current
  | torEdition_previous
  | torEdition_prevLive
  | torEdition_staged
  | torEdition_stageDone
  | torEdition_switch
  | torEdition_retire
  | torEdition_held
  | torEdition_arrivals
  | torDrops_edition
  | torDrops_epoch
  | torDrops_seq
  | torDrops_route
  | torDrops_op
  | torDrops_fenced
  | torPstat_state
  | torPstat_lanes
  | torPstat_laneMask
  | torPstat_finding
  | torPstat_peerCoord
  | torPstat_peerPort
  | torPstat_replays
  | congRecord_record
  | congSweep_collector
  | congSweep_every
  | congSweep_isCollector
  | congSweep_buffer
  | torXentry_match
  | torXentry_mask
  | torXentry_restOwn
  | torXentry_port
  | torXentry_vcsel
  | torXentry_valid
  | ctxEntry_open
  | ctxEntry_kind
  | ctxEntry_fault
  | ctxEntry_peer
  | ctxEntry_openEdition
  | ctxEntry_epoch
  | ctxEntry_txSeq
  | ctxEntry_rxSeq
  | ctxEntry_credits
  | evtHead_headSeq
  | evtHead_changes
  | evtCtl_minSev
  | evtLost_debug
  | evtLost_info
  | evtLost_warning
  | evtLost_error
  | evtLost_fatal
  | evtLost_rate
  | evtLost_persist
  | evtRate_rate
  | evtRate_burst
  | evtSlot_seq
  | evtSlot_severity
  | evtSlot_srcDie
  | evtSlot_srcUnit
  | evtSlot_time
  | evtSlot_code
  | evtSlot_repeat
  | evtSlot_step
  | evtSlot_arg0
  | evtSlot_arg1
  | evtSlot_arg2
  | evtSlot_arg3
  | evtSlot_lastUs
  | evtSlot_boot
  | evtSlot_valid
  | monCfg_source
  | monCfg_select
  | monCfg_base
  | monCfg_window
  | monStat_min
  | monStat_max
  | monStat_count
  | monStat_windowNo
  | monHist_bins
  | gthCfg_config
  | gthCfg_shape
  | gthCfg_buck
  | gthCfg_debug
  | gthBeatmeter_rate
  | gthBeatmeter_minRate
  | gthNumstat_invalid
  | gthNumstat_divzero
  | gthNumstat_overflow
  | gthNumstat_underflow
  | gthNumstat_inexact
  | gthNumstat_saturated
  | gthNumstat_flushed
  | gthNumstat_nanBlock
  | gthNumstat_ftz
  | gthNumstat_conforming
  | gthSeqstat_ip
  | gthSeqstat_running
  | gthSeqstat_waiting
  | gthSeqstat_halted
  | gthSeqstat_hazard
  | gthSeqstat_hazardIp
  | gthSeqstat_hazardRes
  | gthSeqstat_stop
  | gthSeqstat_hazards
  | gthDbgctl_enable
  | gthDbgctl_haltReq
  | gthDbgctl_step
  | gthDbgctl_resume
  | gthDbgctl_breakEn
  | gthDbgctl_clearLog
  | gthDbgctl_breakIp
  | gthDbgsel_row
  | gthDbgsel_col
  | gthDbgsel_face
  | gthDbgsel_slice
  | gthDbgsel_reg
  | gthDbgsel_elem
  | gthDbgdata_value
  | gthStalllog_ip
  | gthStalllog_res
  | gthStalllog_valid
  | gthStalllog_beats
  | gthStallcnt_stalls
  | engQstat_depth
  | engQstat_running
  | engQstat_tokwait
  | engQstat_commitwait
  | engQstat_headToken
  | engQstat_headList
  | tokCommit_closed
  | tokCommit_committed
  | tokCommit_ahead
  | yrdTally_amax
  | yrdTally_nonfinite
  | yrdTally_valid
  | yrdTally_listId
  | yrdStat_running
  | yrdStat_pending
  | yrdStat_regwait
  | yrdStat_granules
  | yrdReg_rate
  | yrdReg_depth
  | memStackstat_corrected
  | memStackstat_uncorrectable
  | memStackstat_sparesUsed
  | memStackstat_worstFree
  | memStackstat_refresh2x
  | memStackerr_addr
  | memStackerr_valid
  | updQstat_queued
  | updQstat_held
  | updQstat_applied
  | updNumstat_flags
  | crzCfg_prob
  | crzCfg_threshold
  | crzStat_samples
  | crzStat_missed
  | crzStat_mismatches
  | crzStat_worst
  | fltDiestat_sparesFree
  | fltDiestat_suspect
  | fltDiestat_retired
  | fltDiestat_failed
  | fltDiestat_mismatches
  | fltDiestat_boundaries
  | tokEntry_value
  | tokEntry_ovf
  deriving DecidableEq, Repr

/-- One field: its register, lowest bit, width, access code and Reset value. Where the Reset column names a source
(fuses, the plan, the fault history, a random value) the number here is 0 and the state's own view supplies it. -/
structure FieldInfo where
  reg : Reg
  lo : Nat
  width : Nat
  acc : Acc
  reset : Nat
  deriving DecidableEq, Repr

/-- The field maps. -/
def Field.info : Field → FieldInfo
  | .hifMring_base => ⟨.hifMring, 0, 64, .rw, 0⟩
  | .hifMring_entries => ⟨.hifMring, 64, 16, .rw, 0⟩
  | .hifMring_head => ⟨.hifMring, 80, 16, .ro, 0⟩
  | .hifMring_enable => ⟨.hifMring, 96, 1, .rw, 0⟩
  | .hifMring_slot => ⟨.hifMring, 112, 16, .ro, 0⟩
  | .hifXring_base => ⟨.hifXring, 0, 64, .rw, 0⟩
  | .hifXring_entries => ⟨.hifXring, 64, 16, .rw, 0⟩
  | .hifXring_head => ⟨.hifXring, 80, 16, .ro, 0⟩
  | .hifXring_enable => ⟨.hifXring, 96, 1, .rw, 0⟩
  | .hifXring_slot => ⟨.hifXring, 112, 16, .ro, 0⟩
  | .hifWindow_base => ⟨.hifWindow, 0, 12, .rw, 0⟩
  | .hifNvmctl_op => ⟨.hifNvmctl, 0, 2, .rw, 0⟩
  | .hifNvmctl_go => ⟨.hifNvmctl, 2, 1, .wo, 0⟩
  | .hifNvmctl_busy => ⟨.hifNvmctl, 3, 1, .ro, 0⟩
  | .hifNvmctl_result => ⟨.hifNvmctl, 4, 3, .ro, 0⟩
  | .hifNvmctl_offset => ⟨.hifNvmctl, 32, 27, .rw, 0⟩
  | .hifNvmctl_buf => ⟨.hifNvmctl, 64, 44, .rw, 0⟩
  | .hifNvmctl_length => ⟨.hifNvmctl, 112, 16, .rw, 0⟩
  | .hifCause_cause => ⟨.hifCause, 0, 9, .w1c, 0⟩
  | .hifCause_badAccess => ⟨.hifCause, 32, 16, .rc, 0⟩
  | .hifCause_lostRecords => ⟨.hifCause, 48, 16, .rc, 0⟩
  | .orgIdent_cdPresent => ⟨.orgIdent, 0, 8, .ro, 0⟩
  | .orgIdent_io1Joined => ⟨.orgIdent, 8, 1, .ro, 0⟩
  | .orgIdent_grade => ⟨.orgIdent, 12, 4, .ro, 0⟩
  | .orgIdent_cdJoined => ⟨.orgIdent, 16, 8, .ro, 0⟩
  | .startStatus_phase => ⟨.startStatus, 0, 3, .ro, 1⟩
  | .startStatus_ready => ⟨.startStatus, 3, 1, .ro, 0⟩
  | .startStatus_noImage => ⟨.startStatus, 4, 1, .ro, 0⟩
  | .startStatus_noPlan => ⟨.startStatus, 5, 1, .ro, 0⟩
  | .startStatus_degraded => ⟨.startStatus, 6, 1, .ro, 0⟩
  | .startStatus_nvmSlow => ⟨.startStatus, 7, 1, .ro, 0⟩
  | .startStatus_nvmFail => ⟨.startStatus, 8, 1, .ro, 0⟩
  | .startStatus_lpddrReduced => ⟨.startStatus, 9, 1, .ro, 0⟩
  | .startStatus_retireErase => ⟨.startStatus, 10, 1, .ro, 0⟩
  | .startStatus_boot => ⟨.startStatus, 32, 32, .ro, 0⟩
  | .startPhaseend_tEnd => ⟨.startPhaseend, 0, 64, .ro, 0⟩
  | .timeNow_ns => ⟨.timeNow, 0, 64, .ro, 0⟩
  | .perCfg_nominalUs => ⟨.perCfg, 0, 24, .ro, 0⟩
  | .perCfg_catchupCap => ⟨.perCfg, 24, 6, .ro, 8⟩
  | .perCfg_arrearsEvent => ⟨.perCfg, 32, 8, .ro, 4⟩
  | .perStatus_arrears => ⟨.perStatus, 0, 40, .ro, 0⟩
  | .perStatus_armed => ⟨.perStatus, 40, 1, .ro, 1⟩
  | .perCount_period => ⟨.perCount, 0, 64, .ro, 0⟩
  | .budLimit_watts => ⟨.budLimit, 0, 12, .rw, 2000⟩
  | .budPower_watts => ⟨.budPower, 0, 16, .ro, 0⟩
  | .budStatus_state => ⟨.budStatus, 0, 2, .ro, 0⟩
  | .budStatus_cause => ⟨.budStatus, 2, 2, .ro, 0⟩
  | .budStatus_vcoreMv => ⟨.budStatus, 4, 12, .ro, 700⟩
  | .budStatus_hotLogic => ⟨.budStatus, 16, 8, .ro, 0⟩
  | .budStatus_hotStack => ⟨.budStatus, 24, 8, .ro, 0⟩
  | .budStatus_unmanaged => ⟨.budStatus, 32, 1, .ro, 0⟩
  | .updStep_step => ⟨.updStep, 0, 32, .ro, 0⟩
  | .updStep_cur => ⟨.updStep, 32, 1, .ro, 0⟩
  | .mapJob_logical => ⟨.mapJob, 0, 17, .ro, 0⟩
  | .mapJob_replica => ⟨.mapJob, 17, 5, .ro, 0⟩
  | .mapJob_schedule => ⟨.mapJob, 22, 2, .ro, 0⟩
  | .mapJob_micro => ⟨.mapJob, 24, 16, .ro, 0⟩
  | .colVerdict_nonfinite => ⟨.colVerdict, 0, 1, .ro, 0⟩
  | .colVerdict_skew => ⟨.colVerdict, 1, 1, .ro, 0⟩
  | .colVerdict_valid => ⟨.colVerdict, 2, 1, .ro, 0⟩
  | .colVerdict_stepMin => ⟨.colVerdict, 32, 32, .ro, 0⟩
  | .colVerdict_stepMax => ⟨.colVerdict, 64, 32, .ro, 0⟩
  | .colFence_mask => ⟨.colFence, 0, 32, .ro, 0⟩
  | .colCfg_lagThreshold => ⟨.colCfg, 0, 32, .rw, 100000⟩
  | .colCfg_stallUs => ⟨.colCfg, 32, 24, .rw, 0⟩
  | .memQos_minC1 => ⟨.memQos, 0, 8, .rw, 64⟩
  | .memQos_minC2 => ⟨.memQos, 8, 8, .rw, 32⟩
  | .memQos_minC3 => ⟨.memQos, 16, 8, .rw, 8⟩
  | .memLpcfg_populated => ⟨.memLpcfg, 0, 8, .ro, 0⟩
  | .memLpcfg_used => ⟨.memLpcfg, 8, 8, .ro, 0⟩
  | .memLpcfg_density => ⟨.memLpcfg, 16, 3, .ro, 0⟩
  | .memLpcfg_rate => ⟨.memLpcfg, 19, 2, .ro, 0⟩
  | .memLpcfg_ecc => ⟨.memLpcfg, 21, 1, .ro, 0⟩
  | .memLpcfg_corrected => ⟨.memLpcfg, 32, 16, .rc, 0⟩
  | .memLpcfg_uncorrectable => ⟨.memLpcfg, 48, 8, .rc, 0⟩
  | .memLperr_addr => ⟨.memLperr, 0, 44, .ro, 0⟩
  | .memLperr_valid => ⟨.memLperr, 63, 1, .w1c, 0⟩
  | .sclRecipe_weightExp => ⟨.sclRecipe, 0, 8, .ro, 0⟩
  | .sclRecipe_actExp => ⟨.sclRecipe, 8, 8, .ro, 0⟩
  | .sclRecipe_agradExp => ⟨.sclRecipe, 16, 8, .ro, 0⟩
  | .sclRecipe_wgradExp => ⟨.sclRecipe, 24, 8, .ro, 0⟩
  | .sclRecipe_momentExp => ⟨.sclRecipe, 32, 8, .ro, 0⟩
  | .fltCfg_observeH => ⟨.fltCfg, 0, 16, .rw, 168⟩
  | .fltCfg_testMin => ⟨.fltCfg, 16, 11, .rw, 15⟩
  | .fltCfg_suspectLimit => ⟨.fltCfg, 27, 4, .rw, 3⟩
  | .fltCfg_spareLow => ⟨.fltCfg, 31, 5, .rw, 2⟩
  | .fltStop_stop => ⟨.fltStop, 0, 1, .wo, 0⟩
  | .fltStop_stopped => ⟨.fltStop, 1, 1, .ro, 0⟩
  | .fltStop_cause => ⟨.fltStop, 8, 2, .ro, 0⟩
  | .fltRecover_dFence => ⟨.fltRecover, 0, 32, .rw, 0⟩
  | .fltRecover_logicalD => ⟨.fltRecover, 32, 5, .rw, 0⟩
  | .fltRecover_takeover => ⟨.fltRecover, 37, 1, .rw, 0⟩
  | .fltRecover_go => ⟨.fltRecover, 38, 1, .wo, 0⟩
  | .fltRecover_status => ⟨.fltRecover, 40, 3, .ro, 0⟩
  | .cfgPortctl_restart => ⟨.cfgPortctl, 0, 12, .wo, 0⟩
  | .cfgPortctl_busy => ⟨.cfgPortctl, 12, 12, .ro, 0⟩
  | .irlLevel_iraleMinor => ⟨.irlLevel, 0, 8, .ro, 0⟩
  | .irlLevel_isaLevel => ⟨.irlLevel, 8, 8, .ro, 0⟩
  | .irlLevel_updateLevel => ⟨.irlLevel, 16, 8, .ro, 0⟩
  | .irlLevel_rate => ⟨.irlLevel, 24, 4, .ro, 0⟩
  | .irlLevel_valid => ⟨.irlLevel, 28, 1, .ro, 0⟩
  | .irlLevel_features => ⟨.irlLevel, 32, 13, .ro, 0⟩
  | .irlLevel_numeric => ⟨.irlLevel, 48, 14, .ro, 0⟩
  | .irlLinkstat_state => ⟨.irlLinkstat, 0, 2, .ro, 0⟩
  | .irlLinkstat_repairing => ⟨.irlLinkstat, 2, 1, .ro, 0⟩
  | .irlLinkstat_sparesUsed => ⟨.irlLinkstat, 3, 8, .ro, 0⟩
  | .irlLinkstat_minLeft => ⟨.irlLinkstat, 11, 2, .ro, 0⟩
  | .irlLinkstat_parityErrs => ⟨.irlLinkstat, 16, 16, .rc, 0⟩
  | .irlLinkstat_replays => ⟨.irlLinkstat, 32, 16, .rc, 0⟩
  | .irlLinkstat_repairs => ⟨.irlLinkstat, 48, 8, .rc, 0⟩
  | .irlCap_word => ⟨.irlCap, 0, 32, .ro, 0⟩
  | .secState_state => ⟨.secState, 0, 3, .ro, 0⟩
  | .secState_lcCount => ⟨.secState, 8, 8, .ro, 0⟩
  | .secState_keyGen => ⟨.secState, 16, 6, .ro, 0⟩
  | .secState_svnMin => ⟨.secState, 24, 7, .ro, 0⟩
  | .secState_image => ⟨.secState, 32, 2, .ro, 0⟩
  | .secNonce_challenge => ⟨.secNonce, 0, 128, .ro, 0⟩
  | .secResult_status => ⟨.secResult, 0, 8, .ro, 0⟩
  | .secResult_cmd => ⟨.secResult, 8, 8, .ro, 0⟩
  | .secResult_error => ⟨.secResult, 16, 16, .ro, 0⟩
  | .secResult_nonceTag => ⟨.secResult, 32, 32, .ro, 0⟩
  | .secChallenge_challenge => ⟨.secChallenge, 0, 256, .rw, 0⟩
  | .secAttest_addr => ⟨.secAttest, 0, 48, .rw, 0⟩
  | .secAttest_go => ⟨.secAttest, 48, 1, .wo, 0⟩
  | .secAttest_busy => ⟨.secAttest, 49, 1, .ro, 0⟩
  | .secAttest_done => ⟨.secAttest, 50, 1, .ro, 0⟩
  | .secIdhash_idHash => ⟨.secIdhash, 0, 256, .ro, 0⟩
  | .secIdkey_idkey => ⟨.secIdkey, 0, 384, .ro, 0⟩
  | .torCoord_coord => ⟨.torCoord, 0, 17, .ro, 0⟩
  | .torCoord_extT => ⟨.torCoord, 17, 3, .ro, 0⟩
  | .torCoord_extS => ⟨.torCoord, 20, 4, .ro, 0⟩
  | .torCoord_extP => ⟨.torCoord, 24, 4, .ro, 0⟩
  | .torCoord_extX => ⟨.torCoord, 28, 5, .ro, 0⟩
  | .torCoord_extD => ⟨.torCoord, 33, 6, .ro, 0⟩
  | .torCoord_guardEn => ⟨.torCoord, 39, 1, .ro, 0⟩
  | .torEdition_current => ⟨.torEdition, 0, 2, .ro, 0⟩
  | .torEdition_previous => ⟨.torEdition, 2, 2, .ro, 3⟩
  | .torEdition_prevLive => ⟨.torEdition, 4, 1, .ro, 0⟩
  | .torEdition_staged => ⟨.torEdition, 5, 1, .ro, 0⟩
  | .torEdition_stageDone => ⟨.torEdition, 6, 1, .wo, 0⟩
  | .torEdition_switch => ⟨.torEdition, 7, 1, .wo, 0⟩
  | .torEdition_retire => ⟨.torEdition, 8, 1, .wo, 0⟩
  | .torEdition_held => ⟨.torEdition, 24, 16, .ro, 0⟩
  | .torEdition_arrivals => ⟨.torEdition, 40, 16, .rc, 0⟩
  | .torDrops_edition => ⟨.torDrops, 0, 16, .rc, 0⟩
  | .torDrops_epoch => ⟨.torDrops, 16, 16, .rc, 0⟩
  | .torDrops_seq => ⟨.torDrops, 32, 16, .rc, 0⟩
  | .torDrops_route => ⟨.torDrops, 48, 16, .rc, 0⟩
  | .torDrops_op => ⟨.torDrops, 64, 16, .rc, 0⟩
  | .torDrops_fenced => ⟨.torDrops, 80, 16, .rc, 0⟩
  | .torPstat_state => ⟨.torPstat, 0, 3, .ro, 0⟩
  | .torPstat_lanes => ⟨.torPstat, 3, 3, .ro, 0⟩
  | .torPstat_laneMask => ⟨.torPstat, 6, 4, .ro, 0⟩
  | .torPstat_finding => ⟨.torPstat, 10, 3, .ro, 5⟩
  | .torPstat_peerCoord => ⟨.torPstat, 13, 17, .ro, 0⟩
  | .torPstat_peerPort => ⟨.torPstat, 30, 4, .ro, 0⟩
  | .torPstat_replays => ⟨.torPstat, 48, 16, .rc, 0⟩
  | .congRecord_record => ⟨.congRecord, 0, 512, .ro, 0⟩
  | .congSweep_collector => ⟨.congSweep, 0, 17, .rw, 0⟩
  | .congSweep_every => ⟨.congSweep, 17, 8, .rw, 0⟩
  | .congSweep_isCollector => ⟨.congSweep, 25, 1, .rw, 0⟩
  | .congSweep_buffer => ⟨.congSweep, 64, 44, .rw, 0⟩
  | .torXentry_match => ⟨.torXentry, 0, 17, .rw, 0⟩
  | .torXentry_mask => ⟨.torXentry, 17, 17, .rw, 0⟩
  | .torXentry_restOwn => ⟨.torXentry, 34, 1, .rw, 0⟩
  | .torXentry_port => ⟨.torXentry, 35, 4, .rw, 0⟩
  | .torXentry_vcsel => ⟨.torXentry, 39, 2, .rw, 0⟩
  | .torXentry_valid => ⟨.torXentry, 41, 1, .rw, 0⟩
  | .ctxEntry_open => ⟨.ctxEntry, 0, 1, .ro, 0⟩
  | .ctxEntry_kind => ⟨.ctxEntry, 1, 2, .ro, 0⟩
  | .ctxEntry_fault => ⟨.ctxEntry, 3, 1, .w1c, 0⟩
  | .ctxEntry_peer => ⟨.ctxEntry, 4, 17, .ro, 0⟩
  | .ctxEntry_openEdition => ⟨.ctxEntry, 21, 2, .ro, 0⟩
  | .ctxEntry_epoch => ⟨.ctxEntry, 32, 16, .ro, 0⟩
  | .ctxEntry_txSeq => ⟨.ctxEntry, 48, 12, .ro, 0⟩
  | .ctxEntry_rxSeq => ⟨.ctxEntry, 64, 12, .ro, 0⟩
  | .ctxEntry_credits => ⟨.ctxEntry, 76, 12, .ro, 0⟩
  | .evtHead_headSeq => ⟨.evtHead, 0, 48, .ro, 0⟩
  | .evtHead_changes => ⟨.evtHead, 48, 16, .ro, 0⟩
  | .evtCtl_minSev => ⟨.evtCtl, 0, 3, .rw, 1⟩
  | .evtLost_debug => ⟨.evtLost, 0, 16, .rc, 0⟩
  | .evtLost_info => ⟨.evtLost, 16, 16, .rc, 0⟩
  | .evtLost_warning => ⟨.evtLost, 32, 16, .rc, 0⟩
  | .evtLost_error => ⟨.evtLost, 48, 16, .rc, 0⟩
  | .evtLost_fatal => ⟨.evtLost, 64, 16, .rc, 0⟩
  | .evtLost_rate => ⟨.evtLost, 80, 16, .rc, 0⟩
  | .evtLost_persist => ⟨.evtLost, 96, 16, .rc, 0⟩
  | .evtRate_rate => ⟨.evtRate, 0, 16, .ro, 100⟩
  | .evtRate_burst => ⟨.evtRate, 16, 16, .ro, 64⟩
  | .evtSlot_seq => ⟨.evtSlot, 0, 48, .ro, 0⟩
  | .evtSlot_severity => ⟨.evtSlot, 48, 3, .ro, 0⟩
  | .evtSlot_srcDie => ⟨.evtSlot, 52, 4, .ro, 0⟩
  | .evtSlot_srcUnit => ⟨.evtSlot, 56, 8, .ro, 0⟩
  | .evtSlot_time => ⟨.evtSlot, 64, 64, .ro, 0⟩
  | .evtSlot_code => ⟨.evtSlot, 128, 16, .ro, 0⟩
  | .evtSlot_repeat => ⟨.evtSlot, 144, 16, .ro, 0⟩
  | .evtSlot_step => ⟨.evtSlot, 160, 32, .ro, 0⟩
  | .evtSlot_arg0 => ⟨.evtSlot, 192, 64, .ro, 0⟩
  | .evtSlot_arg1 => ⟨.evtSlot, 256, 64, .ro, 0⟩
  | .evtSlot_arg2 => ⟨.evtSlot, 320, 64, .ro, 0⟩
  | .evtSlot_arg3 => ⟨.evtSlot, 384, 64, .ro, 0⟩
  | .evtSlot_lastUs => ⟨.evtSlot, 448, 32, .ro, 0⟩
  | .evtSlot_boot => ⟨.evtSlot, 480, 24, .ro, 0⟩
  | .evtSlot_valid => ⟨.evtSlot, 504, 8, .ro, 0⟩
  | .monCfg_source => ⟨.monCfg, 0, 4, .rw, 0⟩
  | .monCfg_select => ⟨.monCfg, 8, 8, .rw, 0⟩
  | .monCfg_base => ⟨.monCfg, 16, 8, .rw, 0⟩
  | .monCfg_window => ⟨.monCfg, 24, 16, .rw, 1⟩
  | .monStat_min => ⟨.monStat, 0, 32, .ro, 0⟩
  | .monStat_max => ⟨.monStat, 32, 32, .ro, 0⟩
  | .monStat_count => ⟨.monStat, 64, 32, .ro, 0⟩
  | .monStat_windowNo => ⟨.monStat, 96, 16, .ro, 0⟩
  | .monHist_bins => ⟨.monHist, 0, 1024, .ro, 0⟩
  | .gthCfg_config => ⟨.gthCfg, 0, 2, .ro, 0⟩
  | .gthCfg_shape => ⟨.gthCfg, 4, 4, .ro, 0⟩
  | .gthCfg_buck => ⟨.gthCfg, 8, 11, .ro, 64⟩
  | .gthCfg_debug => ⟨.gthCfg, 19, 1, .ro, 0⟩
  | .gthBeatmeter_rate => ⟨.gthBeatmeter, 0, 12, .ro, 0⟩
  | .gthBeatmeter_minRate => ⟨.gthBeatmeter, 12, 12, .rc, 4095⟩
  | .gthNumstat_invalid => ⟨.gthNumstat, 0, 1, .w1c, 0⟩
  | .gthNumstat_divzero => ⟨.gthNumstat, 1, 1, .w1c, 0⟩
  | .gthNumstat_overflow => ⟨.gthNumstat, 2, 1, .w1c, 0⟩
  | .gthNumstat_underflow => ⟨.gthNumstat, 3, 1, .w1c, 0⟩
  | .gthNumstat_inexact => ⟨.gthNumstat, 4, 1, .w1c, 0⟩
  | .gthNumstat_saturated => ⟨.gthNumstat, 5, 1, .w1c, 0⟩
  | .gthNumstat_flushed => ⟨.gthNumstat, 6, 1, .w1c, 0⟩
  | .gthNumstat_nanBlock => ⟨.gthNumstat, 7, 1, .w1c, 0⟩
  | .gthNumstat_ftz => ⟨.gthNumstat, 16, 1, .ro, 0⟩
  | .gthNumstat_conforming => ⟨.gthNumstat, 17, 1, .ro, 1⟩
  | .gthSeqstat_ip => ⟨.gthSeqstat, 0, 12, .ro, 0⟩
  | .gthSeqstat_running => ⟨.gthSeqstat, 12, 1, .ro, 0⟩
  | .gthSeqstat_waiting => ⟨.gthSeqstat, 13, 1, .ro, 0⟩
  | .gthSeqstat_halted => ⟨.gthSeqstat, 14, 1, .ro, 0⟩
  | .gthSeqstat_hazard => ⟨.gthSeqstat, 15, 1, .w1c, 0⟩
  | .gthSeqstat_hazardIp => ⟨.gthSeqstat, 16, 12, .ro, 0⟩
  | .gthSeqstat_hazardRes => ⟨.gthSeqstat, 28, 3, .ro, 0⟩
  | .gthSeqstat_stop => ⟨.gthSeqstat, 32, 4, .ro, 0⟩
  | .gthSeqstat_hazards => ⟨.gthSeqstat, 36, 16, .rc, 0⟩
  | .gthDbgctl_enable => ⟨.gthDbgctl, 0, 1, .rw, 0⟩
  | .gthDbgctl_haltReq => ⟨.gthDbgctl, 1, 1, .wo, 0⟩
  | .gthDbgctl_step => ⟨.gthDbgctl, 2, 1, .wo, 0⟩
  | .gthDbgctl_resume => ⟨.gthDbgctl, 3, 1, .wo, 0⟩
  | .gthDbgctl_breakEn => ⟨.gthDbgctl, 4, 1, .rw, 0⟩
  | .gthDbgctl_clearLog => ⟨.gthDbgctl, 5, 1, .wo, 0⟩
  | .gthDbgctl_breakIp => ⟨.gthDbgctl, 16, 12, .rw, 0⟩
  | .gthDbgsel_row => ⟨.gthDbgsel, 0, 10, .rw, 0⟩
  | .gthDbgsel_col => ⟨.gthDbgsel, 10, 10, .rw, 0⟩
  | .gthDbgsel_face => ⟨.gthDbgsel, 20, 2, .rw, 0⟩
  | .gthDbgsel_slice => ⟨.gthDbgsel, 22, 5, .rw, 0⟩
  | .gthDbgsel_reg => ⟨.gthDbgsel, 27, 3, .rw, 0⟩
  | .gthDbgsel_elem => ⟨.gthDbgsel, 32, 3, .rw, 0⟩
  | .gthDbgdata_value => ⟨.gthDbgdata, 0, 64, .ro, 0⟩
  | .gthStalllog_ip => ⟨.gthStalllog, 0, 12, .ro, 0⟩
  | .gthStalllog_res => ⟨.gthStalllog, 12, 3, .ro, 0⟩
  | .gthStalllog_valid => ⟨.gthStalllog, 15, 1, .ro, 0⟩
  | .gthStalllog_beats => ⟨.gthStalllog, 16, 24, .ro, 0⟩
  | .gthStallcnt_stalls => ⟨.gthStallcnt, 0, 32, .rc, 0⟩
  | .engQstat_depth => ⟨.engQstat, 0, 9, .ro, 0⟩
  | .engQstat_running => ⟨.engQstat, 9, 5, .ro, 0⟩
  | .engQstat_tokwait => ⟨.engQstat, 14, 1, .ro, 0⟩
  | .engQstat_commitwait => ⟨.engQstat, 15, 1, .ro, 0⟩
  | .engQstat_headToken => ⟨.engQstat, 16, 12, .ro, 0⟩
  | .engQstat_headList => ⟨.engQstat, 28, 16, .ro, 0⟩
  | .tokCommit_closed => ⟨.tokCommit, 0, 32, .ro, 0⟩
  | .tokCommit_committed => ⟨.tokCommit, 32, 32, .ro, 0⟩
  | .tokCommit_ahead => ⟨.tokCommit, 64, 1, .ro, 0⟩
  | .yrdTally_amax => ⟨.yrdTally, 0, 32, .ro, 0⟩
  | .yrdTally_nonfinite => ⟨.yrdTally, 32, 1, .ro, 0⟩
  | .yrdTally_valid => ⟨.yrdTally, 33, 1, .ro, 0⟩
  | .yrdTally_listId => ⟨.yrdTally, 48, 16, .ro, 0⟩
  | .yrdStat_running => ⟨.yrdStat, 0, 4, .ro, 0⟩
  | .yrdStat_pending => ⟨.yrdStat, 4, 4, .ro, 0⟩
  | .yrdStat_regwait => ⟨.yrdStat, 8, 1, .ro, 0⟩
  | .yrdStat_granules => ⟨.yrdStat, 32, 32, .rc, 0⟩
  | .yrdReg_rate => ⟨.yrdReg, 0, 24, .rw, 0⟩
  | .yrdReg_depth => ⟨.yrdReg, 24, 24, .rw, 16777152⟩
  | .memStackstat_corrected => ⟨.memStackstat, 0, 16, .rc, 0⟩
  | .memStackstat_uncorrectable => ⟨.memStackstat, 16, 8, .rc, 0⟩
  | .memStackstat_sparesUsed => ⟨.memStackstat, 32, 18, .ro, 0⟩
  | .memStackstat_worstFree => ⟨.memStackstat, 50, 6, .ro, 32⟩
  | .memStackstat_refresh2x => ⟨.memStackstat, 56, 1, .ro, 0⟩
  | .memStackerr_addr => ⟨.memStackerr, 0, 44, .ro, 0⟩
  | .memStackerr_valid => ⟨.memStackerr, 63, 1, .w1c, 0⟩
  | .updQstat_queued => ⟨.updQstat, 0, 16, .ro, 0⟩
  | .updQstat_held => ⟨.updQstat, 16, 1, .ro, 0⟩
  | .updQstat_applied => ⟨.updQstat, 32, 32, .rc, 0⟩
  | .updNumstat_flags => ⟨.updNumstat, 0, 8, .w1c, 0⟩
  | .crzCfg_prob => ⟨.crzCfg, 0, 16, .rw, 0⟩
  | .crzCfg_threshold => ⟨.crzCfg, 16, 6, .rw, 10⟩
  | .crzStat_samples => ⟨.crzStat, 0, 32, .rc, 0⟩
  | .crzStat_missed => ⟨.crzStat, 32, 16, .rc, 0⟩
  | .crzStat_mismatches => ⟨.crzStat, 48, 8, .rc, 0⟩
  | .crzStat_worst => ⟨.crzStat, 56, 8, .rc, 0⟩
  | .fltDiestat_sparesFree => ⟨.fltDiestat, 0, 5, .ro, 16⟩
  | .fltDiestat_suspect => ⟨.fltDiestat, 5, 5, .ro, 0⟩
  | .fltDiestat_retired => ⟨.fltDiestat, 10, 5, .ro, 0⟩
  | .fltDiestat_failed => ⟨.fltDiestat, 15, 1, .ro, 0⟩
  | .fltDiestat_mismatches => ⟨.fltDiestat, 32, 16, .rc, 0⟩
  | .fltDiestat_boundaries => ⟨.fltDiestat, 48, 16, .rc, 0⟩
  | .tokEntry_value => ⟨.tokEntry, 0, 20, .ro, 0⟩
  | .tokEntry_ovf => ⟨.tokEntry, 20, 1, .w1c, 0⟩

/-- The fields of a register, lowest bit first. -/
def Reg.fields : Reg → List Field
  | .hifMring => [.hifMring_base, .hifMring_entries, .hifMring_head, .hifMring_enable,
      .hifMring_slot]
  | .hifXring => [.hifXring_base, .hifXring_entries, .hifXring_head, .hifXring_enable,
      .hifXring_slot]
  | .hifWindow => [.hifWindow_base]
  | .hifNvmctl => [.hifNvmctl_op, .hifNvmctl_go, .hifNvmctl_busy, .hifNvmctl_result,
      .hifNvmctl_offset, .hifNvmctl_buf, .hifNvmctl_length]
  | .hifCause => [.hifCause_cause, .hifCause_badAccess, .hifCause_lostRecords]
  | .orgIdent => [.orgIdent_cdPresent, .orgIdent_io1Joined, .orgIdent_grade, .orgIdent_cdJoined]
  | .startStatus => [.startStatus_phase, .startStatus_ready, .startStatus_noImage, .startStatus_noPlan,
      .startStatus_degraded, .startStatus_nvmSlow, .startStatus_nvmFail, .startStatus_lpddrReduced,
      .startStatus_retireErase, .startStatus_boot]
  | .startPhaseend => [.startPhaseend_tEnd]
  | .timeNow => [.timeNow_ns]
  | .perCfg => [.perCfg_nominalUs, .perCfg_catchupCap, .perCfg_arrearsEvent]
  | .perStatus => [.perStatus_arrears, .perStatus_armed]
  | .perCount => [.perCount_period]
  | .budLimit => [.budLimit_watts]
  | .budPower => [.budPower_watts]
  | .budStatus => [.budStatus_state, .budStatus_cause, .budStatus_vcoreMv, .budStatus_hotLogic,
      .budStatus_hotStack, .budStatus_unmanaged]
  | .updStep => [.updStep_step, .updStep_cur]
  | .mapJob => [.mapJob_logical, .mapJob_replica, .mapJob_schedule, .mapJob_micro]
  | .colVerdict => [.colVerdict_nonfinite, .colVerdict_skew, .colVerdict_valid, .colVerdict_stepMin,
      .colVerdict_stepMax]
  | .colFence => [.colFence_mask]
  | .colCfg => [.colCfg_lagThreshold, .colCfg_stallUs]
  | .memQos => [.memQos_minC1, .memQos_minC2, .memQos_minC3]
  | .memLpcfg => [.memLpcfg_populated, .memLpcfg_used, .memLpcfg_density, .memLpcfg_rate,
      .memLpcfg_ecc, .memLpcfg_corrected, .memLpcfg_uncorrectable]
  | .memLperr => [.memLperr_addr, .memLperr_valid]
  | .sclRecipe => [.sclRecipe_weightExp, .sclRecipe_actExp, .sclRecipe_agradExp, .sclRecipe_wgradExp,
      .sclRecipe_momentExp]
  | .fltCfg => [.fltCfg_observeH, .fltCfg_testMin, .fltCfg_suspectLimit, .fltCfg_spareLow]
  | .fltStop => [.fltStop_stop, .fltStop_stopped, .fltStop_cause]
  | .fltRecover => [.fltRecover_dFence, .fltRecover_logicalD, .fltRecover_takeover, .fltRecover_go,
      .fltRecover_status]
  | .cfgPortctl => [.cfgPortctl_restart, .cfgPortctl_busy]
  | .irlLevel => [.irlLevel_iraleMinor, .irlLevel_isaLevel, .irlLevel_updateLevel, .irlLevel_rate,
      .irlLevel_valid, .irlLevel_features, .irlLevel_numeric]
  | .irlLinkstat => [.irlLinkstat_state, .irlLinkstat_repairing, .irlLinkstat_sparesUsed, .irlLinkstat_minLeft,
      .irlLinkstat_parityErrs, .irlLinkstat_replays, .irlLinkstat_repairs]
  | .irlCap => [.irlCap_word]
  | .secState => [.secState_state, .secState_lcCount, .secState_keyGen, .secState_svnMin,
      .secState_image]
  | .secNonce => [.secNonce_challenge]
  | .secResult => [.secResult_status, .secResult_cmd, .secResult_error, .secResult_nonceTag]
  | .secChallenge => [.secChallenge_challenge]
  | .secAttest => [.secAttest_addr, .secAttest_go, .secAttest_busy, .secAttest_done]
  | .secIdhash => [.secIdhash_idHash]
  | .secIdkey => [.secIdkey_idkey]
  | .torCoord => [.torCoord_coord, .torCoord_extT, .torCoord_extS, .torCoord_extP,
      .torCoord_extX, .torCoord_extD, .torCoord_guardEn]
  | .torEdition => [.torEdition_current, .torEdition_previous, .torEdition_prevLive, .torEdition_staged,
      .torEdition_stageDone, .torEdition_switch, .torEdition_retire, .torEdition_held,
      .torEdition_arrivals]
  | .torDrops => [.torDrops_edition, .torDrops_epoch, .torDrops_seq, .torDrops_route,
      .torDrops_op, .torDrops_fenced]
  | .torPstat => [.torPstat_state, .torPstat_lanes, .torPstat_laneMask, .torPstat_finding,
      .torPstat_peerCoord, .torPstat_peerPort, .torPstat_replays]
  | .congRecord => [.congRecord_record]
  | .congSweep => [.congSweep_collector, .congSweep_every, .congSweep_isCollector, .congSweep_buffer]
  | .torXentry => [.torXentry_match, .torXentry_mask, .torXentry_restOwn, .torXentry_port,
      .torXentry_vcsel, .torXentry_valid]
  | .ctxEntry => [.ctxEntry_open, .ctxEntry_kind, .ctxEntry_fault, .ctxEntry_peer,
      .ctxEntry_openEdition, .ctxEntry_epoch, .ctxEntry_txSeq, .ctxEntry_rxSeq,
      .ctxEntry_credits]
  | .evtHead => [.evtHead_headSeq, .evtHead_changes]
  | .evtCtl => [.evtCtl_minSev]
  | .evtLost => [.evtLost_debug, .evtLost_info, .evtLost_warning, .evtLost_error,
      .evtLost_fatal, .evtLost_rate, .evtLost_persist]
  | .evtRate => [.evtRate_rate, .evtRate_burst]
  | .evtSlot => [.evtSlot_seq, .evtSlot_severity, .evtSlot_srcDie, .evtSlot_srcUnit,
      .evtSlot_time, .evtSlot_code, .evtSlot_repeat, .evtSlot_step,
      .evtSlot_arg0, .evtSlot_arg1, .evtSlot_arg2, .evtSlot_arg3,
      .evtSlot_lastUs, .evtSlot_boot, .evtSlot_valid]
  | .monCfg => [.monCfg_source, .monCfg_select, .monCfg_base, .monCfg_window]
  | .monStat => [.monStat_min, .monStat_max, .monStat_count, .monStat_windowNo]
  | .monHist => [.monHist_bins]
  | .gthCfg => [.gthCfg_config, .gthCfg_shape, .gthCfg_buck, .gthCfg_debug]
  | .gthBeatmeter => [.gthBeatmeter_rate, .gthBeatmeter_minRate]
  | .gthNumstat => [.gthNumstat_invalid, .gthNumstat_divzero, .gthNumstat_overflow, .gthNumstat_underflow,
      .gthNumstat_inexact, .gthNumstat_saturated, .gthNumstat_flushed, .gthNumstat_nanBlock,
      .gthNumstat_ftz, .gthNumstat_conforming]
  | .gthSeqstat => [.gthSeqstat_ip, .gthSeqstat_running, .gthSeqstat_waiting, .gthSeqstat_halted,
      .gthSeqstat_hazard, .gthSeqstat_hazardIp, .gthSeqstat_hazardRes, .gthSeqstat_stop,
      .gthSeqstat_hazards]
  | .gthDbgctl => [.gthDbgctl_enable, .gthDbgctl_haltReq, .gthDbgctl_step, .gthDbgctl_resume,
      .gthDbgctl_breakEn, .gthDbgctl_clearLog, .gthDbgctl_breakIp]
  | .gthDbgsel => [.gthDbgsel_row, .gthDbgsel_col, .gthDbgsel_face, .gthDbgsel_slice,
      .gthDbgsel_reg, .gthDbgsel_elem]
  | .gthDbgdata => [.gthDbgdata_value]
  | .gthStalllog => [.gthStalllog_ip, .gthStalllog_res, .gthStalllog_valid, .gthStalllog_beats]
  | .gthStallcnt => [.gthStallcnt_stalls]
  | .engQstat => [.engQstat_depth, .engQstat_running, .engQstat_tokwait, .engQstat_commitwait,
      .engQstat_headToken, .engQstat_headList]
  | .tokCommit => [.tokCommit_closed, .tokCommit_committed, .tokCommit_ahead]
  | .yrdTally => [.yrdTally_amax, .yrdTally_nonfinite, .yrdTally_valid, .yrdTally_listId]
  | .yrdStat => [.yrdStat_running, .yrdStat_pending, .yrdStat_regwait, .yrdStat_granules]
  | .yrdReg => [.yrdReg_rate, .yrdReg_depth]
  | .memStackstat => [.memStackstat_corrected, .memStackstat_uncorrectable, .memStackstat_sparesUsed, .memStackstat_worstFree,
      .memStackstat_refresh2x]
  | .memStackerr => [.memStackerr_addr, .memStackerr_valid]
  | .updQstat => [.updQstat_queued, .updQstat_held, .updQstat_applied]
  | .updNumstat => [.updNumstat_flags]
  | .crzCfg => [.crzCfg_prob, .crzCfg_threshold]
  | .crzStat => [.crzStat_samples, .crzStat_missed, .crzStat_mismatches, .crzStat_worst]
  | .fltDiestat => [.fltDiestat_sparesFree, .fltDiestat_suspect, .fltDiestat_retired, .fltDiestat_failed,
      .fltDiestat_mismatches, .fltDiestat_boundaries]
  | .tokEntry => [.tokEntry_value, .tokEntry_ovf]

/-- The Reset value of a field (R15). -/
def Field.reset (f : Field) : Nat := f.info.reset

/-- The register of a field. -/
def Field.reg (f : Field) : Reg := f.info.reg

/-- The key of copy `i` of a field in the register store. -/
def Field.key (f : Field) (i : Nat) : Nat := f.ctorIdx + 512 * i

end Sys2Proof.Machine
end

