-- ==== Sys2Proof/Machine/Tab.lean ====
section
/-! DEFINITION. Sparse tables: sorted lists of (key, value) pairs. A key that is not listed holds the table's default
value. Every sparse part of the state (registers, memories, tiles, contexts) is one of these, so that it is plain
data and equal contents written by `put` are equal lists. -/

namespace Sys2Proof.Machine

/-- A sparse table. -/
abbrev Tab (α : Type) := List (Nat × α)

/-- The value of key `k`, or the default `d`. -/
def Tab.get {α : Type} (d : α) : Tab α → Nat → α
  | [], _ => d
  | (j, v) :: r, k => if j = k then v else Tab.get d r k

/-- The table without key `k`. -/
def Tab.erase {α : Type} : Tab α → Nat → Tab α
  | [], _ => []
  | (j, v) :: r, k => if j = k then Tab.erase r k else (j, v) :: Tab.erase r k

/-- The pair (k, v) put before the first greater key. -/
def Tab.ins {α : Type} : Tab α → Nat → α → Tab α
  | [], k, v => [(k, v)]
  | (j, w) :: r, k, v => if k < j then (k, v) :: (j, w) :: r else (j, w) :: Tab.ins r k v

/-- Key `k` now holds `v`. -/
def Tab.upd {α : Type} (t : Tab α) (k : Nat) (v : α) : Tab α := Tab.ins (Tab.erase t k) k v

/-- Key `k` now holds `v`; the default value is not listed. -/
def Tab.put {α : Type} [DecidableEq α] (d : α) (t : Tab α) (k : Nat) (v : α) : Tab α :=
  if v = d then Tab.erase t k else Tab.upd t k v

/-- Strictly rising keys, all above `lo` (exclusive bound given as `lo ≤ key`), none holding the default. -/
def Tab.wfFrom {α : Type} [DecidableEq α] (d : α) : Nat → Tab α → Bool
  | _, [] => true
  | lo, (k, v) :: r => decide (lo ≤ k) && !decide (v = d) && Tab.wfFrom d (k + 1) r

/-- The canonical form: strictly rising keys and no entry equal to what an unlisted key reads as. -/
def Tab.wf {α : Type} [DecidableEq α] (d : α) (t : Tab α) : Bool := Tab.wfFrom d 0 t

end Sys2Proof.Machine
end

