-- ==== Sys2Proof/Machine/State.lean ====
section
/-! DEFINITION. The state of the device as plain data. Registers live in one store by field (`rf`), with the values
in force of settings that take effect later in a second one (`eff`); everything else the spec gives the machine
(memories, fuses, the NVM, queues, lists, gatherings, yarders, collectives, ports, links, the recorder) has a
structure of its own. -/

namespace Sys2Proof.Machine

/-- Why the block stops. -/
inductive Fault where
  /-- Raised by RAIL_OUT_OF_RANGE for a rail other than VCORE, VDRAM and VPP: R702 calls the behaviour undefined
  until the next reset. Safe: the machine stops where the device may do anything. -/
  | railUndefined
  /-- Raised by ROM_START, the first step of a start-up after a ramp of the rails out of order: R701 calls that start-up
  undefined. Safe: the machine stops where the device may do anything. -/
  | startUndefined
  deriving DecidableEq, Repr

/-- Why the block refuses a command. -/
inductive Refusal where
  /-- Raised by the dispatcher for a command that has no meaning in the model yet. Safe: the machine stops. -/
  | notModelled (mnemonic : String)
  deriving DecidableEq, Repr

/-! ## Package, fuses, NVM -/

/-- The fused pairs of R2: none in grade A, CD1 and CD2 or CD5 and CD6 in grade S. -/
inductive FusedPair where
  | none | cd12 | cd56
  deriving DecidableEq, Repr

/-- The security fuses of R577 as one set of cells holds them; the thermometer fields by their counts. -/
structure FuseCells where
  rootHash : Nat := 0
  secret : Nat := 0
  lcProv : Bool := false
  lcCount : Nat := 0
  lcRetired : Bool := false
  keyGen : Nat := 0
  svnMin : Nat := 0
  deriving DecidableEq, Repr

/-- The fuses: the grade and fused pair of R2, and the two redundant sets of cells of the security fuses (R577). -/
structure Fuses where
  /-- The compute dies fused off (R2). -/
  pair : FusedPair := .none
  one : FuseCells := {}
  two : FuseCells := {}
  deriving DecidableEq, Repr

/-! A bit reads blown only when both of its cells are blown (R577); of a thermometer field, the lower count. -/

/-- ROOT_HASH as it reads. -/
def Fuses.rootHash (f : Fuses) : Nat := f.one.rootHash &&& f.two.rootHash
/-- DEVICE_SECRET as it reads. -/
def Fuses.secret (f : Fuses) : Nat := f.one.secret &&& f.two.secret
/-- LC_PROV as it reads. -/
def Fuses.lcProv (f : Fuses) : Bool := f.one.lcProv && f.two.lcProv
/-- LC_COUNT as it reads. -/
def Fuses.lcCount (f : Fuses) : Nat := min f.one.lcCount f.two.lcCount
/-- LC_RETIRED as it reads. -/
def Fuses.lcRetired (f : Fuses) : Bool := f.one.lcRetired && f.two.lcRetired
/-- KEY_GEN as it reads. -/
def Fuses.keyGen (f : Fuses) : Nat := min f.one.keyGen f.two.keyGen
/-- SVN_MIN as it reads. -/
def Fuses.svnMin (f : Fuses) : Nat := min f.one.svnMin f.two.svnMin

/-- Cells of both sets burnt (R577). -/
def Fuses.burn (f : Fuses) (g : FuseCells → FuseCells) : Fuses := { f with one := g f.one, two := g f.two }

/-- CD_PRESENT of R33. -/
def Fuses.present (f : Fuses) : Nat :=
  match f.pair with
  | .none => 0xFF
  | .cd12 => 0xF9
  | .cd56 => 0x9F

/-- A fault-history record of R561. -/
structure HistRec where
  seq : Nat
  boot : Nat
  time : Nat
  unit : Nat
  kind : Nat
  die : Nat
  index : Nat
  detail : Nat
  deriving DecidableEq, Repr

/-- The NVM part and what IO0 keeps about it (R596 to R599, R646, R692). -/
structure Nvm where
  /-- Contents; an unlisted byte reads 0xFF, the erased value. -/
  cells : List Host.Cell := []
  present : Bool := true
  /-- Fault-history records not yet written, oldest first (R599). -/
  histQ : List HistRec := []
  /-- SEQ given last to a history record, and the BOOT of this start-up (R561). -/
  histSeq : Nat := 0
  boot : Nat := 0
  /-- A host operation in progress: OP, next byte offset, units left, buffer address. -/
  op : Option (Nat × Nat × Nat × Nat) := none
  /-- A refused or failed host operation whose end has not been signalled: its RESULT. -/
  opEnd : Option Nat := none
  /-- Erases of R667 or R589 still to be made, as block offsets. -/
  erases : List Nat := []
  deriving DecidableEq, Repr

/-! ## Events -/

/-- A report on its way to the recorder (R655, R658). -/
structure Report where
  code : Nat
  sev : Nat
  die : Nat
  unit : Nat
  time : Nat
  step : Nat
  arg0 : Nat
  arg1 : Nat
  arg2 : Nat
  arg3 : Nat
  deriving DecidableEq, Repr

/-- A record of R655 as the ring holds it. -/
structure EvRec where
  seq : Nat
  rep : Report
  count : Nat
  lastUs : Nat
  boot : Nat
  deriving DecidableEq, Repr

/-- The event recorder beside its registers (R658 to R667). -/
structure Recorder where
  /-- Reports that wait, oldest first. -/
  queue : List Report := []
  /-- Ring slots that hold a record, and those whose record a clear has marked empty (R667). -/
  ring : Tab EvRec := []
  stale : Tab EvRec := []
  /-- A clear whose erases are not complete: the arguments of its EVENTS_CLEARED (R667). -/
  clear : Option (Nat × Nat × Nat × Nat) := none
  /-- The SEQ to give next. -/
  next : Nat := 1
  /-- Buckets of R661: thousand-millionths of a record held and the time of the last change. -/
  buckets : Tab (Nat × Nat) := []
  /-- Records queued for the NVM with the time they were queued (R664). -/
  persistQ : List (EvRec × Nat) := []
  /-- Next page of the persisted region to program, 0 to 4,095 (R666). -/
  page : Nat := 0
  deriving DecidableEq, Repr

/-! ## Jobs, lists, engines -/

/-- An accepted manifest (R635) with its mapping record (R502) and contexts (R636). -/
structure Manifest where
  standby : Bool
  cur : Nat
  periods : Nat
  nominal : Nat
  cap : Nat
  arrearsEvent : Nat
  step : Nat
  steps : Nat
  seed : Nat
  descTable : Nat
  ctxs : List Nat
  statusRing : Nat
  statusSlots : Nat
  layers : Nat
  logical : Nat
  replica : Nat
  schedule : Nat
  micro : Nat
  recipe : Nat
  ringSeq : Nat
  deriving DecidableEq, Repr

/-- A command list in a die's list store (R262). Records are kept as 512-bit numbers. -/
structure StoredList where
  die : Nat
  id : Nat
  cls : Nat
  maint : Bool
  period : Nat
  startToken : Nat
  startCount : Nat
  completion : Nat
  cmds : List Nat
  /-- Which commands validation marked as needing the commit token (R284). -/
  needs : List Bool
  /-- The collective descriptors that validation read, by command; 0 for a command of another kind (R451). -/
  bodies : List Nat
  deriving DecidableEq, Repr

/-- An update program in a die's program store (R467): its address, its 64-byte records and its learning-rate table
as pairs of step and FP32 rate. -/
structure UProg where
  die : Nat
  addr : Nat
  recs : List Nat
  lr : List (Nat × Nat)
  deriving DecidableEq, Repr

/-- Progress of a stored list in one step. -/
inductive ListPhase where
  | waiting | ready | running | done | failed | abandoned
  deriving DecidableEq, Repr

/-- A list of the open step, or of the step after it (R264, R283). -/
structure ListRun where
  src : StoredList
  step : Nat
  phase : ListPhase
  /-- Next record to dispatch. -/
  next : Nat
  /-- Commands completed. -/
  doneCount : Nat
  tStart : Nat
  /-- Times passed over by R80. -/
  passed : Nat
  /-- SCHEDULE_HAZARD already raised for this list (R238). -/
  hazard : Bool
  /-- Order of start on the device, for dispatch in order (R265). -/
  startNo : Nat
  deriving DecidableEq, Repr

/-- A command in an engine's queue, or running. -/
structure QCmd where
  word : Nat
  die : Nat
  listId : Nat
  step : Nat
  maint : Bool
  /-- 1 to 4,096. -/
  index : Nat
  /-- Needs the commit token (R284). -/
  commit : Bool
  /-- Its waits have been granted (R271). -/
  granted : Bool
  /-- Local time at which it reached the queue head, and whether TOKEN_WAIT_LONG has been raised (R277). -/
  since : Option Nat
  warned : Bool
  tStart : Nat
  /-- A COLLECTIVE's descriptor as validated (R451). -/
  body : Nat
  deriving DecidableEq, Repr

/-- The signals of a completed command that wait for the acknowledgement of its writes (R274). -/
structure PendSignal where
  sigs : List (Nat × Nat × Nat)
  maint : Bool
  /-- The command, as ARG0 of R669 names it. -/
  from_ : Nat
  deriving DecidableEq, Repr

/-- A tensor descriptor of R315, field by field. -/
structure Desc where
  raw : Nat
  deriving DecidableEq, Repr

/-! ## Gatherings -/

/-- A vector register of the 32 tiles (R176, R214): lane index 1,024 t + l. -/
structure VReg where
  pat : Tab Nat := []
  /-- Lanes 0 to `valid` − 1 have their valid bit set. VLD sets the bits of a first stretch of lanes and clears the
  others, and a VOP takes the AND, so the set lanes always are a first stretch. -/
  valid : Nat := 0
  origin : Nat := 0
  deriving DecidableEq, Repr

/-- The resources whose pending writes a sequencer tracks (R236), coded for HAZARD_RES. -/
inductive Res where
  | scalar (i : Nat) | count (i : Nat) | gen (i : Nat) | vector (i : Nat) | line (a : Nat)
  deriving DecidableEq, Repr

/-- What a pending write will write. Memory bytes are pairs of an address and 256 × mask + value: the bits of the mask
are written. -/
inductive Wr where
  | scalar (i v : Nat)
  | count (i v : Nat)
  | gen (k : Nat) (v : Int)
  | vector (i : Nat) (r : VReg)
  | mem (cells : List (Nat × Nat))
  deriving DecidableEq, Repr

/-- A write issued and not yet landed (R235 to R237): landing beat, order of issue, what it writes, and whether it is
the drain of an output tile. -/
structure Pend where
  beat : Nat
  order : Nat
  wr : Wr
  drain : Bool
  deriving DecidableEq, Repr

/-- An open loop (R202): address of its first body instruction, body length, count, current index. -/
structure Loop where
  start : Nat
  body : Nat
  count : Nat
  idx : Nat
  deriving DecidableEq, Repr

/-- One accumulator entry of a cell (R150): the run and the landing register, as patterns. -/
structure Acc2 where
  run : Nat := 0
  landing : Nat := 0
  deriving DecidableEq, Repr

/-- The last matrix instruction that covered an output tile (R163, R164). -/
structure LastMma where
  hold : Bool
  shape : Nat
  m : Nat
  n : Nat
  hc : Nat
  oc : Int
  int : Bool
  deriving DecidableEq, Repr

/-- A TOKS not yet signalled (R231): die, token, count, order of issue. -/
structure PendTok where
  die : Nat
  token : Nat
  count : Nat
  order : Nat
  beat : Nat
  deriving DecidableEq, Repr

/-- The part of a gathering that a replay restores (R551). -/
structure GCore where
  ip : Nat := 0
  s : Tab Nat := []
  ct : Tab Nat := []
  /-- Key 5 g + f: field f of generator g (BASE, INC0 to INC3). -/
  ag : Tab Int := []
  /-- Open loops, innermost first. -/
  loops : List Loop := []
  v : Tab VReg := []
  /-- Accumulator file by position: ((face × 2^11 + row) × 2^11 + col) × 32 + slice. -/
  acc : Tab Acc2 := []
  last : Option LastMma := none
  config : Nat := 0
  shape : Nat := 0
  buck : Nat := 64
  ftz : Bool := false
  /-- Shadow entries, keyed as the accumulator file, and the two stationary sets (R149, R159), for debug reads: key
  (column × 32 + slice) × 8 + element. -/
  shadow : Tab Acc2 := []
  stat0 : Tab Nat := []
  stat1 : Tab Nat := []
  /-- Elements of a group of the last MMA (R189). -/
  elems : Nat := 0
  /-- A change of configuration has dropped the accumulator file, and the stationary sets (R143): what is not listed since then
  holds a value that nothing states. -/
  accGone : Bool := false
  statGone : Bool := false
  deriving DecidableEq, Repr

/-- A checkpoint (R551): the state of the sequencer and tiles as of a boundary, the earlier contents of the scratch
bytes written since, and the registers a replay puts back (flags, hazard fields, stall log). -/
structure GCkpt where
  core : GCore
  beat : Nat
  order : Nat
  pend : List Pend
  opFree : Tab Nat
  drainEnd : Nat
  log : Tab Nat
  regs : List Nat
  descs : Tab Desc
  deriving DecidableEq, Repr

/-- A cruise sample that waits to be judged (R498, R499): instruction address, the largest relative
difference as a magnitude m × 2^e (a little more when `st`), whether it disagrees, whether every difference is a NaN, and
the physical tile that records it. -/
structure CruiseRec where
  ip : Nat
  m : Nat
  e : Int
  st : Bool
  bad : Bool
  nan : Bool
  tile : Nat
  deriving DecidableEq, Repr

/-- A gathering: its sequencer and tiles. -/
structure Gath where
  core : GCore := {}
  /-- Instruction buffer: the running program's 128-bit words. -/
  prog : List Nat := []
  /-- A loaded program that waits for the running one (R195). -/
  nextProg : Option (QCmd × List Nat) := none
  nextDescs : Tab Desc := []
  cmd : Option QCmd := none
  /-- Descriptor cache: handle to descriptor (R193, R194). -/
  descs : Tab Desc := []
  /-- Beat at which the next instruction may issue. -/
  beat : Nat := 0
  order : Nat := 0
  pend : List Pend := []
  toks : List PendTok := []
  /-- Next beat at which a VOP of an op code (or a RED, key 64) may issue (R229). -/
  opFree : Tab Nat := []
  /-- Beat at which the last drain completes (R228). -/
  drainEnd : Nat := 0
  /-- END has issued. -/
  ended : Bool := false
  /-- A TOKW has been granted and may issue. -/
  tokGranted : Bool := false
  /-- Sticky halt conditions of debug mode. -/
  haltWanted : Bool := false
  /-- STEP: halt again after the next issue. Pass the breakpoint at the next issue. -/
  stepOnce : Bool := false
  passBreak : Bool := false
  halted : Bool := false
  /-- The step number of R123 for the running program, as of its start (R677). -/
  stepK : Nat := 0
  /-- PROB and THRESHOLD of CRZ.CFG as of the program's start (R501). -/
  crzProb : Nat := 0
  crzThr : Nat := 10
  /-- The checkpoint of the last boundary (R551). -/
  ckpt : Option GCkpt := none
  /-- Checkpoints before it, newest first, while an instruction issued before their successor is in flight (R549). -/
  older : List GCkpt := []
  /-- Instructions below this number are being issued again (R553). -/
  replayTo : Nat := 0
  /-- The program ends once its replay is complete (R554). -/
  dropDue : Bool := false
  /-- Mismatches since the last boundary, in order: physical tile and instruction address (R555). -/
  replays : List (Nat × Nat) := []
  /-- Beat meter: the number of windows that have been reported, and the last two windows of 1,000 ns in which an instruction
  issued, newest first (R49). -/
  window : Nat := 0
  issuedIn : List Nat := []
  /-- The running program has written scratch (R274). -/
  wrote : Bool := false
  /-- Line of scratch that a partial write met in error (R297, R550). -/
  badWrite : Option Nat := none
  deriving DecidableEq, Repr

/-! ## Yarders -/

/-- A stream slot of a yarder (R347 to R359). -/
structure StreamRun where
  cmd : QCmd
  sdesc : Nat
  /-- Private copy of the descriptor, once latched, with the descriptors of BOUND and PACK as they then stood and the address
  of PACK's (R348). -/
  desc : Option Nat
  bound : Nat
  pack : Nat
  packAt : Nat
  /-- Next element of the walk, and the granules already read of those its unit needs. -/
  pos : Nat
  paid : Nat
  total : Nat
  /-- Copy that the walked and the packed side reach (R346). -/
  curW : Nat
  curP : Nat
  /-- Tally: amax numerator and exponent of the largest magnitude, and whether a non-finite value was met. -/
  amaxM : Nat
  amaxE : Int
  nonfin : Bool
  /-- Stores to other devices not yet acknowledged (R274, R400). -/
  acks : Nat
  /-- Granules of another device: those asked for, and those received (R399). -/
  asked : List Nat
  got : Tab Nat
  /-- Bolts of board-wide accesses still to send: OP, LAST, payload. -/
  out : List (Nat × Bool × Nat)
  /-- Number of its start on the yarder (R356). -/
  no : Nat
  deriving DecidableEq, Repr

/-- One yarder: its 8 slots. -/
structure Yarder where
  slots : List (Option StreamRun) := []
  /-- Streams started so far, and the start number from which the next turn of R356 is looked for. -/
  starts : Nat := 0
  turn : Nat := 0
  deriving DecidableEq, Repr

/-! ## Collectives and updates -/

/-- A running collective (R420 to R449). Coordinates are those of its axis; a unit is the elements of one bolt, named by
the index in SRC of its first element. A payload with its scales is one number: the 64 bytes, SCALE0 above them, SCALE1
above that. -/
structure Coll where
  cmd : QCmd
  /-- The 512-bit descriptor. -/
  desc : Nat
  /-- Effective members, in increasing coordinate (R424). -/
  eff : List Nat
  /-- R429 applies. -/
  skip : Bool
  tStart : Nat
  /-- When the last bolt was accepted (R449). -/
  lastBolt : Nat
  stallRaised : Bool
  /-- Bolts received from, and sent to, each coordinate. -/
  rx : Tab Nat
  tx : Tab Nat
  /-- Partial sums formed here, by unit. -/
  formed : Tab Nat
  /-- Results landed, by unit. -/
  landed : Tab Nat
  /-- The partner's sums of a skip-ring pair that wait for the device's own, by unit. -/
  other : Tab Nat
  /-- Contributions to the owned chunk that wait to be added: key 32 × bolt number + coordinate. -/
  contrib : Tab Nat
  /-- Compressed bolts to send, by coordinate. -/
  out : Tab (List Nat)
  /-- Owned units reduced from contributions so far. -/
  reduced : Nat
  /-- CTRL payloads received, by coordinate. -/
  ctrl : Tab Nat
  /-- The vote that a BARRIER sends (R442). -/
  vote : Nat
  /-- The device's own NONFINITE, and the OR of those that its peers' tails carried (R437). -/
  nonfinite : Bool
  heardNf : Bool
  /-- The command has completed (R447); bolts still to send keep the slot. -/
  done : Bool
  /-- LOCAL_SQ of R439, an FP64 pattern. -/
  lsq : Nat
  /-- Blocks of the result that wait for the update engine, in order of landing, and those applied. -/
  queued : List Nat
  applied : Nat
  /-- Sub-blocks pressed, and the rows of Y by block, 32 FP32 patterns each (R485). -/
  pressed : List Nat
  press : Tab Nat
  /-- Accumulators marked NaN (R486). -/
  pressNan : List Nat
  /-- Statistics are held (R488). -/
  held : Bool
  folded : Bool
  /-- Rows met by this command: t and GAP (R495). -/
  rows : Tab (Nat × Nat)
  /-- COL.CFG as of the collective's start (R618): LAG_THRESHOLD and STALL_US. -/
  lagThr : Nat
  stallUs : Nat
  /-- Check failures in the block in progress, by unit (R560). -/
  fails : Tab Nat := []
  deriving DecidableEq, Repr

/-! ## Torus -/

/-- One torus port: link layer and buffers (R382 to R391). -/
structure Port where
  /-- Bolts waiting to leave, with their virtual channel, oldest first. -/
  egress : List (Fin 4 × Bolt) := []
  /-- Input buffers: bolts received, with their virtual channel. -/
  ingress : List (Fin 4 × Bolt) := []
  /-- Bits that the last raft sent of a bolt not yet ended, and that bolt (R383). -/
  carry : Nat := 0
  part : List (Fin 4 × Bolt) := []
  txSeq : Nat := 0
  rxSeq : Nat := 0
  replay : List Raft := []
  /-- A replay is due from this sequence number. -/
  resend : Option Nat := none
  nakOut : Bool := false
  /-- Consecutive failures of one raft (R387). -/
  fails : Nat := 0
  /-- Uncorrectable symbols that each lane has shown since the port trained (R387). -/
  laneErrs : List Nat := [0, 0, 0, 0]
  /-- Hop credits in bolts held for each virtual channel of the next hop (R391). -/
  credits : List Nat := [1024, 1024, 1024, 1024]
  /-- Places freed and not yet returned. -/
  freed : List Nat := [0, 0, 0, 0]
  retraining : Bool := false
  /-- Survey: first SURVEY received, its payload; timed out; own acceptance; peer's acceptance. -/
  surveyed : Option Nat := none
  timedOut : Bool := false
  accepted : Bool := false
  peerAccepted : Bool := false
  peerRefused : Bool := false
  judged : Bool := false
  /-- CABLE_MISMATCH is due once the port has come up, or will not (R415). -/
  cableDue : Bool := false
  /-- Editions in which ROUTE_DOWN has been raised, and whether BOLT_INVALID has been since the last switch. -/
  downRaised : List Nat := []
  opRaised : Bool := false
  deriving DecidableEq, Repr

/-- A board-wide access issued and not yet answered (R399): the stream that issued it, whether it is a store, whether
its store data still has to follow. -/
structure BoardReq where
  die : Nat
  yarder : Nat
  slot : Nat
  store : Bool
  dataDue : Bool
  addr : Nat
  deriving DecidableEq, Repr

/-- A store open at its target (R399): the request's payload, the granules received, and whether it is refused. -/
structure BoardStore where
  req : Nat
  next : Nat
  bad : Bool
  deriving DecidableEq, Repr

/-- The router and the survey (R393 to R419). -/
structure Torus where
  ports : Tab Port := []
  /-- Table banks: the current one and the spare or previous one. -/
  bank0 : Tab Nat := []
  bank1 : Tab Nat := []
  inject : Tab (List Bolt) := []
  delivered : List Bolt := []
  /-- Machine plan in use: 12 port records (R411), PLAN_ID and the digest of the slot. -/
  plan : List Nat := []
  planId : Nat := 0
  planDigest : Nat := 0
  /-- Congestion samples of the window: key port × 4 + bin, and counts. -/
  bins : Tab Nat := []
  samples : Nat := 0
  missed : Nat := 0
  replays : Nat := 0
  /-- Periods counted for WINDOW (R418, R688). -/
  window : Nat := 0
  /-- Contexts that still stamp an edition before the current one (R398): context to edition. -/
  stamp : Tab Nat := []
  /-- Bolts sent on a context under the stamped edition and not yet credited. -/
  unreturned : Tab Nat := []
  /-- Board accesses by context: issued and unanswered, oldest first, and stores open here. -/
  reqs : Tab (List BoardReq) := []
  stores : Tab BoardStore := []
  /-- Accepted requests and store data that wait for entries of their die, by context, oldest first (R392, R691). -/
  waiting : Tab (List Bolt) := []
  /-- Response bolts that wait for a credit, by context: die, OP, LAST, payload (R392, R397). -/
  answers : Tab (List (Nat × Nat × Bool × Nat)) := []
  /-- Accepted bolts of collectives not yet started here, by context (R427): what the bolt is, and the bolt. -/
  held : Tab (List (Nat × Bolt)) := []
  deriving DecidableEq, Repr

/-! ## Irale -/

/-- Slots of one leaf that wait to be sent on a channel: two of one message stand together. `held` is the link end whose
receive buffer they occupy when they are forwarded (R525). -/
structure OutSlots where
  vc : Nat
  slots : List Slot
  held : Option Nat
  deriving DecidableEq, Repr

/-- One end of a link (R525 to R529). -/
structure LinkSide where
  /-- Last leaf accepted, and the number of the next leaf sent. -/
  rxSeq : Nat := 63
  txSeq : Nat := 0
  /-- Leaves sent and not acknowledged, oldest first. -/
  replay : List Leaf := []
  /-- NAK is set in every leaf sent. -/
  nak : Bool := false
  /-- ACK_SEQ of the last replay and when it started. -/
  resent : Option (Nat × Nat) := none
  /-- By virtual channel: the latest CRED_TOTAL received, slots sent, slots freed here. -/
  freed : List Nat := [0, 0, 0, 0]
  sent : List Nat := [0, 0, 0, 0]
  given : List Nat := [0, 0, 0, 0]
  /-- Channel whose total the next leaf carries. -/
  cvc : Nat := 0
  /-- Slots that wait to be sent, oldest first. -/
  out : List OutSlots := []
  /-- The leaves that this end put on its wires when it last sent, in order. -/
  wire : List Leaf := []
  /-- The leaves kept for replay go out again before any other (R529, R531). -/
  again : Bool := false
  /-- Write data still expected: key (destination × 16 + source) × 4,096 + TID. -/
  open_ : Tab Nat := []
  deriving DecidableEq, Repr

/-- The COMMIT message of R532. -/
structure CommitMsg where
  cur : Nat
  step : Nat
  closed : Nat
  committed : Nat
  applyAt : Nat
  deriving DecidableEq, Repr

/-- A write open at its target die (R523): the WR payload, the granules received, whether it is refused. -/
structure DieWrite where
  req : Nat
  next : Nat
  bad : Bool
  deriving DecidableEq, Repr

/-- A slot delivered to its die and not yet acted on (R523, R524): its channel, and the link end whose receive buffer
holds it (R525). -/
structure Arrived where
  vc : Nat
  side : Nat
  slot : Slot
  deriving DecidableEq, Repr

/-- Irale state: link ends, capability exchange, transactions, the commit message in flight, copies of local time. -/
structure Irale where
  /-- Link ends: key 2 × link, plus 1 for the far end. -/
  sides : Tab LinkSide := []
  /-- Slots delivered to their die and not yet acted on, in order of arrival. -/
  arrived : List Arrived := []
  /-- Failing wires found at training, by link (R530). -/
  badWires : List (Nat × BadWire) := []
  /-- Times of the parity failures of a group in the last millisecond, up to 16: key 32 × link end + group (R531). -/
  parFails : Tab (List Nat) := []
  /-- The joined dies as LEVEL named them: CD_JOINED in [7:0], IO1_JOINED in [8] (R532). -/
  levelDies : Nat := 0
  /-- Exchanges of the words of a link end that failed, by link end (R538). -/
  attempts : Tab Nat := []
  /-- DATA of the TRAIN_DONE of a link end (R535). -/
  trained : Tab Nat := []
  /-- The repair in progress on a link: the link end that receives the direction, and the group (R531). -/
  repair : Tab (Nat × Nat) := []
  /-- Spare wires left in a group after a repair in service: key 32 × link end that receives + group (R531). -/
  left : Tab Nat := []
  /-- Open writes: key (die × 16 + source) × 4,096 + TID. -/
  wr : Tab DieWrite := []
  /-- Read answers and acknowledgements received: key die × 4,096 + TID. -/
  rd : Tab (List Nat) := []
  acks : Tab Nat := []
  /-- A COMMIT sent and not yet applied (R533). -/
  commit : Option CommitMsg := none
  /-- Offset of a die's copy from local time, by position (R536). -/
  skew : Tab Int := []
  /-- Last management register value answered, by position of the core that asked. -/
  regData : Tab Nat := []
  /-- Dies told to start no further main-job list (R532). -/
  held : Nat := 0
  deriving DecidableEq, Repr

/-! ## Faults and maintenance -/

/-- Life state of a physical tile (R555). -/
inductive TileState where
  | good | suspect | retired
  deriving DecidableEq, Repr

/-- A physical tile: state, start of its observation window, transient count, last test (R555, R556). -/
structure Tile where
  st : TileState := .good
  since : Nat := 0
  /-- Time of its observation window that earlier start-ups used (R563). -/
  served : Nat := 0
  mism : Nat := 0
  lastTransient : Option Nat := none
  lastTest : Nat := 0
  untested : Bool := false
  deriving DecidableEq, Repr

/-- A compute die beside its engines. -/
structure Die where
  /-- Physical tile of a logical one (key gathering × 32 + tile), where it is not the tile of the same number. -/
  map : Tab Nat := []
  tiles : Tab Tile := []
  /-- Rows that wait for repair (row number), and rows remapped (channel × 2^19 + row × 32 + bank). -/
  rowQ : List Nat := []
  remapped : List Nat := []
  /-- Corrected rows: row to scrub passes that saw a correction. -/
  rowErr : Tab Nat := []
  /-- Spare rows used by bank. -/
  bankUsed : Tab Nat := []
  deadWires : List Nat := []
  scrubPos : Nat := 0
  scrubStart : Nat := 0
  failed : Bool := false
  stackOut : Bool := false
  /-- State of the three inputs of R74 with their hysteresis: power, logic, stack. -/
  inPower : Nat := 0
  inLogic : Nat := 0
  inStack : Nat := 0
  /-- Running maintenance operation. -/
  maint : Option QCmd := none
  /-- Bytes of its region that segments still to come cover (R684). -/
  maintLeft : Nat := 0
  /-- Physical tiles that a running SELFTEST or PATTERN uses, and spares that it reports as not tested (R30). -/
  testing : List Nat := []
  notTested : List Nat := []
  /-- Staging buffer entries that board-wide accesses use (R689). -/
  stRemote : Nat := 0
  /-- Regulator buckets by class: bytes and time of last change. -/
  buckets : Tab (Nat × Nat) := []
  /-- Cruise samples waiting. -/
  cruise : List CruiseRec := []
  /-- Recompute-marked time of the open step and of the step after it (R292), and blocks stored by handle (R458). -/
  recompute : Nat := 0
  recomputeNext : Nat := 0
  stored : Tab Nat := []
  /-- Rows logged in this step: log address to rows (R497). -/
  rowlog : List (Nat × Nat × Nat) := []
  /-- Rows logged in this step by program address (R496). -/
  rowCount : Tab Nat := []
  /-- C0 reads since the last one that was sampled (R674). -/
  c0 : Nat := 0
  /-- Weight-cache lines, most recently used first (R329). -/
  cache : List Nat := []
  deriving DecidableEq, Repr

/-- Monitor channel live set (R672). -/
structure MonLive where
  count : Nat := 0
  /-- FP32 patterns; valid once a sample that is not a NaN was taken. -/
  min : Nat := 0
  max : Nat := 0
  seen : Bool := false
  bins : Tab Nat := []
  /-- Periods of the window that have ended. -/
  elapsed : Nat := 0
  deriving DecidableEq, Repr

/-- A monitor window that ended at local time `time`: the settings it had and its live set, which goes on where WINDOW is 0
(R673, R687). -/
structure MonEnd where
  time : Nat
  source : Nat
  select : Nat
  base : Nat
  live : Option MonLive
  deriving DecidableEq, Repr

/-! ## Host side -/

/-- What the device answers on a bus. -/
inductive Resp where
  | none | data (v : Nat) | ur | bytes (l : List Nat)
  deriving DecidableEq, Repr

/-- A transfer in progress (R643): the entry's host address, its 512 bits, and the copy CUR named at its start. -/
structure Xfer where
  slotAddr : Nat
  entry : Nat
  cur : Nat
  /-- Set once the copy has run: the result and the error. -/
  result : Option (Nat × Nat)
  /-- A commit has inverted CUR since the start (R644). -/
  torn : Bool := false
  deriving DecidableEq, Repr

/-- Configuration space of the PCIe function as R622 gives it: device ID and class code, the power state, and the two bits
of the MSI-X capability by which a host masks every vector. No row of the table writes them (DESIGN CHOICE for the state of
the capability, log 251). -/
structure PcieCfg where
  deviceId : Nat := 0xE58A
  classCode : Nat := 0x120000
  d3hot : Bool := false
  msixEnable : Bool := true
  functionMask : Bool := false
  deriving DecidableEq, Repr

/-- The host side: PCIe, rings, MSI-X, I3C and JTAG. -/
structure HostIf where
  /-- The rest of configuration space that R622 and R648 name. -/
  cfg : PcieCfg := {}
  /-- Bus Master Enable (R624); 0 after reset (PRESUMED from PCIe, log 12). -/
  busMaster : Bool := false
  /-- Ring entries taken and not yet handled: host address and 512 bits. -/
  taken : List (Nat × Nat) := []
  xfer : Option Xfer := none
  /-- Messages sent, by vector; masked vectors pending; table mask bits. -/
  sent : Tab Nat := []
  msixPending : List Nat := []
  msixTable : Tab Nat := []
  /-- Signals of host tokens held while no main job runs (R645): die, token, count. -/
  heldSig : List (Nat × Nat × Nat) := []
  /-- Host-token counts signalled, and consumed by steps up to the open one, in this job (R645). -/
  hostSig : Tab Nat := []
  hostUse : Tab Nat := []
  /-- Those consumed by run-ahead of the step after the open one. -/
  hostAhead : Tab Nat := []
  timeLatch : Option Nat := none
  resp : Resp := .none
  /-- I3C target: read offset, dynamic address, in-band interrupts enabled, and the mandatory bytes raised. -/
  i3cOff : Nat := 0
  i3cDyn : Nat := 0
  ibi : Bool := false
  ibiOut : List Nat := []
  telemetry : Nat := 0
  /-- JTAG: the instruction loaded, IDCODE after power-on (PRESUMED from IEEE 1149.1, log 79), and the scan register. -/
  jtag : Nat := 1
  scan : Nat := 0
  /-- Records and interrupts held while Bus Master Enable is 0: host address, bytes. -/
  heldWrites : List (Nat × List Nat) := []
  deriving DecidableEq, Repr

/-- The main job and its schedule. -/
structure Job where
  accepted : Option Manifest := none
  active : Option Manifest := none
  standby : Option Manifest := none
  /-- Lists stored for the accepted or running job. -/
  lists : List StoredList := []
  runs : List ListRun := []
  progs : List UProg := []
  maintRuns : List ListRun := []
  /-- A manifest stopped and not restarted (R570, R572). -/
  stopped : Option Manifest := none
  /-- Schedule position of the open step. -/
  pos : Nat := 0
  /-- Step and period that the period timer is in (R61). -/
  tstep : Nat := 0
  period : Nat := 0
  /-- Lists started so far. -/
  starts : Nat := 0
  /-- S(p) and T(p) of R61, in ns. -/
  sTime : Nat := 0
  tLen : Nat := 0
  tOpen : Nat := 0
  /-- When the steps after the open one opened, by step, as far as the timer has come. -/
  tOpenNext : Tab Nat := []
  epoch : Nat := 0
  /-- Edition at which the previous main job's contexts opened (R395). -/
  lastEdition : Option Nat := none
  seed : Nat := 0
  descTable : Nat := 0
  logical : Nat := 0
  replica : Nat := 0
  /-- A close decided and its COMMIT not yet applied: the message without its APPLY_AT, and OUTCOME (R533, R640). -/
  closing : Option (CommitMsg × Nat) := none
  /-- A rollback decided (R462). -/
  rolling : Bool := false
  stopTime : Nat := 0
  pressHeld : Bool := false
  /-- GRAD 1 collectives of the step by LIST_ID and record index: those two, LAYER, LOCAL_SQ and REDUCED_SQ (R440);
  and recompute time by LAYER. -/
  sq : List (Nat × Nat × Nat × Nat × Nat) := []
  layerT : Tab Nat := []
  layersOver : Nat := 0
  /-- The same of the step after the open one. -/
  layerTNext : Tab Nat := []
  layersOverNext : Nat := 0
  /-- Granules of committed state lost in this job (R571). -/
  lost : List Nat := []
  /-- Phase of R683 on the whole device: start-up and recovery. -/
  phaseStart : Bool := false
  phaseRecover : Bool := false
  deriving DecidableEq, Repr

/-- The state of the device. -/
structure State where
  /-- Register fields: key of `Field.key`, unlisted fields at their Reset value. -/
  rf : Tab Nat := []
  /-- Values in force of fields whose written value takes effect later. -/
  eff : Tab Nat := []
  /-- Device memory: stacks, tier and scratch, by device address (R294). -/
  mem : List Host.Cell := []
  /-- Granules whose stored contents are uncorrectable (R302). -/
  poison : List Nat := []
  /-- Of those in the tier: the 64-bit words written whole since, as an 8-bit mask (R302, R311). -/
  okWords : Tab Nat := []
  /-- Symbols in error of granules that the codes still correct (R301, R311), as bits. -/
  symErr : Tab Nat := []
  /-- Host memory as the device reads and writes it. -/
  host : List Host.Cell := []
  fuses : Fuses := {}
  nvm : Nvm := {}
  recorder : Recorder := {}
  job : Job := {}
  hif : HostIf := {}
  gaths : Tab Gath := []
  queues : Tab (List QCmd) := []
  yarders : Tab Yarder := []
  colls : Tab Coll := []
  dies : Tab Die := []
  signals : List PendSignal := []
  /-- Maintenance tokens, 256 per die (R278): key 256 d + k. -/
  mtok : Tab Nat := []
  /-- Maintenance tokens that have saturated (R270): keys as in `mtok`. -/
  mOvf : List Nat := []
  tor : Torus := {}
  irl : Irale := {}
  mons : Tab MonLive := []
  /-- The window of each monitor channel that ended last (R687). -/
  monEnds : Tab MonEnd := []
  /-- Waits on tokens in the order in which they began (R272). -/
  waits : List Waiter := []
  /-- Local time (R55), whether PERST_N is asserted, the sampled strap. -/
  now : Nat := 0
  perst : Bool := true
  slot : Nat := 0
  /-- The rails were ramped out of order (R700, R701), and PERST_N has since been asserted with every rail in range. -/
  badRamp : Bool := false
  rampCure : Bool := false
  /-- Local time until which some rail is out of its range (R702). -/
  railUntil : Nat := 0
  /-- The whole device has failed or tripped (R90, R706). -/
  dead : Bool := false
  tripped : Bool := false
  thermTripN : Bool := true
  refclkLost : Bool := false
  lpLost : Bool := false
  /-- Body of the accepted configuration image, and its SVN and digest (R602, R595). -/
  image : Nat := 0
  imageSvn : Nat := 0
  imageDigest : Nat := 0
  /-- Identity public key (R579), and the attestation in progress (R594). -/
  idKey : Nat := 0
  attest : Option (Nat × Nat) := none
  /-- What the check of the pattern bundle gave at the first PATTERN since start-up (R585). -/
  bundle : Option Err := none
  /-- The copy of the bundle in device memory from which patterns run: its bytes, the first in the lowest bits (R585). -/
  bundleCopy : Nat := 0
  nonce : Option Nat := none
  tierSize : Nat := 0
  /-- The last package powers of R72 in µW, newest first, the last readback of each rail by its select (R653), and AVS failures
  by rail. -/
  powerUw : List Nat := []
  rails : Tab RailReading := []
  avsFails : Tab Nat := []
  /-- The model's own counter for free values; no field of the device. -/
  fresh : Nat := 0
  /-- Commands that wait, first in first out. -/
  pending : List Instr := []
  deriving DecidableEq, Repr

/-- The device right after reset, with PERST_N asserted: every register at its Reset value, every memory as the wipe
of R335 leaves it, the fuses of a blank grade A part and an erased NVM. -/
def State.reset : State := {}

end Sys2Proof.Machine
end

