-- ==== Sys2Proof/Machine/Ops.lean ====
section
/-! DEFINITION. The named operations over registers, memories, tokens, events and interrupts. Every meaning is written
over these. -/

namespace Sys2Proof.Machine

/-! ## Register fields -/

/-- The stored value of field `f`, element `i`. -/
def State.fld (s : State) (f : Field) (i : Nat) : Nat := Tab.get f.reset s.rf (f.key i)

/-- Field `f`, element `i`, set to `v`, cut to the field's width. -/
def State.setFld (s : State) (f : Field) (i v : Nat) : State :=
  { s with rf := Tab.put f.reset s.rf (f.key i) (v % 2 ^ f.info.width) }

/-- Field `f` back at its Reset value. -/
def State.resetFld (s : State) (f : Field) (i : Nat) : State := s.setFld f i f.reset

/-- The value in force of a field whose written value takes effect later. -/
def State.inForce (s : State) (f : Field) (i : Nat) : Nat := Tab.get f.reset s.eff (f.key i)

/-- The written value takes effect. -/
def State.apply (s : State) (f : Field) (i : Nat) : State :=
  { s with eff := Tab.put f.reset s.eff (f.key i) (s.fld f i) }

/-- A field plus `n`, saturating at the largest value the field holds. -/
def State.bump (s : State) (f : Field) (i n : Nat) : State :=
  s.setFld f i (min (2 ^ f.info.width - 1) (s.fld f i + n))

/-- A field plus `n`, wrapping at the field's width. -/
def State.wrapAdd (s : State) (f : Field) (i n : Nat) : State := s.setFld f i (s.fld f i + n)

/-- The bits of `v` set in a sticky field. -/
def State.orFld (s : State) (f : Field) (i v : Nat) : State := s.setFld f i (s.fld f i ||| v)

/-- Whether a one-bit field is 1. -/
def State.flag (s : State) (f : Field) (i : Nat) : Bool := s.fld f i == 1

/-- A one-bit field set from a truth value. -/
def State.setFlag (s : State) (f : Field) (i : Nat) (b : Bool) : State := s.setFld f i (b2n b)

/-! ## Units -/

/-- Gathering index 8 d + g. -/
def gi (d g : Nat) : Nat := 8 * d + g

/-- The gathering g of die d. -/
def State.gath (s : State) (d g : Nat) : Gath := Tab.get {} s.gaths (gi d g)

/-- Gathering g of die d replaced. -/
def State.setGath (s : State) (d g : Nat) (x : Gath) : State := { s with gaths := Tab.upd s.gaths (gi d g) x }

/-- The die record of die d. -/
def State.die (s : State) (d : Nat) : Die := Tab.get {} s.dies d

/-- The die record of die d replaced. -/
def State.setDie (s : State) (d : Nat) (x : Die) : State := { s with dies := Tab.upd s.dies d x }

/-- Queue of engine unit u of die d, head first. -/
def State.queue (s : State) (d u : Nat) : List QCmd := Tab.get [] s.queues (16 * d + u)

/-- That queue replaced. -/
def State.setQueue (s : State) (d u : Nat) (q : List QCmd) : State :=
  { s with queues := Tab.upd s.queues (16 * d + u) q }

/-- Yarder y of die d. -/
def State.yarder (s : State) (d y : Nat) : Yarder := Tab.get {} s.yarders (4 * d + y)

/-- That yarder replaced. -/
def State.setYarder (s : State) (d y : Nat) (x : Yarder) : State :=
  { s with yarders := Tab.upd s.yarders (4 * d + y) x }

/-- Running collective in slot k of die d. -/
def State.coll (s : State) (d k : Nat) : Option Coll := (s.colls.find? (fun p => p.1 == 16 * d + k)).map (·.2)

/-- That slot filled. -/
def State.setColl (s : State) (d k : Nat) (c : Coll) : State := { s with colls := Tab.upd s.colls (16 * d + k) c }

/-- That slot freed. -/
def State.dropColl (s : State) (d k : Nat) : State := { s with colls := Tab.erase s.colls (16 * d + k) }

/-- Port p. -/
def State.port (s : State) (p : Nat) : Port := Tab.get {} s.tor.ports p

/-- Port p replaced. -/
def State.setPort (s : State) (p : Nat) (x : Port) : State :=
  { s with tor := { s.tor with ports := Tab.upd s.tor.ports p x } }

/-- Whether CDn is enabled in fuses (R2, R33). -/
def State.fused (s : State) (d : Nat) : Bool := !(d < 8 && bit s.fuses.present d)

/-- Whether the negotiation phase has ended. -/
def State.negotiated (s : State) : Bool := s.fld .startStatus_phase 0 > 3

/-- A compute die that is fused off or was excluded (R32, R628). -/
def State.absent (s : State) (d : Nat) : Bool :=
  s.fused d || (s.negotiated && !bit (s.fld .orgIdent_cdJoined 0) d)

/-- Whether CDn has joined. -/
def State.joined (s : State) (d : Nat) : Bool := d < 8 && bit (s.fld .orgIdent_cdJoined 0) d

/-- The joined compute dies. -/
def State.joinedDies (s : State) : List Nat := (List.range 8).filter s.joined

/-- R32: an ENGINE_ID that names no engine. -/
def State.engineAbsent (s : State) (e : Nat) : Bool :=
  e / 16 ≥ 8 || e % 16 ≥ 14 || s.absent (e / 16)

/-- Whether a main job runs. -/
def State.jobRuns (s : State) : Bool := s.job.active.isSome

/-- Whether the device has reached ready. -/
def State.ready (s : State) : Bool := s.flag .startStatus_ready 0

/-- Local time as die position `p` reads it from its copy (R536). -/
def State.timeAt (s : State) (p : Nat) : Nat :=
  (((s.now : Int) + Tab.get 0 s.irl.skew p) % (2 ^ 64 : Nat)).toNat

/-- A free value, and the state that has used it. -/
def State.draw (s : State) : Nat × State := (Config.free s.fresh, { s with fresh := s.fresh + 1 })

/-! ## Bytes -/

/-- Byte at `a` of a sparse memory whose unlisted bytes read `d`. -/
def rdCell (d : Byte) (m : List Host.Cell) (a : Nat) : Nat := (Tab.get d m a).toNat

/-- Byte `v` written at `a`; the canonical form is kept. -/
def wrCell (d : Byte) (m : List Host.Cell) (a v : Nat) : List Host.Cell := Tab.put d m a (BitVec.ofNat 8 v)

/-- `n` bytes from `a` as a little-endian number (R10). -/
def rdCells (d : Byte) (m : List Host.Cell) : Nat → Nat → Nat
  | _, 0 => 0
  | a, n + 1 => rdCell d m a + 256 * rdCells d m (a + 1) n

/-- A list of bytes written from `a` on. -/
def wrCells (d : Byte) (m : List Host.Cell) : Nat → List Nat → List Host.Cell
  | _, [] => m
  | a, v :: vs => wrCells d (wrCell d m a v) (a + 1) vs

/-- What an unlisted byte of device memory reads as: the wipe pattern of R335, and of host memory (log 5). -/
def memDefault : Byte := 0

/-- What an unlisted byte of the NVM reads as: the erased value. -/
def nvmDefault : Byte := 0xFF

/-- The canonical form of a memory. -/
def Memory.wf (d : Byte) (m : List Host.Cell) : Bool := Tab.wf d m

/-! ## Device memory -/

/-- The places of R294. -/
inductive Region where
  | stack (d : Nat)
  | tier
  | scratch (d g : Nat)
  | control
  | unmapped
  deriving DecidableEq, Repr

/-- Where a device address lies (R294, R295). -/
def State.region (s : State) (a : Nat) : Region :=
  if a < 2 ^ 40 then
    let d := a / 2 ^ 37
    if s.absent d || (s.die d).stackOut then .unmapped else .stack d
  else if a < 2 ^ 41 then (if a - 2 ^ 40 < s.tierSize then .tier else .unmapped)
  else if a < 2 ^ 41 + 2 ^ 30 then
    let k := (a - 2 ^ 41) / 2 ^ 24
    if s.absent (k / 8) then .unmapped else .scratch (k / 8) (k % 8)
  else if a ≥ 3 * 2 ^ 40 ∧ a < 3 * 2 ^ 40 + 2 ^ 26 then .control
  else .unmapped

/-- Stacked DRAM or the LPDDR5X tier. -/
def Region.isDram : Region → Bool
  | .stack _ => true
  | .tier => true
  | _ => false

/-- Stacked DRAM, the tier or gathering scratch. -/
def Region.isMemory : Region → Bool
  | .stack _ => true
  | .tier => true
  | .scratch _ _ => true
  | _ => false

/-- Whether the `n` bytes from `a` all lie in stacked DRAM or the tier: the first and the last of them do, and so does every
stack that they touch (R294, R295). -/
def State.dram (s : State) (a n : Nat) : Bool :=
  (s.region a).isDram && (n == 0 || ((s.region (a + n - 1)).isDram &&
    (List.range 8).all fun d => !(a < (d + 1) * 2 ^ 37 && d * 2 ^ 37 < a + n) || (s.region (d * 2 ^ 37)).isDram))

/-- Whether they lie in one of those regions: one die's stack, or the tier. -/
def State.oneDram (s : State) (a n : Nat) : Bool := s.dram a n && decide (s.region a = s.region (a + n - 1))

/-- First byte of the scratch of gathering g of die d (R294). -/
def scratchBase (d g : Nat) : Nat := 2 ^ 41 + gi d g * 2 ^ 24

/-- Byte of device memory. -/
def State.rdB (s : State) (a : Nat) : Nat := rdCell memDefault s.mem a

/-- `n` bytes of device memory, little-endian. -/
def State.rd (s : State) (a n : Nat) : Nat := rdCells memDefault s.mem a n

/-- Bytes of device memory as a list. -/
def State.rdL (s : State) (a n : Nat) : List Nat := leBytes n (s.rd a n)

/-- Bytes written to device memory. -/
def State.wrL (s : State) (a : Nat) (l : List Nat) : State := { s with mem := wrCells memDefault s.mem a l }

/-- Bytes of a bit field of `w` bits at bit `b` of byte `a`, as masked cells. -/
def maskCells (a b w v : Nat) : List (Nat × Nat) :=
  let x := (v % 2 ^ w) <<< b
  let m := (2 ^ w - 1) <<< b
  (List.range (cdiv (b + w) 8)).map fun i => (a + i, (m >>> (8 * i)) % 256 * 256 + (x >>> (8 * i)) % 256)

/-- One masked byte written to device memory. -/
def State.wrMasked (s : State) (c : Nat × Nat) : State :=
  let m := c.2 / 256
  let v := (s.rdB c.1 &&& (255 - m)) ||| (c.2 % 256 &&& m)
  { s with mem := wrCell memDefault s.mem c.1 v }

/-- The low `n` bytes of `v` written to device memory, little-endian. -/
def State.wr (s : State) (a n v : Nat) : State := s.wrL a (leBytes n v)

/-- Granule number of an address. -/
def granule (a : Nat) : Nat := a / 64

/-- The bytes of granule `g` among the `n` bytes from `a`, as a 64-bit mask. -/
def spanMask (a n g : Nat) : Nat :=
  let lo := max a (64 * g)
  let hi := min (a + n) (64 * g + 64)
  if lo < hi then (2 ^ (hi - lo) - 1) * 2 ^ (lo - 64 * g) else 0

/-- Bytes of word `k` of a granule, as a mask. -/
def wordMask (k : Nat) : Nat := 255 * 2 ^ (8 * k)

/-- Memory whose code covers 64-bit words: the tier (R311) and tile scratch (R550). -/
def Region.byWords : Region → Bool
  | .tier | .scratch _ _ => true
  | _ => false

/-- The bytes of granule `g` whose stored contents are uncorrectable: all of a stack's granule (R301), and of one of
the tier or scratch the 64-bit words not written whole since (R302, R311, R550). -/
def State.badBytes (s : State) (g : Nat) : Nat :=
  if s.poison.contains g then
    if (s.region (64 * g)).byWords then
      (List.range 8).foldl (fun m k => if bit (Tab.get 0 s.okWords g) k then m else m + wordMask k) 0
    else 2 ^ 64 - 1
  else 0

/-- Whether some of the `n` bytes from `a` is uncorrectable (R302). -/
def State.poisoned (s : State) (a n : Nat) : Bool :=
  s.poison.any fun g => s.badBytes g &&& spanMask a n g != 0

/-- Whether a write of the bytes in mask `m` of granule `g` does not land: it leaves a part of an uncorrectable granule,
or of an uncorrectable word of the tier or of scratch, as it is (R297, R302, R311, R550). -/
def State.writeBlocked (s : State) (g m : Nat) : Bool :=
  let part (w : Nat) : Bool := m &&& w != 0 && m &&& w != w
  if s.poison.contains g then
    if (s.region (64 * g)).byWords then
      (List.range 8).any fun k => s.badBytes g &&& wordMask k != 0 && part (wordMask k)
    else part (2 ^ 64 - 1)
  else false

/-- Bits set among the first `w` of `n`. -/
def onesIn (w n : Nat) : Nat := (List.range w).foldl (fun a k => a + b2n (bit n k)) 0

/-- Of the symbols in error of a granule of 72-bit words, those of words that the byte mask `k` does not touch. -/
def untouched (m k : Nat) : Nat :=
  (List.range 8).foldl (fun a j => if k &&& wordMask j = 0 then a + bits m (72 * j) 72 * 2 ^ (72 * j) else a) 0

/-- A write forms new check symbols: the correctable errors of what it covers end, of the granule in a stack (R302) and
of the words written in the tier (R311). -/
def State.rewritten (s : State) (a n : Nat) : State :=
  { s with symErr := s.symErr.filterMap fun (g, m) =>
      let k := spanMask a n g
      let m' := if k = 0 then m else if (s.region (64 * g)).byWords then untouched m k else 0
      if m' = 0 then none else some (g, m') }

/-- R330, R302: before a write of a range lands, its lines leave every weight cache; its correctable errors end. -/
def State.invalidate (s : State) (a n : Nat) : State :=
  { s.rewritten a n with dies := s.dies.map fun (k, d) =>
      (k, { d with cache := d.cache.filter fun l => !(a / 256 ≤ l && l ≤ (a + n - 1) / 256) }) }

/-- The errors of the granules that satisfy `p` end. -/
def State.healAll (s : State) (p : Nat → Bool) : State :=
  { s with
    poison := s.poison.filter fun g => !p g
    okWords := s.okWords.filter fun q => !p q.1 }

/-- The bytes in mask `m` of granule `g` are written: a full write ends its error, and in the tier and scratch each word
written whole ends its own (R302, R311, R550). -/
def State.heal (s : State) (g m : Nat) : State :=
  if s.poison.contains g then
    if m = 2 ^ 64 - 1 then s.healAll (· == g)
    else if (s.region (64 * g)).byWords then
      let w := (List.range 8).foldl (fun w k => if m &&& wordMask k = wordMask k then w ||| 2 ^ k else w)
        (Tab.get 0 s.okWords g)
      if w = 255 then s.healAll (· == g) else { s with okWords := Tab.put 0 s.okWords g w }
    else s
  else s

/-! ## Host memory -/

/-- Bytes of host memory, little-endian. -/
def State.hrd (s : State) (a n : Nat) : Nat := rdCells memDefault s.host a n

/-- A write request to host memory; it waits while Bus Master Enable is 0 (R624). -/
def State.hwr (s : State) (a : Nat) (l : List Nat) : State :=
  if s.hif.busMaster then { s with host := wrCells memDefault s.host a l }
  else { s with hif := { s.hif with heldWrites := s.hif.heldWrites ++ [(a, l)] } }

/-! ## Interrupts -/

/-- Whether a vector is masked, for the whole function or by its own bit, which is word 3 of its table entry and 1 after reset
(R622, R648; PRESUMED, log 12). -/
def State.msixMasked (s : State) (v : Nat) : Bool :=
  bit (Tab.get 1 s.hif.msixTable (4 * v + 3)) 0 || s.hif.cfg.functionMask || !s.hif.cfg.msixEnable

/-- R648: vector `v` is signalled. CAUSE bit v is set; the message is sent, or pends while masked or while Bus Master
Enable is 0. -/
def State.signal (s : State) (v : Nat) : State :=
  let s := s.orFld .hifCause_cause 0 (1 <<< v)
  if s.msixMasked v || !s.hif.busMaster then
    { s with hif := { s.hif with msixPending := if s.hif.msixPending.contains v then s.hif.msixPending
                                                else s.hif.msixPending ++ [v] } }
  else { s with hif := { s.hif with sent := Tab.put 0 s.hif.sent v (Tab.get 0 s.hif.sent v + 1) } }

/-- Pending messages that may go now are sent. -/
def State.flushMsix (s : State) : State :=
  if s.hif.busMaster then
    let (stay, go) := s.hif.msixPending.partition s.msixMasked
    { s with hif := { s.hif with
        msixPending := stay
        sent := go.foldl (fun t v => Tab.put 0 t v (Tab.get 0 t v + 1)) s.hif.sent } }
  else s

/-! ## Events -/

/-- EVT.LOST field of a severity. -/
def lostField : Nat → Field
  | 0 => .evtLost_debug | 1 => .evtLost_info | 2 => .evtLost_warning | 3 => .evtLost_error | _ => .evtLost_fatal

/-- STEP of an event record: the low bits of the open step's schedule position, 0 while no main job runs. -/
def State.evStep (s : State) : Nat := if s.jobRuns then s.job.pos % 2 ^ 32 else 0

/-- R652: an in-band interrupt, when the board controller has enabled them. -/
def State.ibiRaise (s : State) (e : Err) : State :=
  let m := match e with
    | .thermalLimit => 1 | .thermalTrip => 2 | .deviceDegraded => 3 | _ => 0
  if m ≠ 0 ∧ s.hif.ibi then { s with hif := { s.hif with ibiOut := s.hif.ibiOut ++ [m] } } else s

/-- R658: a report reaches the recorder's input; with 1,024 waiting it is dropped and counted. -/
def State.report (s : State) (r : Report) : State :=
  if s.recorder.queue.length ≥ 1024 then s.bump (lostField r.sev) 0 1
  else { s with recorder := { s.recorder with queue := s.recorder.queue ++ [r] } }

/-- An event raised with a severity of its own. Source die, unit (255: none) and the four arguments. -/
def State.raiseSev (s : State) (e : Err) (sev die unit a0 a1 a2 a3 : Nat) : State :=
  (s.report ⟨e.code, sev, die, unit, s.timeAt die, s.evStep, a0, a1, a2, a3⟩).ibiRaise e

/-- An event of R669. -/
def State.raise (s : State) (e : Err) (die unit a0 a1 a2 : Nat) : State :=
  s.raiseSev e e.sev die unit a0 a1 a2 0

/-- ARG0 of R669: LIST_ID in [15:0] and RECORD in [28:16]. -/
def listArg (list rec : Nat) : Nat := list % 65536 + (rec % 8192) * 65536

/-- ARG0 for a check on a whole manifest. -/
def wholeArg : Nat := 0xFFFFFFFF

/-! ## Life cycle -/

/-- Life-cycle state of R588: 0 BLANK, 1 PROVISIONED, 2 FIELD, 3 SERVICE, 4 RETIRED. -/
def Fuses.state (f : Fuses) : Nat :=
  if !f.lcProv then 0 else if f.lcRetired then 4 else if f.lcCount = 0 then 1 else if f.lcCount % 2 = 1 then 2 else 3

/-! ## Fault history -/

/-- A fault-history record, queued for the NVM in SEQ order (R561, R562). Returns the SEQ. -/
def State.history (s : State) (unit kind die index detail : Nat) : State :=
  let q := s.nvm.histSeq + 1
  let r : HistRec := ⟨q, s.nvm.boot, s.timeAt die, unit, kind, die, index, detail⟩
  { s with nvm := { s.nvm with
      histSeq := q
      histQ := s.nvm.histQ ++ [r] } }

/-! ## Tokens -/

/-- Value of main-job token k of die d. -/
def State.token (s : State) (d k : Nat) : Nat := s.fld .tokEntry_value (4096 * d + k)

/-- Value of maintenance token k of die d (R278). -/
def State.mtoken (s : State) (d k : Nat) : Nat := Tab.get 0 s.mtok (256 * d + k)

/-- A token's value by bank. -/
def State.tok (s : State) (maint : Bool) (d k : Nat) : Nat := if maint then s.mtoken d k else s.token d k

/-- A token set. -/
def State.setTok (s : State) (maint : Bool) (d k v : Nat) : State :=
  if maint then { s with mtok := Tab.put 0 s.mtok (256 * d + k) v }
  else s.setFld .tokEntry_value (4096 * d + k) v

/-- Largest value of a token (R269). -/
def tokMax : Nat := 1048575

/-- R270: a signal of `c` on token k of die d; `from_` names the command that signals, as ARG0 of R669 does. -/
def State.tokSignal (s : State) (maint : Bool) (d k c from_ : Nat) : State :=
  let v := s.tok maint d k + c
  if v ≤ tokMax then s.setTok maint d k v
  else if maint then
    let s' := s.setTok true d k tokMax
    if s.mOvf.contains (256 * d + k) then s'
    else { s' with mOvf := s.mOvf ++ [256 * d + k] }.raise .tokenOverflow d 0xFF from_ k 0
  else
    let i := 4096 * d + k
    let s' := (s.setTok false d k tokMax).setFlag .tokEntry_ovf i true
    if s.flag .tokEntry_ovf i then s' else s'.raise .tokenOverflow d 0xFF from_ k 0

/-! ## Coordinates -/

/-- Lowest bit and width of an axis field: 0 T, 1 S, 2 P, 3 X, 4 D (R374). -/
def axisField : Nat → Nat × Nat
  | 0 => (15, 2) | 1 => (12, 3) | 2 => (9, 3) | 3 => (5, 4) | _ => (0, 5)

/-- Coordinate of an axis. -/
def coordOn (v a : Nat) : Nat := bits v (axisField a).1 (axisField a).2

/-- The coordinate with another value on an axis. -/
def setCoordOn (v a x : Nat) : Nat :=
  v - coordOn v a * 2 ^ (axisField a).1 + x % 2 ^ (axisField a).2 * 2 ^ (axisField a).1

/-- Extent of an axis. -/
def State.extent (s : State) (a : Nat) : Nat :=
  match a with
  | 0 => s.fld .torCoord_extT 0
  | 1 => s.fld .torCoord_extS 0
  | 2 => s.fld .torCoord_extP 0
  | 3 => s.fld .torCoord_extX 0
  | _ => s.fld .torCoord_extD 0

/-- The device's own coordinate. -/
def State.coord (s : State) : Nat := s.fld .torCoord_coord 0

/-- COORD of R123: LOGICAL with the field of every replica axis 0 (R504). -/
def State.roundCoord (s : State) : Nat :=
  (List.range 5).foldl (fun c a => if bit s.job.replica a then setCoordOn c a 0 else c) s.job.logical

end Sys2Proof.Machine
end

