-- ==== Sys2Proof/Machine/Policy.lean ====
section
/-! DEFINITION. The policy of the budget scheduler: which energy classes a die starts now, and in which order (R78, R79,
R87, R89, R682). Classes: 0 COMPUTE, 1 MEMORY, 2 and 3 as command lists carry them. -/

namespace Sys2Proof.Machine

/-- The default policy of R78, as R603 encodes it. -/
def defaultPolicy : Nat := 0x32363678393900

/-- The policy in force: the image's (R79, R602) or the default (R605). -/
def State.policy (s : State) : Nat :=
  if s.fld .secState_image 0 = 0 then defaultPolicy else crPolicy (s.image % 2 ^ 1024)

/-- Row of R78 for a state and a cause, 0 green to 6 red stack. -/
def policyRow (state cause : Nat) : Nat :=
  match state with
  | 0 => 0
  | 1 => match cause with
    | 2 => 2 | 3 => 3 | _ => 1
  | _ => match cause with
    | 2 => 5 | 3 => 6 | _ => 4

/-- Rank of a class in a row, or none where the row does not start it. Row 0 as 0x00 ranks all classes equal. -/
def classRank (policy row cls : Nat) : Option Nat :=
  let b := bits policy (8 * row) 8
  let n := if row ≥ 4 then 3 else 4
  if row = 0 ∧ b = 0 then some 0
  else (List.range n).find? fun e => bits b (2 * e) 2 == cls

/-- Rank of a class on die d now; none where nothing of the class starts (R78, R87, R89). -/
def State.rank (s : State) (d cls : Nat) : Option Nat :=
  let st := s.fld .budStatus_state d
  if st = 3 then none
  else
    let un := s.flag .budStatus_unmanaged d
    if un && cls == 0 then none
    else classRank s.policy (policyRow (if un then max 2 st else st) (s.fld .budStatus_cause d)) cls

/-- R682: deferrable work of a class waits while the die's row does not start the class. -/
def State.classStarts (s : State) (d cls : Nat) : Bool := (s.rank d cls).isSome

end Sys2Proof.Machine
end

