-- ==== Sys2Proof/Machine/Granules.lean ====
section
/-! DEFINITION. Granules of stacked DRAM, the tier and scratch (R297, R301, R302, R311, R550): the symbols in error, what a
read finds, and what a write leaves. -/

namespace Sys2Proof.Machine

/-! ## Rows -/

/-- Number of the 2 KiB row that holds an address (DEDUCED: a row is an aligned 2 KiB of its stack, log 36). -/
def rowOf (a : Nat) : Nat := a / 2048

/-- Channel, bank and row of a row of a stack (free: no rule maps an address, log 36). -/
def rowPlace (row : Nat) : Nat × Nat × Nat :=
  let p := Config.rowPlace (row % 2 ^ 26)
  (p.1 % 128, p.2.1 % 32, p.2.2 % 16384)

/-- Bank in [4:0] and row in [18:5] (R669). -/
def rowArg (row : Nat) : Nat := (rowPlace row).2.1 + 32 * (rowPlace row).2.2

/-- A row queued for repair once (R302). -/
def State.queueRow (s : State) (d row : Nat) : State :=
  let x := s.die d
  if x.rowQ.contains row then s else s.setDie d { x with rowQ := x.rowQ ++ [row] }

/-! ## Interfaces of the tier -/

/-- The interfaces in use, in the order of R308. -/
def State.tierIfaces (s : State) : List Nat := (List.range 8).filter (bit (s.fld .memLpcfg_used 0))

/-- Interface that holds a tier offset (R313). -/
def State.tierIface (s : State) (x : Nat) : Nat :=
  let l := s.tierIfaces
  l.getD (x / 4096 % max 1 l.length) 0

/-- The I/O die that drives an interface (R310). -/
def ifaceDie (i : Nat) : Nat := if i < 4 then 8 else 9

/-! ## Reads that find an error -/

/-- Granules whose contents are found to be lost, all of them; those of the job are to be restored (R571). -/
def State.lose (s : State) (g : Nat) : State :=
  let s := if s.poison.contains g then s else { s with poison := s.poison ++ [g] }
  if s.job.lost.contains g then s else { s with job := { s.job with lost := s.job.lost ++ [g] } }

/-- R302, R311, R312, R550: an uncorrectable granule is found at `a`. Counted, in the tier by words, recorded, reported,
its row queued; with inline ECC off nothing happens in the tier. A line of scratch is reported, with no channel in SRC_UNIT
(R669). -/
def State.uncorrectable (s : State) (a : Nat) : State :=
  let g := 64 * granule a
  match s.region a with
  | .stack d =>
    let s := (s.lose (granule a)).bump .memStackstat_uncorrectable d 1
    let s := ((s.setFld .memStackerr_addr d g).setFlag .memStackerr_valid d true).queueRow d (rowOf a)
    s.raise .memUncorrectable d (rowPlace (rowOf a)).1 0 g 0
  | .tier =>
    if s.flag .memLpcfg_ecc 0 then
      let s := s.lose (granule a)
      let s := s.bump .memLpcfg_uncorrectable 0 (8 - onesIn 8 (Tab.get 0 s.okWords (granule a)))
      let s := (s.setFld .memLperr_addr 0 g).setFlag .memLperr_valid 0 true
      let i := s.tierIface (a - 2 ^ 40)
      s.raise .memUncorrectable (ifaceDie i) i 0 g 0
    else s
  | .scratch d _ =>
    let s := if s.poison.contains (granule a) then s else { s with poison := s.poison ++ [granule a] }
    s.raise .scratchUncorrectable d 0xFF 0 g 0
  | _ => s

/-- The error of a read that finds an uncorrectable word at `a` (R302, R550). -/
def State.readErr (s : State) (a : Nat) : Err :=
  match s.region a with
  | .scratch _ _ => .scratchUncorrectable
  | _ => .memUncorrectable

/-- First granule of a range with an uncorrectable byte in it. -/
def State.firstPoison (s : State) (a n : Nat) : Option Nat :=
  (s.poison.filter fun g => s.badBytes g &&& spanMask a n g != 0).min?

/-! ## Symbols in error -/

/-- Symbols of a granule that its code finds in error: those that have been hit, and in a stack the one that a dead wire
of its channel carries (R301, R565). -/
def State.symbols (s : State) (g : Nat) : Nat :=
  let m := Tab.get 0 s.symErr g
  match s.region (64 * g) with
  | .stack d =>
    let ch := (rowPlace (g / 32)).1
    if !(s.die d).deadWires.isEmpty && (s.die d).deadWires.contains ch then
      m ||| 2 ^ (Config.deadSymbol (128 * d + ch) % 72)
    else m
  | .tier => m
  | _ => 0

/-- Corrections that a read of granule `g` makes: one with 1 to 3 symbols in error in a stack (R301), one for each word
with one bit in error in the tier (R311). -/
def State.corrections (s : State) (g : Nat) : Nat :=
  match s.region (64 * g) with
  | .stack _ => if s.poison.contains g then 0 else let n := onesIn 72 (s.symbols g); b2n (1 ≤ n && n ≤ 3)
  | .tier =>
    if s.flag .memLpcfg_ecc 0 then
      ((List.range 8).filter fun j => onesIn 72 (bits (s.symbols g) (72 * j) 72) == 1).length
    else 0
  | _ => 0

/-- Whether no correction can be due anywhere. -/
def State.clean (s : State) : Bool := s.symErr.isEmpty && s.dies.all fun p => p.2.deadWires.isEmpty

/-- The corrections of a read of `n` bytes from `a` counted (R302, R306, R311). -/
def State.counted (s : State) (a n : Nat) : State :=
  if n = 0 ∨ s.clean then s
  else (List.range ((a + n - 1) / 64 - a / 64 + 1)).foldl (fun s i =>
    let g := a / 64 + i
    let k := s.corrections g
    if k = 0 then s
    else match s.region (64 * g) with
      | .stack d => s.bump .memStackstat_corrected d k
      | _ => s.bump .memLpcfg_corrected 0 k) s

/-- The first uncorrectable granule among the descriptors that handles name (R302). -/
def State.handlePoison (s : State) (hs : List Nat) : Option Nat :=
  hs.findSome? fun h => s.firstPoison (s.job.descTable + 64 * h) 64

/-- Corrections counted of the descriptors that handles name. -/
def State.handlesCounted (s : State) (hs : List Nat) : State :=
  if s.clean then s else hs.foldl (fun s h => s.counted (s.job.descTable + 64 * h) 64) s

/-- The words of granule `g` that a write of `n` bytes from `a` covers in part. -/
def partWords (a n g : Nat) : List Nat :=
  (List.range 8).filter fun j =>
    let m := spanMask a n g &&& wordMask j
    m != 0 && m != wordMask j

/-- A write of a part of a granule of a stack, or of a word of the tier, reads it to form its check symbols: its corrections
are counted (R297, R302, R311). -/
def State.countedPart (s : State) (a n g : Nat) : State :=
  match s.region (64 * g) with
  | .stack d =>
    if spanMask a n g = 0 ∨ spanMask a n g = 2 ^ 64 - 1 ∨ s.corrections g = 0 then s
    else s.bump .memStackstat_corrected d (s.corrections g)
  | .tier =>
    let k := ((partWords a n g).filter fun j => onesIn 72 (bits (s.symbols g) (72 * j) 72) == 1).length
    if k = 0 || !s.flag .memLpcfg_ecc 0 then s else s.bump .memLpcfg_corrected 0 k
  | _ => s

/-- The corrections of the granules that a write covers in part, which are those at its ends. -/
def State.countedEnds (s : State) (a n : Nat) : State :=
  if n = 0 ∨ s.clean then s
  else
    let s := s.countedPart a n (granule a)
    if granule (a + n - 1) = granule a then s else s.countedPart a n (granule (a + n - 1))

/-- A write that lands: errors end (R302), and the weight caches lose the lines (R330). -/
def State.store (s : State) (a : Nat) (l : List Nat) : State :=
  let n := l.length
  let s := (s.countedEnds a n)
  let s := s.poison.foldl (fun s g => s.heal g (spanMask a n g)) s
  (s.invalidate a n).wrL a l

end Sys2Proof.Machine
end

