-- ==== Sys2Proof/Machine/Num.lean ====
section
/-! DEFINITION. Numbers: exact values, the formats of R92 and R97, rounding (R117 to R123), flushing (R127), special
values (R136 to R140) and the correctly rounded functions of R182. -/

namespace Sys2Proof.Machine

/-! ## Exact values -/

/-- An exact value: a NaN, an infinity, or the dyadic number (−1)^neg × m × 2^e. -/
inductive Val where
  | nan
  | inf (neg : Bool)
  | fin (neg : Bool) (m : Nat) (e : Int)
  deriving DecidableEq, Repr

/-- +0. -/
def Val.zero : Val := .fin false 0 0

/-- The value of an integer. -/
def Val.ofInt (i : Int) : Val := .fin (decide (i < 0)) i.natAbs 0

/-- Sign of a value; a NaN has none. -/
def Val.neg : Val → Bool
  | .nan => false
  | .inf n => n
  | .fin n _ _ => n

/-- Whether the value is a zero. -/
def Val.isZero : Val → Bool
  | .fin _ m _ => m == 0
  | _ => false

/-- Whether the value is a NaN. -/
def Val.isNan : Val → Bool
  | .nan => true
  | _ => false

/-- Whether the value is finite. -/
def Val.isFin : Val → Bool
  | .fin _ _ _ => true
  | _ => false

/-- The value with its sign inverted. -/
def Val.negate : Val → Val
  | .nan => .nan
  | .inf n => .inf (!n)
  | .fin n m e => .fin (!n) m e

/-- Magnitude. -/
def Val.abs : Val → Val
  | .nan => .nan
  | .inf _ => .inf false
  | .fin _ m e => .fin false m e

/-- R136, R137: a tensor operation reads and writes −0 as +0. -/
def Val.noNegZero : Val → Val
  | .fin n m e => if m = 0 then .zero else .fin n m e
  | v => v

/-- The signed integer mantissa of a finite value at exponent `e0 ≤ e`. -/
def scaled (n : Bool) (m : Nat) (e e0 : Int) : Int :=
  let k := (m <<< (e - e0).toNat : Nat)
  if n then -(k : Int) else k

/-- The value i × 2^e. -/
def dyadic (i : Int) (e : Int) : Val := .fin (decide (i < 0)) i.natAbs e

/-- Exact sum of two finite values; the sign of an exact zero is +. -/
def addFin (n1 : Bool) (m1 : Nat) (e1 : Int) (n2 : Bool) (m2 : Nat) (e2 : Int) : Val :=
  let e0 := min e1 e2
  dyadic (scaled n1 m1 e1 e0 + scaled n2 m2 e2 e0) e0

/-- Exact sum with the specials of R139: infinities of both signs give a NaN with INVALID (first component true). -/
def Val.add (a b : Val) : Bool × Val :=
  match a, b with
  | .nan, _ => (false, .nan)
  | _, .nan => (false, .nan)
  | .inf x, .inf y => if x = y then (false, .inf x) else (true, .nan)
  | .inf x, _ => (false, .inf x)
  | _, .inf y => (false, .inf y)
  | .fin n1 m1 e1, .fin n2 m2 e2 => (false, addFin n1 m1 e1 n2 m2 e2)

/-- Exact product with the specials of R139: 0 × ∞ gives a NaN with INVALID. -/
def Val.mul (a b : Val) : Bool × Val :=
  match a, b with
  | .nan, _ => (false, .nan)
  | _, .nan => (false, .nan)
  | .inf x, .inf y => (false, .inf (x != y))
  | .inf x, .fin n m _ => if m = 0 then (true, .nan) else (false, .inf (x != n))
  | .fin n m _, .inf y => if m = 0 then (true, .nan) else (false, .inf (n != y))
  | .fin n1 m1 e1, .fin n2 m2 e2 => (false, .fin (n1 != n2) (m1 * m2) (e1 + e2))

/-- The value times 2^k. -/
def Val.scale (k : Int) : Val → Val
  | .fin n m e => .fin n m (e + k)
  | v => v

/-- Order of two values that are not NaN, −0 equal to +0: `true` when a < b. -/
def Val.lt (a b : Val) : Bool :=
  match a, b with
  | .nan, _ => false
  | _, .nan => false
  | .inf x, .inf y => x && !y
  | .inf x, .fin _ _ _ => x
  | .fin _ _ _, .inf y => !y
  | .fin n1 m1 e1, .fin n2 m2 e2 =>
    let e0 := min e1 e2
    decide (scaled n1 m1 e1 e0 < scaled n2 m2 e2 e0)

/-- Equality by value. -/
def Val.eqv (a b : Val) : Bool := !a.isNan && !b.isNan && !a.lt b && !b.lt a

/-! ## Formats -/

/-- Element formats, in the order of R316. -/
inductive Fm where
  | fp64 | fp32 | fp16 | f16w | f8e | f8r | f6 | f4 | i8 | u8 | i4 | u4 | x48 | i32
  deriving DecidableEq, Repr

/-- R316: the format of a code; 14 and 15 are reserved. -/
def Fm.ofCode : Nat → Option Fm
  | 0 => some .fp64 | 1 => some .fp32 | 2 => some .fp16 | 3 => some .f16w | 4 => some .f8e | 5 => some .f8r
  | 6 => some .f6 | 7 => some .f4 | 8 => some .i8 | 9 => some .u8 | 10 => some .i4 | 11 => some .u4
  | 12 => some .x48 | 13 => some .i32 | _ => none

/-- Bits of one element (X48: 48 over its two planes). -/
def Fm.width : Fm → Nat
  | .fp64 => 64 | .fp32 => 32 | .fp16 => 16 | .f16w => 16 | .f8e => 8 | .f8r => 8 | .f6 => 6 | .f4 => 4
  | .i8 => 8 | .u8 => 8 | .i4 => 4 | .u4 => 4 | .x48 => 48 | .i32 => 32

/-- Whether the format is an integer format of R97 or R98. -/
def Fm.isInt : Fm → Bool
  | .i8 | .u8 | .i4 | .u4 | .i32 => true
  | _ => false

/-- Whether an integer format is signed (R97). -/
def Fm.signed : Fm → Bool
  | .u8 | .u4 => false
  | _ => true

/-- Fraction bits of a floating-point format (R92). -/
def Fm.fb : Fm → Nat
  | .fp64 => 52 | .fp32 => 23 | .fp16 => 10 | .f16w => 7 | .f8e => 3 | .f8r => 2 | .f6 => 2 | .f4 => 1
  | .x48 => 39 | _ => 0

/-- Exponent bits (R92). -/
def Fm.eb : Fm → Nat
  | .fp64 => 11 | .fp32 => 8 | .fp16 => 5 | .f16w => 8 | .f8e => 4 | .f8r => 5 | .f6 => 3 | .f4 => 2
  | .x48 => 8 | _ => 0

/-- Bias (R92). -/
def Fm.bias : Fm → Nat
  | .fp64 => 1023 | .fp32 => 127 | .fp16 => 15 | .f16w => 127 | .f8e => 7 | .f8r => 15 | .f6 => 3 | .f4 => 1
  | .x48 => 127 | _ => 0

/-- Whether the format has infinities (R92). -/
def Fm.hasInf : Fm → Bool
  | .fp64 | .fp32 | .fp16 | .f16w | .f8r | .x48 => true
  | _ => false

/-- Whether the format has a NaN (R94). -/
def Fm.hasNan : Fm → Bool
  | .f8e => true
  | f => f.hasInf

/-- Weight exponent of a subnormal's last bit: 1 − bias − m (R93). -/
def Fm.emin (f : Fm) : Int := 1 - (f.bias : Int) - f.fb

/-- Magnitude pattern of the largest finite value (R92). -/
def Fm.maxPat (f : Fm) : Nat :=
  match f with
  | .f8e => 0x7E
  | .f6 => 0x1F
  | .f4 => 0x7
  | f => (2 ^ f.eb - 1) * 2 ^ f.fb - 1

/-- The quiet NaN that the device writes (R94); X48 holds its P plane's quiet NaN. -/
def Fm.qnan : Fm → Nat
  | .fp64 => 0x7FF8000000000000 | .fp32 => 0x7FC00000 | .fp16 => 0x7E00 | .f16w => 0x7FC0 | .f8r => 0x7E
  | .f8e => 0x7F | .x48 => 0x7FC00000 <<< 16 | _ => 0

/-- Largest value of an integer format (R97). -/
def Fm.imax : Fm → Int
  | .i8 => 127 | .u8 => 255 | .i4 => 7 | .u4 => 15 | .i32 => 2147483647 | _ => 0

/-- Smallest value of an integer format (R97). -/
def Fm.imin : Fm → Int
  | .i8 => -128 | .i4 => -8 | .i32 => -2147483648 | _ => 0

/-- EMAX of R109. -/
def Fm.emax : Fm → Int
  | .fp16 => 15 | .f16w => 127 | .f8r => 15 | .f8e => 8 | .f6 => 4 | .f4 => 2 | .i8 => 6 | .i4 => 2
  | .fp64 => 1023 | .fp32 => 127 | .x48 => 127 | .u8 => 7 | .u4 => 3 | .i32 => 30

/-- Exact value of a floating-point magnitude pattern with its sign (R93, R94). -/
def decodeFloat (f : Fm) (pat : Nat) : Val :=
  let w := 1 + f.eb + f.fb
  let neg := bit pat (w - 1)
  let mag := pat % 2 ^ (w - 1)
  let e := mag / 2 ^ f.fb
  let m := mag % 2 ^ f.fb
  if f == .f8e && mag == 0x7F then .nan
  else if f.hasInf && e == 2 ^ f.eb - 1 then (if m = 0 then .inf neg else .nan)
  else if e = 0 then .fin neg m f.emin
  else .fin neg (2 ^ f.fb + m) (f.emin + (e - 1 : Nat))

/-- An X48 pattern, held as P in bits [47:16] and EXT in bits [15:0]. Where P is an infinity or a NaN, the value is P,
whatever EXT holds (R103). -/
def canonX48 (pat : Nat) : Nat := if bits pat 39 8 = 255 then pat / 65536 * 65536 else pat

/-- A pattern's value (R93 to R99, R103). P is a truncation, so the 48 bits of an X48 element read as one pattern with 39
fraction bits. -/
def decode (f : Fm) (pat : Nat) : Val :=
  if f.isInt then
    .ofInt (if f.signed then sext f.width pat else (pat % 2 ^ f.width : Nat))
  else if f == .x48 then decodeFloat .x48 (canonX48 pat)
  else decodeFloat f pat

/-! ## Flags -/

/-- Numeric flags of R133, as bits of one number. -/
def flInvalid : Nat := 1
/-- DIVZERO. -/
def flDivZero : Nat := 2
/-- OVERFLOW. -/
def flOverflow : Nat := 4
/-- UNDERFLOW. -/
def flUnderflow : Nat := 8
/-- INEXACT. -/
def flInexact : Nat := 16
/-- SATURATED. -/
def flSaturated : Nat := 32
/-- FLUSHED. -/
def flFlushed : Nat := 64
/-- NAN_BLOCK. -/
def flNanBlock : Nat := 128

/-- A flag when a condition holds. -/
def flagIf (c : Bool) (f : Nat) : Nat := if c then f else 0

/-! ## Rounding -/

/-- Rounding directions of R117, with the 16 random bits of a stochastic one. -/
inductive Rm where
  | rne | rtz | sr (rnd : Nat) | up | down
  deriving DecidableEq, Repr

/-- Number of bits of `m` below `2^fuel`. -/
def bitLenAux : Nat → Nat → Nat
  | 0, _ => 0
  | n + 1, m => if m ≥ 2 ^ n then n + 1 else bitLenAux n m

/-- Number of bits of `m`. -/
def bitLen (m : Nat) : Nat := if m = 0 then 0 else Nat.log2 m + 1

/-- An exact magnitude m × 2^e, a little more when `st` (a non-zero remainder far below), to be rounded. -/
structure Mag where
  m : Nat
  e : Int
  st : Bool := false
  deriving DecidableEq, Repr

/-- Rounds a magnitude to at most `p` significant bits, no bit below 2^emin: the integer, its exponent and whether the
result differs from the exact value (R119, R121 with the exponent range unbounded above). -/
def roundMag (rm : Rm) (neg : Bool) (p : Nat) (emin : Int) (x : Mag) : Nat × Int × Bool :=
  let top : Int := (bitLen x.m : Int) + x.e
  let q := max (top - p) emin
  if q ≤ x.e then
    let n := x.m <<< (x.e - q).toNat
    let inc := match rm with
      | .up => !neg && x.st
      | .down => neg && x.st
      | _ => false
    (n + b2n inc, q, x.st)
  else
    let sh := (q - x.e).toNat
    let n := x.m >>> sh
    let r := x.m % 2 ^ sh
    let inexact := r != 0 || x.st
    let inc := match rm with
      | .rne => decide (2 * r > 2 ^ sh) || (2 * r == 2 ^ sh && (x.st || n % 2 == 1))
      | .rtz => false
      | .sr rnd => decide ((r <<< 16) >>> sh + rnd ≥ 65536)
      | .up => !neg && inexact
      | .down => neg && inexact
    (n + b2n inc, q, inexact)

/-- Whether the direction writes an infinity when a result of that sign overflows (R121). -/
def Rm.toInf (rm : Rm) (neg : Bool) : Bool :=
  match rm with
  | .rne => true
  | .sr _ => true
  | .rtz => false
  | .up => !neg
  | .down => neg

/-- A magnitude written into a floating-point format without flushing: the pattern and the flags of R121, R140. -/
def encodeMag (f : Fm) (rm : Rm) (neg : Bool) (x : Mag) : Nat × Nat :=
  let sgn := at_ (b2n neg) (f.eb + f.fb)
  let (n, q, inexact) := roundMag rm neg (f.fb + 1) f.emin x
  let pat := (q - f.emin).toNat * 2 ^ f.fb + n
  let inx := flagIf inexact flInexact
  if pat > f.maxPat then
    if f.hasInf then
      ((if rm.toInf neg then (2 ^ f.eb - 1) * 2 ^ f.fb else f.maxPat) + sgn, flOverflow + flInexact)
    else (f.maxPat + sgn, flSaturated + inx)
  else (pat + sgn, inx)

/-- Rounds a value to an integer by the direction. -/
def roundInt (rm : Rm) (v : Val) : Int × Bool :=
  match v with
  | .fin neg m e =>
    let x : Nat × Int × Bool :=
      if e ≥ 0 then (m <<< e.toNat, 0, false)
      else
        let sh := (-e).toNat
        let n := m >>> sh
        let r := m % 2 ^ sh
        let inc := match rm with
          | .rne => decide (2 * r > 2 ^ sh) || (2 * r == 2 ^ sh && n % 2 == 1)
          | .rtz => false
          | .sr rnd => decide ((r <<< 16) >>> sh + rnd ≥ 65536)
          | .up => !neg && r != 0
          | .down => neg && r != 0
        (n + b2n inc, 0, r != 0)
    (if neg then -(x.1 : Int) else x.1, x.2.2)
  | _ => (0, false)

/-- Conversion to an integer format (R122, R140), the range given. -/
def toIntRange (lo hi : Int) (rm : Rm) (v : Val) : Int × Nat :=
  match v with
  | .nan => (0, flInvalid)
  | .inf n => (if n then lo else hi, flSaturated)
  | v =>
    let (i, inx) := roundInt rm v
    if i > hi then (hi, flSaturated + flagIf inx flInexact)
    else if i < lo then (lo, flSaturated + flagIf inx flInexact)
    else (i, flagIf inx flInexact)

/-- Whether a finite non-zero magnitude lies below the smallest normal value of the format (R127). -/
def tiny (f : Fm) (m : Nat) (e : Int) : Bool := m != 0 && decide ((bitLen m : Int) + e ≤ f.emin + f.fb)

/-- A value written to an unblocked element (R114, R121, R122, R127, R128, R136, R138, R140), as a tensor operation:
no −0, no payload. Returns the pattern and the flags; INEXACT and UNDERFLOW are dropped (R133). -/
def encodeT (f : Fm) (ftz : Bool) (rm : Rm) (v : Val) : Nat × Nat :=
  if f.isInt then
    let (i, fl) := toIntRange f.imin f.imax rm v
    (ofInt f.width i, fl &&& 0xE7)
  else
    match v with
    | .nan => if f.hasNan then (f.qnan, 0) else (0, flInvalid)
    | .inf n =>
      let sgn := at_ (b2n n) (f.eb + f.fb)
      if f.hasInf then ((2 ^ f.eb - 1) * 2 ^ f.fb + sgn, 0) else (f.maxPat + sgn, flSaturated)
    | .fin n m e =>
      if m = 0 then (0, 0)
      else if ftz && tiny f m e then (0, flFlushed)
      else
        let (p, fl) := encodeMag f rm n ⟨m, e, false⟩
        (if p % 2 ^ (f.eb + f.fb) = 0 then 0 else p, fl &&& 0xE7)

/-- An input of a tensor operation (R127, R128, R137): a subnormal reads as +0 under FTZ. -/
def inputT (f : Fm) (ftz : Bool) (pat : Nat) : Val × Nat :=
  match decode f pat with
  | .fin n m e =>
    if m = 0 then (.zero, 0)
    else if ftz && !f.isInt && tiny f m e then (.zero, flFlushed) else (.fin n m e, 0)
  | v => (v, 0)

/-- rn32 and rn64: rounding to FP32 or binary64 by RNE (R118, R153, R154), with OVERFLOW; never flushed (R129). -/
def rnTo (f : Fm) (v : Val) : Val × Nat :=
  match v with
  | .fin n m e =>
    if m = 0 then (.zero, 0)
    else
      let (p, fl) := encodeMag f .rne n ⟨m, e, false⟩
      ((decodeFloat f p).noNegZero, fl &&& flOverflow)
  | v => (v, 0)

/-! ## Stochastic bits -/

/-- The mixing function of R123. -/
def mix (z0 : Nat) : Nat :=
  let w := 2 ^ 64
  let z1 := ((z0 ^^^ (z0 >>> 30)) * 0xBF58476D1CE4E5B9) % w
  let z2 := ((z1 ^^^ (z1 >>> 27)) * 0x94D049BB133111EB) % w
  z2 ^^^ (z2 >>> 31)

/-- The inputs of R123 that do not depend on the element. -/
structure Draw where
  seed : Nat
  step : Nat
  unit : Nat
  site : Nat
  coord : Nat
  deriving DecidableEq, Repr

/-- The value z of R123 for an element index. -/
def Draw.z (d : Draw) (index : Nat) : Nat :=
  let w := 2 ^ 64
  let k1 := mix ((d.seed ^^^ ((d.step * 0x9E3779B97F4A7C15) % w)) % w)
  let k2 := mix ((k1 ^^^ ((d.unit <<< 48) % w) ^^^ (d.site <<< 32) ^^^ d.coord) % w)
  mix (k2 ^^^ (index % 2 ^ 48))

/-- RND of R123. -/
def Draw.rnd (d : Draw) (index : Nat) : Nat := d.z index % 65536

/-- R117 outside conforming vector mode: the direction of an RMODE code. -/
def rmTensor (d : Draw) (code index : Nat) : Rm :=
  match code with
  | 1 => .rtz
  | 2 => .sr (d.rnd index)
  | _ => .rne

/-- R117 in conforming vector mode. -/
def rmConf : Nat → Rm
  | 1 => .rtz
  | 2 => .up
  | 3 => .down
  | _ => .rne

/-! ## Correctly rounded functions -/

/-- Integer square root by one bit of the root at a time, from bit `n − 1` down. -/
def isqrtAux : Nat → Nat → Nat → Nat
  | 0, _, r => r
  | n + 1, x, r =>
    let c := r + 2 ^ n
    if c * c ≤ x then isqrtAux n x c else isqrtAux n x r

/-- Integer square root. -/
def isqrt (x : Nat) : Nat := isqrtAux (bitLen x / 2 + 1) x 0

/-- Quotient of two non-zero magnitudes, with at least 128 significant bits and a sticky bit. -/
def divMag (m1 : Nat) (e1 : Int) (m2 : Nat) (e2 : Int) : Mag :=
  let k := 130 + bitLen m2
  let n := m1 <<< k
  ⟨n / m2, e1 - e2 - k, n % m2 != 0⟩

/-- Square root of a non-zero magnitude, with at least 128 significant bits and a sticky bit. -/
def sqrtMag (m : Nat) (e : Int) : Mag :=
  let odd := e % 2 != 0
  let m' := if odd then 2 * m else m
  let e' := if odd then e - 1 else e
  let n := m' <<< 260
  let r := isqrt n
  ⟨r, e' / 2 - 130, r * r != n⟩

/-- Working precision of EXP2 and LOG2. DEDUCED (log 20): no FP32 input of either function lies so close to a rounding
boundary that 2^−120 of relative error could move it. -/
def fnBits : Nat := 256

/-- The product of the factors 2^(2^−i) for the set bits of a 160-bit fraction, most significant first; `c` is the
current factor, kept with `fnBits` fraction bits. -/
def exp2Aux : Nat → Nat → Nat → Nat → Nat
  | 0, _, _, acc => acc
  | n + 1, frac, c, acc =>
    let c' := isqrt (c <<< fnBits)
    exp2Aux n frac c' (if bit frac n then (acc * c') >>> fnBits else acc)

/-- 2^x for a finite x: the magnitude (R182). An integer x gives an exact power of two. The range is cut where every
format has long overflowed or vanished. -/
def exp2Mag (neg : Bool) (m : Nat) (e : Int) : Mag :=
  let big := decide ((bitLen m : Int) + e > 20)
  if m = 0 then ⟨1, 0, false⟩
  else if big then ⟨1, if neg then -1000000 else 1000000, false⟩
  else
    -- x as a fixed-point number with 160 fraction bits; an FP32 input below 2^−160 only sets the sticky bit
    let x : Int := if e + 160 ≥ 0 then scaled neg m (e + 160) 0
      else (if neg then -1 else 0)
    let ip := x / (2 ^ 160 : Nat)
    let fr := (x % (2 ^ 160 : Nat)).toNat
    if fr = 0 ∧ e + 160 ≥ 0 then ⟨1, ip, false⟩
    else ⟨exp2Aux 160 fr (2 <<< fnBits) (1 <<< fnBits), ip - fnBits, true⟩

/-- Fraction bits of log2 of a number in [1, 2), kept with 512 fraction bits: each squaring gives one bit. -/
def log2Aux : Nat → Nat → Nat → Nat
  | 0, _, acc => acc
  | n + 1, y, acc =>
    let y2 := (y * y) >>> 512
    if y2 ≥ 2 <<< 512 then log2Aux n (y2 >>> 1) (2 * acc + 1) else log2Aux n y2 (2 * acc)

/-- log2 of a positive magnitude: sign and magnitude (R182). -/
def log2Mag (m : Nat) (e : Int) : Bool × Mag :=
  let k := bitLen m - 1
  let ip : Int := e + k
  if m = 2 ^ k then (decide (ip < 0), ⟨ip.natAbs, 0, false⟩)
  else
    let fr := log2Aux 200 ((m <<< 512) >>> k) 0
    -- ip + fr / 2^200, a little more
    let t : Int := ip * (2 ^ 200 : Nat) + fr
    if t ≥ 0 then (false, ⟨t.toNat, -200, true⟩)
    else (true, ⟨(-t).toNat - 1, -200, true⟩)

/-- An exact magnitude rounded once to FP32 by RNE (R182), with the flags of R121 and the flush of R127. -/
def fn32 (ftz : Bool) (neg : Bool) (x : Mag) : Nat × Nat :=
  if ftz && tiny .fp32 x.m x.e then (0, flFlushed)
  else
    let (p, fl) := encodeMag .fp32 .rne neg x
    (if p % 2 ^ 31 = 0 then 0 else p, fl &&& flOverflow)

/-- +∞ of FP32. -/
def inf32 : Nat := 0x7F800000

/-- RECIP of R139, R182 on an FP32 value. -/
def recip32 (ftz : Bool) : Val → Nat × Nat
  | .nan => (Fm.qnan .fp32, 0)
  | .inf _ => (0, 0)
  | .fin n m e => if m = 0 then (inf32, flDivZero) else fn32 ftz n (divMag 1 0 m e)

/-- RSQRT of R139, R182. -/
def rsqrt32 (ftz : Bool) : Val → Nat × Nat
  | .nan => (Fm.qnan .fp32, 0)
  | .inf true => (Fm.qnan .fp32, flInvalid)
  | .inf false => (0, 0)
  | .fin n m e =>
    if m = 0 then (inf32, flDivZero)
    else if n then (Fm.qnan .fp32, flInvalid)
    else
      -- 1/√(m 2^e) = √(1/(m 2^e)); the quotient keeps its own sticky bit
      let q := divMag 1 0 m e
      let r := sqrtMag q.m q.e
      fn32 ftz false ⟨r.m, r.e, r.st || q.st⟩

/-- EXP2 of R139, R182. -/
def exp2_32 (ftz : Bool) : Val → Nat × Nat
  | .nan => (Fm.qnan .fp32, 0)
  | .inf n => (if n then 0 else inf32, 0)
  | .fin n m e => fn32 ftz false (exp2Mag n m e)

/-- LOG2 of R139, R182. -/
def log2_32 (ftz : Bool) : Val → Nat × Nat
  | .nan => (Fm.qnan .fp32, 0)
  | .inf true => (Fm.qnan .fp32, flInvalid)
  | .inf false => (inf32, 0)
  | .fin n m e =>
    if m = 0 then (0xFF800000, flDivZero)
    else if n then (Fm.qnan .fp32, flInvalid)
    else
      let (s, x) := log2Mag m e
      if x.m = 0 then (0, 0) else fn32 ftz s x

/-! ## Tensor scale and blocks -/

/-- The floor of log2 of a non-zero dyadic magnitude. -/
def floorLog2 (m : Nat) (e : Int) : Int := (bitLen m : Int) - 1 + e

/-- The larger of two dyadic magnitudes. -/
def maxMag (a b : Nat × Int) : Nat × Int :=
  if (Val.fin false a.1 a.2).lt (.fin false b.1 b.2) then b else a

/-- E8 of a block (R109) from the scaled values of its lanes. -/
def chooseE8 (f : Fm) (vs : List Val) : Nat :=
  if vs.any (fun v => !v.isFin) then 255
  else
    let top := vs.foldl (fun acc v => match v with
      | .fin _ m e => maxMag acc (m, e)
      | _ => acc) (0, 0)
    if top.1 = 0 then 127
    else
      let a := floorLog2 top.1 top.2
      (min 254 (max 0 (a - f.emax + 127))).toNat

/-- One element of a block whose E8 is not 255: v × 2^(127 − E8), with v the value times ISCALE, rounded once and held at
±MAXF (R110, R127, R136). The flush of R127 is tested on that product, which is the element as it is stored (DEDUCED, log
241). -/
def encodeBlkElem (f : Fm) (ftz : Bool) (rm : Rm) (e8 : Nat) (v : Val) : Nat × Nat :=
  let x := (v.scale (127 - (e8 : Int))).noNegZero
  if f.isInt then
    let (i, fl) := toIntRange (-f.imax) f.imax rm x
    (ofInt f.width i, fl &&& flSaturated)
  else
    match x with
    | .fin n m e =>
      if m = 0 then (0, 0)
      else if ftz && tiny f m e then (0, flFlushed)
      else
        let (p, fl) := encodeMag f rm n ⟨m, e, false⟩
        let sgn := at_ (b2n n) (f.eb + f.fb)
        if fl &&& (flOverflow + flSaturated) ≠ 0 ∨ p % 2 ^ (f.eb + f.fb) > f.maxPat
        then (f.maxPat + sgn, flSaturated)
        else (if p % 2 ^ (f.eb + f.fb) = 0 then 0 else p, 0)
    | _ => (0, 0)

/-- An element of a blocked tensor (R107, R110, R114), without the tensor scale. -/
def decodeBlk (f : Fm) (e8 pat : Nat) : Val :=
  if e8 = 255 then .nan else (decode f pat).scale ((e8 : Int) - 127)

/-- FP32 pattern of a positive dyadic magnitude rounded toward +∞, held at the largest finite value (R112, R365). -/
def up32 (x : Mag) : Nat :=
  let (p, _) := encodeMag .fp32 .up false x
  min p (Fm.maxPat .fp32)

/-- MAXF of R109, R112 as a dyadic magnitude. -/
def maxF (f : Fm) : Nat × Int :=
  if f.isInt then (f.imax.natAbs, 0)
  else match decodeFloat f f.maxPat with
    | .fin _ m e => (m, e)
    | _ => (0, 0)

/-- DSCALE of R112 from the amax of a tally pass. 1.0 when amax is 0 or a non-finite value was found. -/
def dscaleOf (f : Fm) (nonfin : Bool) (m : Nat) (e : Int) : Nat :=
  if nonfin || m == 0 then 0x3F800000
  else
    let (mm, me) := maxF f
    max 1 (up32 (divMag m e mm me))

/-- ISCALE of R113: 1/DSCALE to nearest, held at the largest finite value. -/
def iscaleOf (dscale : Nat) : Nat :=
  match decodeFloat .fp32 dscale with
  | .fin _ m e =>
    if m = 0 then 0x3F800000
    else min (encodeMag .fp32 .rne false (divMag 1 0 m e)).1 (Fm.maxPat .fp32)
  | _ => 0x3F800000

end Sys2Proof.Machine
end

