-- ==== Sys2Proof/Machine/Flags.lean ====
section
/-! DEFINITION. Where numeric flags go (R133, R134, R478): the sticky flags of a gathering and of a die's update
engine. -/

namespace Sys2Proof.Machine

/-- The eight flags of GTH.NUMSTAT in bit order. -/
def numFields : List Field :=
  [.gthNumstat_invalid, .gthNumstat_divzero, .gthNumstat_overflow, .gthNumstat_underflow, .gthNumstat_inexact,
   .gthNumstat_saturated, .gthNumstat_flushed, .gthNumstat_nanBlock]

/-- Flags set, sticky (R133). -/
def State.setGthFlags (s : State) (i fl : Nat) : State :=
  numFields.zipIdx.foldl (fun s (f, k) => if bit fl k then s.setFlag f i true else s) s

/-- All eight flags of a gathering set to the bits of `fl`: a replay restores them (R551), a job start clears them
(R134). -/
def State.putGthFlags (s : State) (i fl : Nat) : State :=
  numFields.zipIdx.foldl (fun s (f, k) => s.setFlag f i (bit fl k)) s

/-- Flags of the update engine and of collective encodes (R135, R478). UNDERFLOW and INEXACT are never set. -/
def State.setUpdFlags (s : State) (d fl : Nat) : State := s.orFld .updNumstat_flags d (fl &&& 0xE7)

end Sys2Proof.Machine
end

