-- ==== Sys2Proof/Machine/Tensor.lean ====
section
/-! DEFINITION. Tensor descriptors (R315 to R321): validity, the place of an element, and reading and writing elements
and blocks through the scale modes (R101 to R114). -/

namespace Sys2Proof.Machine

/-! ## Descriptors -/

/-- The descriptor of a handle, from the table of the job (R315). -/
def State.desc (s : State) (h : Nat) : Nat := s.rd (s.job.descTable + 64 * h) 64

/-- Extent of dimension k. -/
def tdExt (r k : Nat) : Nat := bits r (160 + 24 * k) 24

/-- Stride of dimension k, 1 to 3. -/
def tdStride (r k : Nat) : Nat := bits r (256 + 40 * (k - 1)) 40

/-- Device address of the element plane. -/
def tdBase (r : Nat) : Nat := bits r 0 44

/-- BOARD and slot of the element plane. -/
def tdBoard (r : Nat) : Bool := bit r 46
/-- Slot bits of a board address. -/
def tdSlot (r : Nat) : Nat := bits r 44 2

/-- Number of elements. -/
def tdCount (r : Nat) : Nat := tdExt r 0 * tdExt r 1 * tdExt r 2 * tdExt r 3

/-- Element format. -/
def tdFm (r : Nat) : Fm := (Fm.ofCode (tdFormat r)).getD .fp32

/-- Bits of one element in the element plane. -/
def Fm.planeBits (f : Fm) : Nat := if f = .x48 then 32 else f.width

/-- Blocks in one row (R318). -/
def tdRowBlocks (r : Nat) : Nat := cdiv (tdExt r 0) 32

/-- Rows of a tensor. -/
def tdRows (r : Nat) : Nat := tdExt r 1 * tdExt r 2 * tdExt r 3

/-- Bytes from the base to the end of the last element (R317). -/
def tdSpan (r : Nat) : Nat :=
  cdiv (tdExt r 0 * (tdFm r).planeBits) 8 + (tdExt r 1 - 1) * tdStride r 1 + (tdExt r 2 - 1) * tdStride r 2 +
    (tdExt r 3 - 1) * tdStride r 3

/-- Bytes of the second plane (R318, R319); 0 without one. -/
def tdSpan2 (r : Nat) : Nat :=
  if tdBlocked r = 1 then tdRowBlocks r * tdRows r
  else if tdFm r = .x48 then
    2 * tdExt r 0 + (tdExt r 1 - 1) * (tdStride r 1 / 2) + (tdExt r 2 - 1) * (tdStride r 2 / 2) +
      (tdExt r 3 - 1) * (tdStride r 3 / 2)
  else 0

/-- R105: formats that may be blocked. -/
def Fm.mayBlock : Fm → Bool
  | .fp16 | .f16w | .f8e | .f8r | .f6 | .f4 | .i8 | .i4 => true
  | _ => false

/-- A positive, finite, non-zero FP32 pattern. -/
def posFin32 (p : Nat) : Bool := 0 < p && p ≤ 0x7F7FFFFF

/-- Whether `n` bytes from `a` lie in mapped memory, outside control space, in one region. -/
def State.oneRegion (s : State) (a n : Nat) : Option Region :=
  let r := s.region a
  if n = 0 then none
  else if r = .unmapped ∨ r = .control ∨ s.region (a + n - 1) ≠ r then none
  else some r

/-- R316, R315, R321, R98, R105, R111: the fields of a descriptor are in range. -/
def tdFieldsOk (r : Nat) : Bool :=
  tdClean r && !bit r 47 && bits r 0 6 == 0 && (bit r 46 || bits r 44 2 == 0) && bits r (48 + 44) 4 == 0 &&
  tdFormat r ≤ 13 && tdKind r ≤ 4 && tdScaleMode r ≤ 2 && tdLimit r ≥ 1 &&
  tdExt r 0 ≥ 1 && tdExt r 1 ≥ 1 && tdExt r 2 ≥ 1 && tdExt r 3 ≥ 1 &&
  ((List.range 3).all fun k =>
    if tdRank r < k + 1 then tdExt r (k + 1) == 1 && tdStride r (k + 1) == 0 else tdStride r (k + 1) % 64 == 0) &&
  (tdBlocked r == 0 || (tdFm r).mayBlock) &&
  ((tdPlane2 r != 0) == (tdBlocked r == 1 || decide (tdFm r = .x48))) &&
  (!tdBoard r || (tdState r == 0 && tdSharedRead r == 0)) &&
  (tdFormat r != 13 || (tdBlocked r == 0 && tdScaleMode r == 0)) &&
  (tdScaleMode r != 1 || (posFin32 (tdDscale r) && posFin32 (tdIscale r))) &&
  tdCopyOffset r % 64 == 0 && (tdState r == 1 || tdCopyOffset r == 0) && tdSpan r ≤ tdLimit r

/-- Whether the descriptor names memory of another slot of the board (R298, R299). -/
def State.tdRemote (s : State) (r : Nat) : Bool := tdBoard r && tdSlot r != s.slot

/-- The memory of another device that a board access reaches (R294, R300): `n` bytes from `a` in one stack, or in the
tier, whose size there is not known here. -/
def farRegion (a n : Nat) : Option Region :=
  let z := a + n - 1
  if n = 0 ∨ z ≥ 2 ^ 41 then none
  else if z < 2 ^ 40 then (if a / 2 ^ 37 = z / 2 ^ 37 then some (.stack (a / 2 ^ 37)) else none)
  else if a ≥ 2 ^ 40 then some .tier
  else none

/-- R296, R321, R456: whether a descriptor is valid on this device. -/
def State.descValid (s : State) (r : Nat) : Bool :=
  tdFieldsOk r &&
  (if s.tdRemote r then
    match farRegion (tdBase r) (tdLimit r) with
    | none => false
    | some g => tdPlane2 r == 0 || farRegion (tdPlane2 r) (tdSpan2 r) == some g
   else
    match s.oneRegion (tdBase r) (tdLimit r) with
    | none => false
    | some g =>
      (tdPlane2 r == 0 || s.oneRegion (tdPlane2 r) (tdSpan2 r) == some g) &&
      (tdState r == 0 ||
        (g.isDram && s.oneRegion (tdBase r + tdCopyOffset r) (tdLimit r) == some g &&
          (tdPlane2 r == 0 || s.oneRegion (tdPlane2 r + tdCopyOffset r) (tdSpan2 r) == some g))))

/-- R284: whether a stream copies into a state tensor or to another device. -/
def State.streamWrites (s : State) (r : Nat) : Bool :=
  sdMode r == 0 &&
    (let t := s.desc (if sdDir r = 0 then sdPack r else sdBound r)
     tdState t == 1 || s.tdRemote t)

/-- A valid descriptor by its handle. -/
def State.descOf (s : State) (h : Nat) : Option Nat :=
  let r := s.desc h
  if s.descValid r then some r else none

/-- Where the element plane lies. -/
def State.home (s : State) (r : Nat) : Region := s.region (tdBase r)

/-- R37, R434: in the stack of die d or in the tier. -/
def State.homeOk (s : State) (d r : Nat) : Bool :=
  match s.home r with
  | .stack k => k == d
  | .tier => true
  | _ => false

/-! ## Places -/

/-- Coordinates of a linear index (R317). -/
def tdCoords (r idx : Nat) : Nat × Nat × Nat × Nat :=
  let a := idx / tdExt r 0
  let b := a / tdExt r 1
  (idx % tdExt r 0, a % tdExt r 1, b % tdExt r 2, b / tdExt r 2)

/-- Byte offset of the row of an element. -/
def tdRowOff (r idx : Nat) : Nat :=
  let (_, i1, i2, i3) := tdCoords r idx
  i1 * tdStride r 1 + i2 * tdStride r 2 + i3 * tdStride r 3

/-- Offset of copy `cur` for a state tensor. -/
def tdCopy (cur r : Nat) : Nat := if tdState r = 1 ∧ cur = 1 then tdCopyOffset r else 0

/-- Byte address and bit within it of an element (R101, R317). -/
def tdPlace (cur r idx : Nat) : Nat × Nat :=
  let b := (idx % tdExt r 0) * (tdFm r).planeBits
  (tdBase r + tdCopy cur r + tdRowOff r idx + b / 8, b % 8)

/-- Address of the extension half of an X48 element (R319). -/
def tdExtPlace (cur r idx : Nat) : Nat :=
  let (i0, i1, i2, i3) := tdCoords r idx
  tdPlane2 r + tdCopy cur r + 2 * i0 + i1 * (tdStride r 1 / 2) + i2 * (tdStride r 2 / 2) + i3 * (tdStride r 3 / 2)

/-- Address of the scale byte of an element's block (R318). -/
def tdScalePlace (cur r idx : Nat) : Nat :=
  tdPlane2 r + tdCopy cur r + (idx % tdExt r 0) / 32 + tdRowBlocks r * (idx / tdExt r 0)

/-! ## Elements -/

/-- Bits read at a bit place. -/
def State.rdBits (s : State) (a b w : Nat) : Nat := bits (s.rd a (cdiv (b + w) 8)) b w

/-- Bits written at a bit place; the other bits of the bytes stay. -/
def State.wrBits (s : State) (a b w v : Nat) : State :=
  let n := cdiv (b + w) 8
  let old := s.rd a n
  s.wr a n (bits old 0 b + (v % 2 ^ w) * 2 ^ b + (old / 2 ^ (b + w)) * 2 ^ (b + w))

/-- Stored pattern of an element of copy `cur`; X48 as P in [47:16] and EXT in [15:0]. -/
def State.rdElem (s : State) (cur r idx : Nat) : Nat :=
  let (a, b) := tdPlace cur r idx
  let p := s.rdBits a b (tdFm r).planeBits
  if tdFm r = .x48 then p * 65536 + s.rd (tdExtPlace cur r idx) 2 else p

/-- E8 of the block of an element. -/
def State.rdE8 (s : State) (cur r idx : Nat) : Nat := s.rd (tdScalePlace cur r idx) 1

/-! ## Scales -/

/-- Recipe exponent of a tensor kind (R115, R116). -/
def State.recipeExp (s : State) (kind : Nat) : Int :=
  let f : Field := match kind with
    | 0 => .sclRecipe_weightExp | 1 => .sclRecipe_actExp | 2 => .sclRecipe_agradExp | 3 => .sclRecipe_wgradExp
    | _ => .sclRecipe_momentExp
  max (-126) (sext 8 (s.fld f 0))

/-- DSCALE as a value (R111). -/
def State.dscale (s : State) (r : Nat) : Val :=
  match tdScaleMode r with
  | 1 => decodeFloat .fp32 (tdDscale r)
  | 2 => .fin false 1 (s.recipeExp (tdKind r))
  | _ => .fin false 1 0

/-- ISCALE as a value (R111, R113). -/
def State.iscale (s : State) (r : Nat) : Val :=
  match tdScaleMode r with
  | 1 => decodeFloat .fp32 (tdIscale r)
  | 2 => .fin false 1 (-(s.recipeExp (tdKind r)))
  | _ => .fin false 1 0

/-- The decoded value of an element (R114): exact. -/
def State.rdVal (s : State) (cur r idx : Nat) : Val :=
  let p := s.rdElem cur r idx
  let v := if tdBlocked r = 1 then decodeBlk (tdFm r) (s.rdE8 cur r idx) p else decode (tdFm r) p
  (v.mul (s.dscale r)).2

/-- An element as an operation reads it, before DSCALE (R107, R127, R128, R137): its value and FLUSHED. An element of a
NaN block is a NaN, whatever its pattern. `e8` is the scale byte of a blocked one. -/
def elemIn (f : Fm) (ftz : Bool) (e8 : Option Nat) (pat : Nat) : Val × Nat :=
  match e8 with
  | none => inputT f ftz pat
  | some e =>
    if e = 255 then (.nan, 0)
    else
      let (v, fl) := inputT f ftz pat
      (v.scale ((e : Int) - 127), fl)

/-- The scale byte of an element's block, if its tensor is blocked. -/
def State.e8Of (s : State) (cur r idx : Nat) : Option Nat := if tdBlocked r = 1 then some (s.rdE8 cur r idx) else none

/-- An element of copy `cur` as an operation reads it, with DSCALE (R114): its value and FLUSHED. -/
def State.rdIn (s : State) (cur r idx : Nat) (ftz : Bool) : Val × Nat :=
  let (v, fl) := elemIn (tdFm r) ftz (s.e8Of cur r idx) (s.rdElem cur r idx)
  ((v.mul (s.dscale r)).2.noNegZero, fl)

/-! ## Blocks -/

/-- R109, R110: a block of up to 32 values (`none` beyond the extent) encoded with an encode multiplier: E8, the 32
patterns and the flags. `rm` gives each lane's rounding. -/
def encBlock (f : Fm) (ftz : Bool) (rm : Nat → Rm) (iscale : Val) (xs : List (Option Val)) : Nat × List Nat × Nat :=
  let vs := xs.map fun o => o.map fun v => (v.mul iscale).2
  let live := vs.filterMap id
  if live.any fun v => !v.isFin then (255, xs.map fun _ => 0, flNanBlock)
  else
    let e8 := chooseE8 f live
    let out := vs.zipIdx.map fun (o, i) => match o with
      | some v => encodeBlkElem f ftz (rm i) e8 v
      | none => (0, 0)
    (e8, out.map (·.1), out.foldl (fun a p => a ||| p.2) 0)

/-- One value encoded for an unblocked tensor (R114): pattern and flags. X48 rounds to a 40-bit significand and splits
by truncation, which is the pattern's own layout (R102). -/
def encOne (f : Fm) (ftz : Bool) (rm : Rm) (iscale v : Val) : Nat × Nat := encodeT f ftz rm (v.mul iscale).2

end Sys2Proof.Machine
end

