-- ==== Sys2Proof/Machine/Sched.lean ====
section
/-! DEFINITION. Engines' queues, waits, lists and completions (R250 to R277): the shared operations of every command
that runs on an engine; and how the writes of a gathering land (R230, R235 to R237). -/

namespace Sys2Proof.Machine

/-! ## Lists and steps -/

/-- Whether a run has ended, one way or another. -/
def ListRun.ended (r : ListRun) : Bool :=
  match r.phase with
  | .done => true
  | .failed => true
  | .abandoned => true
  | _ => false

/-- Whether every main-job list of period `p` of step `n` has completed (C(p) of R61). -/
def State.periodWork (s : State) (n p : Nat) : Bool :=
  s.job.runs.all fun r => !(r.step == n && r.src.period == p) || r.ended

/-- Whether every main-job list of step `n` has completed (R462). -/
def State.stepWork (s : State) (n : Nat) : Bool := s.job.runs.all fun r => !(r.step == n) || r.ended

/-- The time from C(p) to E(p) (chapter 19, Bubbles): the timer's period is complete and has not ended. -/
def State.inBubble (s : State) : Bool := s.jobRuns && s.periodWork s.job.tstep s.job.period

/-- Lists of a step made ready to run, one run each (R264). -/
def mkRuns (lists : List StoredList) (n : Nat) : List ListRun :=
  lists.map fun l => ⟨l, n, if l.startCount = 0 then .ready else .waiting, 0, 0, 0, 0, false, 0⟩

/-- R264, R62, R283: the period of the run has started and its step may run. -/
def State.runOpen (s : State) (r : ListRun) : Bool :=
  (r.step < s.job.tstep || (r.step == s.job.tstep && r.src.period ≤ s.job.period)) && r.step ≤ s.job.pos + 1
    && !(s.job.rolling && r.step > s.job.pos)

/-! ## Phases of R683 -/

/-- R683, R280: whether a maintenance operation may start on die d now. -/
def State.maintPhase (s : State) (d op : Nat) : Bool :=
  if !s.jobRuns then true
  else
    s.inBubble &&
      ((s.job.phaseStart && (op == 1 || op == 2)) ||
       (((s.die d).tiles.any fun t => decide (t.2.st = .suspect)) && (op == 1 || op == 2)) ||
       (s.job.phaseRecover && (op == 3 || op == 5)))

/-! ## Queues -/

/-- A QCmd of record `i` of a run. -/
def mkCmd (r : ListRun) (maint : Bool) (i : Nat) : Option QCmd :=
  r.src.cmds[i]?.map fun w =>
    ⟨w, r.src.die, r.src.id, r.step, maint, i + 1, r.src.needs.getD i false, false, none, false, 0,
      r.src.bodies.getD i 0⟩

/-- R265: records of a run dispatched in order while their queues have room. -/
def State.dispatch (s : State) (maint : Bool) : Nat → ListRun → State × ListRun
  | 0, r => (s, r)
  | fuel + 1, r =>
    match mkCmd r maint r.next with
    | none => (s, r)
    | some c =>
      let u := cmEngine c.word % 16
      let q := s.queue r.src.die u
      if q.length ≥ 256 then (s, r)
      else State.dispatch (s.setQueue r.src.die u (q ++ [c])) maint fuel { r with next := r.next + 1 }

/-- Whether two runs are the same list of the same step. -/
def ListRun.same (a b : ListRun) : Bool := a.src.die == b.src.die && a.src.id == b.src.id && a.step == b.step

/-- Whether a command belongs to a run. -/
def ListRun.owns (r : ListRun) (c : QCmd) : Bool :=
  r.src.die == c.die && r.src.id == c.listId && r.step == c.step

/-- The runs of a job. -/
def State.runsOf (s : State) (maint : Bool) : List ListRun := if maint then s.job.maintRuns else s.job.runs

/-- The runs of a job replaced. -/
def State.setRuns (s : State) (maint : Bool) (rs : List ListRun) : State :=
  if maint then { s with job := { s.job with maintRuns := rs } } else { s with job := { s.job with runs := rs } }

/-- Every run that satisfies `p` changed by `f`. -/
def State.mapRuns (s : State) (maint : Bool) (p : ListRun → Bool) (f : ListRun → ListRun) : State :=
  s.setRuns maint ((s.runsOf maint).map fun r => if p r then f r else r)

/-- The run a command belongs to. -/
def State.runOf (s : State) (c : QCmd) : Option ListRun := (s.runsOf c.maint).find? (·.owns c)

/-! ## Waits -/

/-- The waits of a command as token and count, equal tokens joined (R271). -/
def cmdWaits (w : Nat) : List (Nat × Nat) :=
  let a := (cmW0Token w, cmW0Count w)
  let b := (cmW1Token w, cmW1Count w)
  if a.1 = b.1 then [(a.1, a.2 + b.2)].filter (·.2 != 0) else [a, b].filter (·.2 != 0)

/-- R284, R453: whether a command is a LATE stream that, as its descriptor stands, writes state or another device.
Validation does not see what a LATE stream writes (R353), so this is read when the command wants to start (DEDUCED,
log 60). -/
def State.lateWrites (s : State) (w : Nat) : Bool :=
  cmKind w == 2 && (let r := s.rd (cbSdesc w) 64; sdLate r == 1 && s.streamWrites r)

/-- Whether a position lies at most one after the one whose low 32 bits the CLOSED field of the commit token holds. -/
def closedBefore (step closed : Nat) : Bool := (closed + 1 + 2 ^ 32 - step % 2 ^ 32) % 2 ^ 32 < 2 ^ 31

/-- R285: a command that needs the commit token waits until every earlier step has closed. -/
def State.commitMet (s : State) (c : QCmd) : Bool :=
  c.maint || closedBefore c.step (s.fld .tokCommit_closed c.die) || !(c.commit || s.lateWrites c.word)

/-- Whether the head command may start as far as tokens go. -/
def State.cmdGranted (s : State) (c : QCmd) : Bool := s.commitMet c && (c.granted || (cmdWaits c.word).isEmpty)

/-- The instruction word at a gathering's instruction address. -/
def Gath.word (g : Gath) : Option Nat := g.prog[g.core.ip]?

/-- The run of die d that waits for its start token in a step. `i` is a LIST_ID of the main job, or 65,536 more than one of
the maintenance job. -/
def State.waitingRun (s : State) (d i step : Nat) : Option ListRun :=
  if i ≥ 65536 then
    s.job.maintRuns.find? fun r =>
      r.src.die == d && r.src.id + 65536 == i && r.step == step && decide (r.phase = .waiting)
  else s.job.runs.find? fun r =>
    r.src.die == d && r.src.id == i && r.step == step && decide (r.phase = .waiting) && s.runOpen r

/-- What a waiter waits for, when it waits: die, bank, and the tokens with their counts. -/
def State.waiterNeeds (s : State) (w : Waiter) : Option (Nat × Bool × List (Nat × Nat)) :=
  match w with
  | .engine d u =>
    match s.queue d u with
    | c :: _ =>
      if s.commitMet c && !c.granted && !(cmdWaits c.word).isEmpty then some (d, c.maint, cmdWaits c.word) else none
    | [] => none
  | .tokw d g =>
    let x := s.gath d g
    match x.cmd, x.word with
    | some c, some i =>
      if ct1Opcode i = 0x10 ∧ !x.tokGranted ∧ s.flag .gthSeqstat_waiting (gi d g) ∧ ct1Count i ≠ 0
      then some (d, c.maint, [(ct1Token i, ct1Count i)]) else none
    | _, _ => none
  | .list d i n => (s.waitingRun d i n).map fun r => (d.val, decide (i ≥ 65536), [(r.src.startToken, r.src.startCount)])

/-- Every waiter the device can have now, in a fixed order: engines, gatherings, lists. -/
def State.waiters (s : State) : List Waiter :=
  ((List.finRange 8).flatMap fun d => (List.finRange 14).map fun u => Waiter.engine d u) ++
  ((List.finRange 8).flatMap fun d => (List.finRange 8).map fun g => Waiter.tokw d g) ++
  (s.job.runs.filterMap fun r =>
    if h : r.src.die < 8 then (if r.phase = .waiting ∧ s.runOpen r then some (Waiter.list ⟨r.src.die, h⟩ r.src.id r.step) else none)
    else none) ++
  s.job.maintRuns.filterMap fun r =>
    if h : r.src.die < 8 then (if r.phase = .waiting then some (Waiter.list ⟨r.src.die, h⟩ (r.src.id + 65536) r.step) else none)
    else none

/-- A queue head notes when it came to the head (R277). -/
def State.stampHeads (s : State) : State :=
  { s with queues := s.queues.map fun (k, q) =>
      (k, match q with
        | c :: r => (if c.since.isNone then { c with since := some s.now } else c) :: r
        | [] => []) }

/-- Record of the command at the head of the queue of a waiting engine; other waiters stand behind the engines. -/
def State.waiterIndex (s : State) (w : Waiter) : Nat :=
  match w with
  | .engine d u => match s.queue d u with
    | c :: _ => c.index
    | [] => 0
  | _ => 8192

/-- A waiter put behind those of its record or of an earlier one. -/
def State.insertWaiter (s : State) (w : Waiter) : List Waiter → List Waiter
  | [] => [w]
  | x :: r => if s.waiterIndex w < s.waiterIndex x then w :: x :: r else x :: s.insertWaiter w r

/-- R272: units that have begun to wait join the order, and units that wait no more leave it. Those that begin together
stand in record order, the order of their dispatch (R265). -/
def State.enrol (s : State) : State :=
  let s := s.stampHeads
  let live := s.waits.filter fun p => (s.waiterNeeds p).isSome
  let new := s.waiters.filter fun w => (s.waiterNeeds w).isSome && !live.contains w
  { s with waits := live ++ new.foldl (fun l w => s.insertWaiter w l) [] }

/-- Whether two waiters compete for a token of one bank of one die. -/
def sharesToken (a b : Nat × Bool × List (Nat × Nat)) : Bool :=
  a.1 == b.1 && a.2.1 == b.2.1 && a.2.2.any fun p => b.2.2.any fun q => p.1 == q.1

/-- R271, R272: whether waiter `w` may be granted: its tokens hold enough, and no earlier wait names one of them. -/
def State.grantable (s : State) (w : Waiter) : Bool :=
  match s.waiterNeeds w with
  | none => false
  | some n =>
    n.2.2.all (fun p => s.tok n.2.1 n.1 p.1 ≥ p.2) &&
    ((s.waits.takeWhile fun p => p != w).all fun p =>
      match s.waiterNeeds p with
      | some m => !sharesToken m n
      | none => true)

/-- The tokens of a grant taken in one step. -/
def State.takeTokens (s : State) (maint : Bool) (d : Nat) (l : List (Nat × Nat)) : State :=
  l.foldl (fun s p => s.setTok maint d p.1 (s.tok maint d p.1 - p.2)) s

/-! ## Completion -/

/-- A write of a part of one granule by the device itself: it lands, or the read for its check symbols finds an uncorrectable
error, which is reported (R297, R302). Answers whether it landed. -/
def State.wrPart (s : State) (a : Nat) (l : List Nat) : State × Bool :=
  if s.writeBlocked (granule a) (spanMask a l.length (granule a)) then (s.uncorrectable a, false) else (s.store a l, true)

/-- A record of R267 or R448: bytes 8 to 63 first, bytes 0 to 7 last. In a stack both are partial writes, and none lands in an
uncorrectable granule; the second is not tried where the first did not land (DEDUCED, log 31). In the tier both write
whole words. Answers whether the record is there. -/
def State.putRecord (s : State) (a v : Nat) : State × Bool :=
  if s.dram a 64 then
    let p := s.wrPart (a + 8) (leBytes 56 (v / 2 ^ 64))
    if p.2 then p.1.wrPart a (leBytes 8 v) else p
  else (s, true)

/-- A record written, whether or not it lands. -/
def State.wrRecord (s : State) (a v : Nat) : State := (s.putRecord a v).1

/-- The list completion record of R267. -/
def completionRec (status engine err step record list tStart tEnd arg : Nat) : Nat :=
  status + engine * 2 ^ 8 + err * 2 ^ 16 + (step % 2 ^ 32) * 2 ^ 32 + record * 2 ^ 64 + list * 2 ^ 80 +
    tStart * 2 ^ 96 + tEnd * 2 ^ 160 + (arg % 2 ^ 32) * 2 ^ 224

/-- Status codes of R267. -/
def stDone : Nat := 1
/-- REJECTED. -/
def stRejected : Nat := 2
/-- ERROR. -/
def stError : Nat := 3
/-- ABANDONED. -/
def stAbandoned : Nat := 4
/-- DISCARDED. -/
def stDiscarded : Nat := 5

/-- The completion record of a run written now. -/
def State.endRun (s : State) (r : ListRun) (status engine err record arg : Nat) : State :=
  s.wrRecord r.src.completion
    (completionRec status engine err r.step record r.src.id r.tStart (s.timeAt r.src.die) arg)

/-- R267: a run all of whose commands have completed gets its record DONE. -/
def State.listComplete (s : State) (maint : Bool) (r : ListRun) : State :=
  if r.phase = .running ∧ r.doneCount ≥ r.src.cmds.length then
    (s.endRun r stDone 0xFF 0 0 0).mapRuns maint r.same fun x => { x with phase := .done }
  else s

/-- The token signals of a command (R255): die, token, count. -/
def cmdSignals (w : Nat) : List (Nat × Nat × Nat) :=
  [(cmS0Die w, cmS0Token w, cmS0Count w), (cmS1Die w, cmS1Token w, cmS1Count w)].filter (·.2.2 != 0)

/-- Token signals of the command `from_` sent. -/
def State.sendSignals (s : State) (maint : Bool) (from_ : Nat) (l : List (Nat × Nat × Nat)) : State :=
  l.foldl (fun s p => s.tokSignal maint p.1 p.2.1 p.2.2 from_) s

/-- R292: the time that a recompute-marked command has run is added to its die and layer, in the account of its step. Time
of run-ahead that is abandoned stays in the account of the step it ran for (DEDUCED, log 204). -/
def State.recompute (s : State) (c : QCmd) : State :=
  if cmRecompute c.word = 1 ∧ !c.maint then
    let t := s.now - c.tStart
    let l := cmLayer c.word
    let layers := match s.job.active with
      | some m => m.layers
      | none => 0
    let x := s.die c.die
    let add (n : Nat) : Nat := min (2 ^ 32 - 1) (n + t)
    if c.step ≤ s.job.pos then
      let s := s.setDie c.die { x with recompute := add x.recompute }
      if l < layers then { s with job := { s.job with layerT := Tab.put 0 s.job.layerT l (Tab.get 0 s.job.layerT l + t) } }
      else { s with job := { s.job with layersOver := s.job.layersOver + 1 } }
    else
      let s := s.setDie c.die { x with recomputeNext := add x.recomputeNext }
      if l < layers then
        { s with job := { s.job with layerTNext := Tab.put 0 s.job.layerTNext l (Tab.get 0 s.job.layerTNext l + t) } }
      else { s with job := { s.job with layersOverNext := s.job.layersOverNext + 1 } }
  else s

/-- Whether a command has been left behind by a stop: it belongs to no list any more. -/
def QCmd.loose (c : QCmd) : Bool := c.listId ≥ 65536

/-- Of these, whether its time has been counted at the stop (R292). -/
def QCmd.counted (c : QCmd) : Bool := c.listId ≥ 131072

/-- R253, R274: the signals of a command that has written on the dies `offs` (8 the I/O dies' memory, 99 another device):
those on whose die alone it has written go at once, and the others wait for acknowledgements. -/
def State.signalsOf (s : State) (c : QCmd) (offs : List Nat) : State :=
  let (wait, now) := (cmdSignals c.word).partition fun p => offs.any (· != p.1)
  let a := listArg c.listId c.index
  let s := s.sendSignals c.maint a now
  if wait.isEmpty then s else { s with signals := s.signals ++ [⟨wait, c.maint, a⟩] }

/-- R253, R274: a command has completed. One that a stop has left behind still signals, as long as no later job runs
(R268; DEDUCED, log 197), and belongs to no list. -/
def State.completeCmd (s : State) (c : QCmd) (offs : List Nat) : State :=
  if c.loose then (if s.jobRuns then s else s.signalsOf c offs)
  else
    let s := ((s.recompute c).signalsOf c offs).mapRuns c.maint (·.owns c) fun r => { r with doneCount := r.doneCount + 1 }
    match s.runOf c with
    | some r => s.listComplete c.maint r
    | none => s

/-- The head of engine u of die d with every condition of R251 but the free slot met. R280: a maintenance command does
not start where the queue holds a main-job command. -/
def State.startable (s : State) (d u kind : Nat) : Option QCmd :=
  match s.queue d u with
  | c :: q =>
    if cmKind c.word = kind ∧ s.cmdGranted c ∧ !(c.maint && q.any (fun x => !x.maint)) then
      some { c with tStart := s.now }
    else none
  | [] => none

/-- Only commands that satisfy `p` stay in the queues. An engine whose waiting head goes waits anew with the next one, if
that waits (R272). -/
def State.filterQueues (s : State) (p : QCmd → Bool) : State :=
  { s with
    queues := s.queues.map fun (k, q) => (k, q.filter p)
    waits := s.waits.filter fun w => match w with
      | .engine d u => match s.queue d u with
        | c :: _ => p c
        | [] => true
      | _ => true }

/-- The head command leaves its queue. -/
def State.popQueue (s : State) (d u : Nat) : State := s.setQueue d u ((s.queue d u).drop 1)

/-! ## Landing -/

/-- Lanes below the new register's valid count come from it; masked lanes keep their patterns (R173, R214). -/
def VReg.land (old new : VReg) : VReg :=
  { new with pat := (new.pat.takeWhile fun p => p.1 < new.valid) ++ old.pat.filter fun p => p.1 ≥ new.valid }

/-- Granules in error of which some masked cells write a part: such a write does not land (R297, R302, R550). -/
def State.blockedBy (s : State) (cells : List (Nat × Nat)) : List Nat :=
  s.poison.filter fun g =>
    let mine := cells.filter fun c => c.1 / 64 == g
    let full := mine.foldl (fun m c => if c.2 / 256 = 255 then m ||| 2 ^ (c.1 % 64) else m) 0
    s.writeBlocked g full || mine.any fun c => c.2 / 256 != 255 && s.badBytes g &&& 2 ^ (c.1 % 64) != 0

/-- One write lands. Earlier contents of scratch bytes join the replay log (R551). A partial write of a line in error
does not land, and the program will stop for it. -/
def State.landOne (s : State) (d g : Nat) (w : Wr) : State :=
  let x := s.gath d g
  let k := x.core
  match w with
  | .scalar i v => s.setGath d g { x with core := { k with s := Tab.put 0 k.s i v } }
  | .count i v => s.setGath d g { x with core := { k with ct := Tab.put 0 k.ct i v } }
  | .gen i v => s.setGath d g { x with core := { k with ag := Tab.put 0 k.ag i v } }
  | .vector i r => s.setGath d g { x with core := { k with v := Tab.upd k.v i ((Tab.get {} k.v i).land r) } }
  | .mem cells =>
    let bad := s.blockedBy cells
    let cells := if bad.isEmpty then cells else cells.filter fun c => !bad.contains (c.1 / 64)
    let log (t : Tab Nat) := cells.foldl (fun t c =>
      if t.any (·.1 == c.1) then t else Tab.upd t c.1 (s.rdB c.1)) t
    let x := { x with
      ckpt := x.ckpt.map fun c => { c with log := log c.log }
      older := x.older.map fun c => { c with log := log c.log }
      wrote := x.wrote || !cells.isEmpty
      badWrite := bad.head? <|> x.badWrite }
    let full (g : Nat) : Nat := cells.foldl (fun m c =>
      if c.1 / 64 = g ∧ c.2 / 256 = 255 then m ||| 2 ^ (c.1 % 64) else m) 0
    let s := s.poison.foldl (fun s g => s.heal g (full g)) s
    cells.foldl State.wrMasked (s.setGath d g x)

/-- A pending write put in landing order (R237). Writes of one beat land in issue order, and make no hazard (DESIGN CHOICE,
log 234). -/
def pendInsert (p : Pend) : List Pend → List Pend
  | [] => [p]
  | q :: r => if p.beat < q.beat ∨ (p.beat = q.beat ∧ p.order < q.order) then p :: q :: r else q :: pendInsert p r

/-- Every pending write whose beat has come by beat `t` lands, in landing order (R235 to R237). -/
def State.landTo (s : State) (d g t : Nat) : State :=
  let x := s.gath d g
  let due := (x.pend.filter fun p => p.beat ≤ t).foldl (fun l p => pendInsert p l) []
  due.foldl (fun s p => s.landOne d g p.wr)
    (s.setGath d g { x with pend := x.pend.filter fun p => decide (t < p.beat) })

/-- The last beat at which something issued lands. -/
def Gath.lastBeat (x : Gath) : Nat := x.pend.foldl (fun a p => max a p.beat) x.beat

/-- The gathering keeps beating until every issued instruction has completed (R230). -/
def State.landAll (s : State) (d g : Nat) : State :=
  let t := (s.gath d g).lastBeat
  let s := s.landTo d g t
  s.setGath d g { s.gath d g with beat := t }

/-- TOKS signals whose earlier instructions have all completed (R231, R549). -/
def Gath.tokReady (x : Gath) (t : PendTok) : Bool := x.pend.all fun p => decide (t.order ≤ p.order)

/-- Every waiting TOKS signalled, in order; used once all writes have landed. -/
def State.sendToks (s : State) (d g : Nat) : State :=
  let x := s.gath d g
  let (m, a) := match x.cmd with
    | some c => (c.maint, listArg c.listId c.index)
    | none => (false, wholeArg)
  x.toks.foldl (fun s t => s.tokSignal m t.die t.token t.count a) (s.setGath d g { x with toks := [] })

end Sys2Proof.Machine
end

