-- ==== Sys2Proof/Machine/Period.lean ====
section
/-! DEFINITION. What happens at period boundaries (R61 to R65, R686 to R688): monitor windows, the congestion record,
settings, the rings, arrears. -/

namespace Sys2Proof.Machine

/-! ## Monitors -/

/-- A sample of R672: a non-negative value, held exactly or with a sticky bit for a quotient, or a NaN. -/
abbrev Sample := Option Mag

/-- A whole-number sample. -/
def natSample (n : Nat) : Sample := some ⟨n, 0, false⟩

/-- Bin of a sample (R672). -/
def monBin (base : Int) : Sample → Nat
  | none => 31
  | some x =>
    if x.m = 0 ∨ floorLog2 x.m x.e < base then 0 else (min 31 (floorLog2 x.m x.e - base + 1)).toNat

/-- FP32 of a sample (R675), to nearest (DEDUCED, log 33). -/
def mon32 (x : Mag) : Nat := if x.m = 0 then 0 else (encodeMag .fp32 .rne false x).1

/-- A saturating 32-bit count, plus one. -/
def inc32 (n : Nat) : Nat := min (2 ^ 32 - 1) (n + 1)

/-- A live set with one more sample; `base` is the channel's BASE (R672). -/
def monAdd (l : MonLive) (base : Nat) (v : Sample) : MonLive :=
  let b := monBin (sext 8 base) v
  let l := { l with count := inc32 l.count, bins := Tab.put 0 l.bins b (inc32 (Tab.get 0 l.bins b)) }
  match v with
  | none => l
  | some v =>
    let x := mon32 v
    { l with
      min := if l.seen then min l.min x else x
      max := if l.seen then max l.max x else x
      seen := true }

/-- A live set copied into MON.STAT and MON.HIST of channel `c`. -/
def State.monShow (s : State) (c : Nat) (l : MonLive) : State :=
  let hist := (List.range 32).foldl (fun a b => a + Tab.get 0 l.bins b * 2 ^ (32 * b)) 0
  (((s.setFld .monStat_min c (if l.seen then l.min else 0)).setFld .monStat_max c (if l.seen then l.max else 0)).setFld
    .monStat_count c l.count).setFld .monHist_bins c hist

/-- The live set of channel `c` copied into MON.STAT and MON.HIST. -/
def State.monCopy (s : State) (c : Nat) : State := s.monShow c (Tab.get {} s.mons c)

/-- A sample taken into the live set of channel `c`. -/
def State.monTake (s : State) (c : Nat) (v : Sample) : State :=
  { s with mons := Tab.upd s.mons c (monAdd (Tab.get {} s.mons c) (s.inForce .monCfg_base c) v) }

/-- A sample of source `src` at channel `c`, whose SELECT satisfies `sel` (R674). Where a window of the channel ended at this
very time, the sample belongs to that one, whose copy is made again (R687); with WINDOW 0, in the live set that goes on. -/
def State.monSample (s : State) (src : Nat) (sel : Nat → Bool) (v : Sample) (c : Nat) : State :=
  match s.monEnds.find? fun p => p.1 == c && p.2.time == s.now with
  | some (_, e) =>
    if e.source != src || !sel e.select then s
    else match e.live with
      | some l =>
        let l := monAdd l e.base v
        { s with monEnds := Tab.upd s.monEnds c { e with live := some l } }.monShow c l
      | none => (s.monTake c v).monCopy c
  | none => if s.inForce .monCfg_source c == src && sel (s.inForce .monCfg_select c) then s.monTake c v else s

/-- A sample of source `src` offered to every channel (R674). -/
def State.monFeed (s : State) (src : Nat) (sel : Nat → Bool) (v : Sample) : State :=
  (List.range 48).foldl (State.monSample · src sel v) s

/-- SELECT of a source that names a die in [3:0], 15 for all. -/
def selDie (d sel : Nat) : Bool := sel % 16 == d || sel % 16 == 15

/-- `n` C0 reads on a die (R326): one in every 1,024 is a sample of C0_LATENCY, whose time is a free value (R674; which reads
count is DESIGN CHOICE, log 129). -/
def State.c0Read (s : State) (d n : Nat) : State :=
  let k := (s.die d).c0 + n
  (List.range (k / 1024)).foldl (fun s _ =>
    let (v, s) := s.draw
    s.monFeed 2 (selDie d) (natSample v)) (s.setDie d { s.die d with c0 := k % 1024 })

/-- The written MON.CFG of channel `c` takes effect with an empty live set (R675). -/
def State.monStart (s : State) (c : Nat) : State :=
  let s := (((s.apply .monCfg_source c).apply .monCfg_select c).apply .monCfg_base c).apply .monCfg_window c
  { s with mons := Tab.upd s.mons c {} }

/-- What channel `c` keeps of the window that ends now, with its live set where the window is over (R687). -/
def State.monEnd (s : State) (c : Nat) (l : Option MonLive) : State :=
  let e : MonEnd := ⟨s.now, s.inForce .monCfg_source c, s.inForce .monCfg_select c, s.inForce .monCfg_base c, l⟩
  { s with monEnds := Tab.upd s.monEnds c e }

/-- R673: a period boundary at channel `c`. With WINDOW 0 the window never ends. -/
def State.monBoundary (s : State) (c : Nat) : State :=
  let w := s.inForce .monCfg_window c
  let l := Tab.get {} s.mons c
  if w = 0 then (s.monCopy c).monEnd c none
  else if l.elapsed + 1 < w then { s with mons := Tab.upd s.mons c { l with elapsed := l.elapsed + 1 } }
  else (((s.monCopy c).wrapAdd .monStat_windowNo c 1).monEnd c (some l)).monStart c

/-- Every monitor window that ends at this boundary ends. -/
def State.monitors (s : State) : State := (List.range 48).foldl State.monBoundary s

/-! ## Congestion -/

/-- 255 × a / n rounded to nearest; an exact half goes to even (DEDUCED, log 34). -/
def frac255 (a n : Nat) : Nat :=
  if n = 0 then 0
  else
    let q := 255 * a / n
    let r := 255 * a % n
    if 2 * r > n ∨ (2 * r = n ∧ q % 2 = 1) then q + 1 else q

/-- The congestion record of R418. -/
def State.congestion (s : State) : Nat :=
  let t := s.tor
  let bins := (List.range 48).foldl (fun a k =>
    a + frac255 (Tab.get 0 t.bins k) t.samples * 2 ^ (64 + 32 * (k / 4) + 8 * (k % 4))) 0
  s.fld .torCoord_coord 0 + s.fld .torEdition_current 0 * 2 ^ 17 + (t.samples % 2 ^ 32) * 2 ^ 32 + bins +
    (t.missed % 2 ^ 32) * 2 ^ 448 + min 65535 t.replays * 2 ^ 480 + (t.window % 65536) * 2 ^ 496

/-- The record written and a new window begun: each boundary counts as one period for WINDOW (R688). -/
def State.congWrite (s : State) : State :=
  let s := s.setFld .congRecord_record 0 s.congestion
  { s with tor := { s.tor with bins := [], samples := 0, missed := 0, replays := 0, window := s.tor.window + 1 } }

/-- Injection queue `k` of the device: 0 to 7 for the dies, 8 for the management core. -/
def State.inject (s : State) (k : Nat) (b : Bolt) : State :=
  { s with tor := { s.tor with inject := Tab.upd s.tor.inject k (Tab.get [] s.tor.inject k ++ [b]) } }

/-- The fabric context (R393). -/
def ctxFabric : Nat := 4095

/-- R419: the record sent as a MAP bolt every EVERY periods, those without a main job among them (R64, R688). -/
def State.mapSweep (s : State) : State :=
  let e := s.fld .congSweep_every 0
  if e ≠ 0 ∧ s.tor.window % e = 0 then
    s.inject 8 ⟨s.fld .congSweep_collector 0, ctxFabric, 11, s.fld .torEdition_current 0, 0, true, 0, 0,
      s.fld .congRecord_record 0⟩
  else s

/-! ## Settings -/

/-- Level of the regulator bucket of class `c` of die `d` now, in thousandths of a byte (R366, R367). A bucket not
listed is full. -/
def State.regLevel (s : State) (d c : Nat) : Nat :=
  let full := 1000 * s.inForce .yrdReg_depth (4 * d + c)
  match (s.die d).buckets.find? fun p => p.1 == c with
  | some (_, v, t) => min full (v + s.inForce .yrdReg_rate (4 * d + c) * (s.now - t))
  | none => full

/-- The level of a bucket set now. -/
def State.setRegLevel (s : State) (d c v : Nat) : State :=
  s.setDie d { s.die d with buckets := Tab.upd (s.die d).buckets c (v, s.now) }

/-- A written YRD.REG of class `c` of die `d` takes effect: its bucket has gained at the old rate until now, and goes on
from the level that this gives (R367). -/
def State.applyReg (s : State) (d c : Nat) : State :=
  let i := 4 * d + c
  if s.fld .yrdReg_rate i = s.inForce .yrdReg_rate i ∧ s.fld .yrdReg_depth i = s.inForce .yrdReg_depth i then s
  else ((s.setRegLevel d c (s.regLevel d c)).apply .yrdReg_rate i).apply .yrdReg_depth i

/-- R686 step 5: BUD.LIMIT and YRD.REG of every die take effect. -/
def State.applySettings (s : State) : State :=
  (List.range 32).foldl (fun s i => s.applyReg (i / 4) (i % 4)) (s.apply .budLimit_watts 0)

/-! ## Rings -/

/-- Fields of one of the two rings: BASE, ENTRIES, HEAD, ENABLE, SLOT. -/
def ringFields : RingSel → Field × Field × Field × Field × Field
  | .manifest => (.hifMring_base, .hifMring_entries, .hifMring_head, .hifMring_enable, .hifMring_slot)
  | .transfer => (.hifXring_base, .hifXring_entries, .hifXring_head, .hifXring_enable, .hifXring_slot)

/-- The entry `k` after the next one to take: host address and 512 bits, if valid by R632. -/
def State.ringEntry (s : State) (r : RingSel) (k : Nat) : Option (Nat × Nat) :=
  let (b, n, h, e, sl) := ringFields r
  let cnt := s.fld n 0
  if s.flag e 0 ∧ 2 ≤ cnt ∧ s.hif.busMaster ∧ s.ready then
    let a := s.fld b 0 + 64 * ((s.fld sl 0 + k) % cnt)
    let v := s.hrd a 64
    if bits v 48 16 = (s.fld h 0 + k) % 65536 then some (a, v) else none
  else none

/-- R633: every valid entry of the manifest ring taken in SEQ order. -/
def State.takeManifests : Nat → State → State
  | 0, s => s
  | fuel + 1, s =>
    match s.ringEntry .manifest s.hif.taken.length with
    | none => s
    | some x => State.takeManifests fuel { s with hif := { s.hif with taken := s.hif.taken ++ [x] } }

/-- Reading of the manifest ring: no more entries than the ring has slots. -/
def State.readManifests (s : State) : State :=
  State.takeManifests (s.fld .hifMring_entries 0 - s.hif.taken.length) s

/-- R632: HEAD and SLOT advance over one entry. -/
def State.advanceRing (s : State) (r : RingSel) : State :=
  let (_, n, h, _, sl) := ringFields r
  (s.setFld h 0 (s.fld h 0 + 1)).setFld sl 0 ((s.fld sl 0 + 1) % s.fld n 0)

/-! ## Boundaries -/

/-- Steps 3, 5 and 6 of R686, which every boundary runs (R688). -/
def State.boundary (s : State) (count : Bool) : State :=
  let s := s.monitors.congWrite.mapSweep
  let s := if count then s.wrapAdd .perCount_period 0 1 else s
  s.applySettings.readManifests

/-- N of the running main job in ns. -/
def State.nominal (s : State) : Nat := s.fld .perCfg_nominalUs 0 * 1000

/-- CAP of R65. -/
def State.cap (s : State) : Nat := s.nominal * s.fld .perCfg_catchupCap 0 / 64

/-- T(p) of R65 for the present arrears. -/
def State.target (s : State) : Nat := s.nominal - min (s.fld .perStatus_arrears 0) s.cap

/-- R65: arrears at the end of a period of length `d`. -/
def State.arrears (s : State) (d : Nat) : State :=
  let a := min (2 ^ 40 - 1) (s.fld .perStatus_arrears 0 + d - s.nominal)
  let high := a > s.fld .perCfg_arrearsEvent 0 * s.nominal && s.flag .perStatus_armed 0
  let s := s.setFld .perStatus_arrears 0 a
  let s := if high then (s.raise .arrearsHigh 15 0xFF wholeArg a 0).setFlag .perStatus_armed 0 false else s
  if a = 0 then s.setFlag .perStatus_armed 0 true else s

/-- Step 7 of R686: the next period starts; the first period of a step makes the step's lists ready. No step follows
the `steps`-th (R639). -/
def State.nextPeriod (s : State) (periods steps : Nat) : State :=
  let s := { s with job := { s.job with sTime := s.now, tLen := s.target } }
  if s.job.period + 1 < periods then { s with job := { s.job with period := s.job.period + 1 } }
  else
    let n := s.job.tstep + 1
    let s := { s with job := { s.job with
      period := 0
      tstep := n
      tOpen := if n = s.job.pos then s.now else s.job.tOpen
      tOpenNext := if n = s.job.pos then s.job.tOpenNext else Tab.put 0 s.job.tOpenNext n s.now } }
    if s.job.runs.any (fun r => r.step == n) || (steps != 0 && n > steps) then s
    else { s with job := { s.job with runs := s.job.runs ++ mkRuns s.job.lists n } }

/-- Whether the timer's period may end: its work is complete and its target has elapsed (R61). -/
def State.periodOver (s : State) : Bool :=
  s.jobRuns && s.periodWork s.job.tstep s.job.period && s.now ≥ s.job.sTime + s.job.tLen

/-- R686: the end of a period of the main job. -/
def doPeriodEnd (s : State) : State :=
  match s.job.active with
  | none => s
  | some m =>
    if s.periodOver then
      let s := s.arrears (s.now - s.job.sTime)
      let s := s.monFeed 5 (fun _ => true) (let a := s.fld .perStatus_arrears 0
        some (if a = 0 then ⟨0, 0, false⟩ else divMag a 0 1000 0))
      let s := s.boundary true
      (s.nextPeriod m.periods m.steps).enrol
    else s

/-- PERIOD_END. -/
def execPeriodEnd (s : State) : Host.Outcome State Fault Refusal := .next (doPeriodEnd s)

/-- Whether an idle period ends now (R64, R688): 1,000 µs of local time lie between two boundaries. -/
def State.idleOver (s : State) : Bool := !s.jobRuns && !s.perst && s.job.sTime + 1000000 ≤ s.now

/-- R543, R566: the device takes no main job: degraded, or it has left its job since the last reset. -/
def State.outOfService (s : State) : Bool :=
  s.flag .startStatus_degraded 0 || s.dead || s.tripped || s.lpLost ||
    s.dies.any fun p => p.2.failed && !s.fused p.1

/-- Whether the next boundary starts the accepted job (R637); a device that is degraded or has left its job starts none
(R543, R566). -/
def State.startsNext (s : State) : Bool := s.job.accepted.isSome && !s.outOfService

/-- IDLE_PERIOD_BOUNDARY: R64, R688. A boundary that starts the accepted job is JOB_START's. -/
def doIdleBoundary (s : State) : State :=
  if !s.idleOver || s.startsNext then s
  else
    let s := s.boundary false
    { s with job := { s.job with sTime := s.now } }

/-- IDLE_PERIOD_BOUNDARY. -/
def execIdlePeriodBoundary (s : State) : Host.Outcome State Fault Refusal := .next (doIdleBoundary s)

/-- Whether the I/O die of port p is in the package: a source on an excluded die gives no samples (R674). -/
def State.onJoined (s : State) (p : Nat) : Bool := p < 6 || s.flag .orgIdent_io1Joined 0

/-- CONGESTION_SAMPLE (R417, R69): occupancy of each egress port in quarters of the bins; a sample held by arrears is
counted in MISSED. PORT_OCC channels sample as well (R674). -/
def doCongestionSample (s : State) : State :=
  if !s.ready then s
  else
    let occ (p : Nat) := (s.port p).egress.length
    let s := ((List.range 12).filter s.onJoined).foldl (fun s p => s.monFeed 3 (· == p) (natSample (occ p))) s
    if s.jobRuns && s.fld .perStatus_arrears 0 > 0 && !s.inBubble then
      { s with tor := { s.tor with missed := s.tor.missed + 1 } }
    else
      let bin (n : Nat) := if n < 512 then 0 else if n < 2048 then 1 else if n < 3584 then 2 else 3
      let bins := (List.range 12).foldl (fun t p =>
        let k := 4 * p + bin (occ p)
        Tab.put 0 t k (Tab.get 0 t k + 1)) s.tor.bins
      { s with tor := { s.tor with bins := bins, samples := s.tor.samples + 1 } }

/-- CONGESTION_SAMPLE. -/
def execCongestionSample (s : State) : Host.Outcome State Fault Refusal := .next (doCongestionSample s)

/-- TRANSFER_RING_POLL (R633): with the transfer engine idle, the next valid entry is taken. A KIND 3 entry resolves
the current copy now (R644). In RETIRED no transfer is served (R592). -/
def doTransferPoll (s : State) : State :=
  match s.hif.xfer with
  | some _ => s
  | none =>
    match if s.fuses.state = 4 then none else s.ringEntry .transfer 0 with
    | none => s
    | some (a, v) =>
      let x : Xfer := { slotAddr := a, entry := v, cur := s.fld .updStep_cur 0, result := none }
      { s with hif := { s.hif with xfer := some x } }

/-- TRANSFER_RING_POLL. -/
def execTransferRingPoll (s : State) : Host.Outcome State Fault Refusal := .next (doTransferPoll s)

end Sys2Proof.Machine
end

