-- ==== Sys2Proof/Machine/Errors.lean ====
section
/-! DEFINITION. New errors in stacked DRAM, the tier and scratch, what the codes make of them (R301, R311, R312), and copies
that meet them. -/

namespace Sys2Proof.Machine

/-! ## New errors -/

/-- A symbol is hit. With inline ECC off the stored bit of a tier word turns over, and nothing shows it (R312). -/
def State.hit (s : State) (g sym : Nat) : State :=
  match s.region (64 * g) with
  | .stack _ =>
    if sym < 72 && !s.poison.contains g then { s with symErr := Tab.put 0 s.symErr g (Tab.get 0 s.symErr g ||| 2 ^ sym) }
    else s
  | .tier =>
    if s.flag .memLpcfg_ecc 0 then
      if s.badBytes g &&& wordMask (sym / 72) = 0 then
        { s with symErr := Tab.put 0 s.symErr g (Tab.get 0 s.symErr g ||| 2 ^ sym) }
      else s
    else if sym % 72 < 64 then
      let a := 64 * g + 8 * (sym / 72) + sym % 72 / 8
      s.wr a 1 (s.rdB a ^^^ 2 ^ (sym % 8))
    else s
  | _ => s

/-- The contents of `n` bytes from `a` are lost without the code's notice: free values (log 205). -/
def State.garbled (s : State) (a n : Nat) : State :=
  let (v, s) := s.draw
  s.wr a n (v % 2 ^ (8 * n))

/-- Symbols in error of granule `g` no longer held one by one. -/
def State.dropSymbols (s : State) (g m : Nat) : State := { s with symErr := Tab.put 0 s.symErr g m }

/-- R301: a granule of a stack with 4 or 5 symbols in error is uncorrectable; with more, whether the code detects it is
not stated: a free value decides, and undetected contents are free (log 205). -/
def State.judgeGranule (s : State) (g : Nat) : State :=
  let n := onesIn 72 (s.symbols g)
  let lost (s : State) : State := { s.dropSymbols g 0 with poison := s.poison ++ [g] }
  if n ≤ 3 then s
  else if n ≤ 5 then lost s
  else
    let (v, s) := s.draw
    if v % 2 = 1 then lost s else (s.dropSymbols g 0).garbled (64 * g) 64

/-- R311: a word of the tier with two bits in error is uncorrectable; with more, as for a granule of a stack. -/
def State.judgeWord (s : State) (g j : Nat) : State :=
  let m := Tab.get 0 s.symErr g
  let n := onesIn 72 (bits m (72 * j) 72)
  let s' := s.dropSymbols g (m - bits m (72 * j) 72 * 2 ^ (72 * j))
  let lost (s : State) : State :=
    let ok := if s.poison.contains g then Tab.get 0 s.okWords g else 255
    { s with
      poison := if s.poison.contains g then s.poison else s.poison ++ [g]
      okWords := Tab.put 0 s.okWords g (ok - (if bit ok j then 2 ^ j else 0)) }
  if n ≤ 1 then s
  else if n = 2 then lost s'
  else
    let (v, s') := s'.draw
    if v % 2 = 1 then lost s' else s'.garbled (64 * g + 8 * j) 8

/-- What the codes make of the symbols of granule `g`. -/
def State.judgeErrors (s : State) (g : Nat) : State :=
  match s.region (64 * g) with
  | .stack _ => if s.poison.contains g then s else s.judgeGranule g
  | .tier => (List.range 8).foldl (fun s j => s.judgeWord g j) s
  | _ => s

/-- The errors that have come about by now (log 11). -/
def State.struck (s : State) (f : Finding) : State :=
  match f with
  | .errors l =>
    let s := l.foldl (fun s p => s.hit p.1 p.2.val) s
    l.foldl (fun s p => s.judgeErrors p.1) s
  | _ => s

/-! ## Copies -/

/-- `n` bytes of device memory copied, granule by granule of the target: a granule whose source is lost, or whose target
is lost and not written whole, is not copied and is reported (R297, R302). Answers whether that happened. -/
def State.copyBytes : Nat → Nat → Nat → Nat → State → State × Bool
  | 0, _, _, _, s => (s, false)
  | fuel + 1, src, dst, n, s =>
    if n = 0 then (s, false)
    else
      let k := min n (64 - dst % 64)
      let (s, bad) := match s.firstPoison src k with
        | some g => (s.uncorrectable (64 * g), true)
        | none =>
          let s := s.counted src k
          if s.writeBlocked (granule dst) (spanMask dst k (granule dst)) then (s.uncorrectable dst, true)
          else (s.store dst (s.rdL src k), false)
      let (s, more) := State.copyBytes fuel (src + k) (dst + k) (n - k) s
      (s, bad || more)

end Sys2Proof.Machine
end

