-- ==== Sys2Proof/Machine/Stop.lean ====
section
/-! DEFINITION. How a step and a job end: the mirror of R497, the step status record of R640, the commit of R462 and
R463, the stop of R268, R290 and R570, and the end of a command in error. -/

namespace Sys2Proof.Machine

/-! ## The two copies -/

/-- Address of a byte of a state tensor in copy `cur` (0: A, 1: B), from its copy-A address (R320). -/
def copyAddr (cur a off : Nat) : Nat := if cur = 1 then a + off else a

/-- R497: every logged row copied from copy `cur` into the other copy, and the logs emptied. Answers whether a granule
could not be copied. -/
def State.mirror (s : State) (cur : Nat) : State × Bool :=
  let (s, bad) := s.dies.foldl (fun r (_, d) =>
    d.rowlog.foldl (fun (s, bad) (a, n, off) =>
      let (s, b) := State.copyBytes (n / 64 + 2) (copyAddr cur a off) (copyAddr (1 - cur) a off) n s
      (s, bad || b)) r) (s, false)
  ({ s with dies := s.dies.map fun (k, d) => (k, { d with rowlog := [], rowCount := [], stored := [] }) }, bad)

/-! ## Statistics -/

/-- Sum of two FP64 patterns rounded by RNE (rn64 of R439). -/
def add64 (a b : Nat) : Nat :=
  (encodeT .fp64 false .rne ((decodeFloat .fp64 a).add (decodeFloat .fp64 b)).2).1

/-- Entries of a layer summed in order of LIST_ID and record index (R440). -/
def sqSum (sq : List (Nat × Nat × Nat × Nat × Nat)) (layer : Nat) : Nat × Nat :=
  sq.foldl (fun (a, b) (_, _, l, x, y) => if l = layer then (add64 a x, add64 b y) else (a, b)) (0, 0)

/-- An entry put in order of LIST_ID and record index. -/
def sqInsert (e : Nat × Nat × Nat × Nat × Nat) : List (Nat × Nat × Nat × Nat × Nat) → List (Nat × Nat × Nat × Nat × Nat)
  | [] => [e]
  | x :: r => if e.1 < x.1 ∨ (e.1 = x.1 ∧ e.2.1 < x.2.1) then e :: x :: r else x :: sqInsert e r

/-! ## Step status record -/

/-- Bytes of a status record (R640). -/
def statusSize (layers : Nat) : Nat := 64 * cdiv (128 + 24 * layers) 64

/-- OUTCOME codes of R640. -/
def outCommitted : Nat := 1
/-- SKIPPED, non-finite. -/
def outSkipped : Nat := 2
/-- SKEW. -/
def outSkew : Nat := 3
/-- STOPPED. -/
def outStopped : Nat := 4

/-- The status record of the open step as one number. -/
def State.statusRec (s : State) (m : Manifest) (outcome finished err die : Nat) : Nat :=
  let num := (List.range 8).foldl (fun a d => a ||| s.fld .updNumstat_flags d) 0
  let rec_ := (List.range 8).foldl (fun a d => a + (s.die d).recompute * 2 ^ (320 + 32 * d)) 0
  let layers := (List.range m.layers).foldl (fun a l =>
    let q := sqSum s.job.sq l
    a + (q.1 + q.2 * 2 ^ 64 + Tab.get 0 s.job.layerT l * 2 ^ 128) * 2 ^ (8 * (128 + 24 * l))) 0
  outcome + finished * 2 ^ 8 + b2n s.job.pressHeld * 2 ^ 9 + num * 2 ^ 16 + (s.job.pos % 2 ^ 32) * 2 ^ 32 +
    s.fld .updStep_step 0 * 2 ^ 64 + err * 2 ^ 96 + die * 2 ^ 112 + s.job.tOpen * 2 ^ 128 + s.now * 2 ^ 192 +
    s.fld .perStatus_arrears 0 * 2 ^ 256 + rec_ + (s.job.layersOver % 2 ^ 32) * 2 ^ 576 + layers

/-- R640, R625: the record written to the status ring and vector STEP signalled; while the manifest ring is disabled
the record is dropped and counted. -/
def State.statusWrite (s : State) (m : Manifest) (outcome finished err die : Nat) : State :=
  if s.flag .hifMring_enable 0 then
    let z := statusSize m.layers
    let a := m.statusRing + z * (s.job.pos % max 1 m.statusSlots)
    (s.hwr a (leBytes z (s.statusRec m outcome finished err die))).signal 2
  else s.bump .hifCause_lostRecords 0 1

/-- Per-step accounts cleared at a close; those of the step after the closed one go on as the open step's (R292). -/
def State.clearStep (s : State) : State :=
  let ds := s.dies.map fun (k, d) => (k, { d with
    recompute := d.recomputeNext
    recomputeNext := 0
    rowlog := []
    rowCount := []
    stored := [] })
  let s := { s with dies := ds, job := { s.job with
    sq := []
    layerT := s.job.layerTNext
    layersOver := s.job.layersOverNext
    layerTNext := []
    layersOverNext := 0
    pressHeld := false } }
  ((((s.resetFld .colVerdict_nonfinite 0).resetFld .colVerdict_skew 0).resetFld .colVerdict_valid 0).resetFld
    .colVerdict_stepMin 0).resetFld .colVerdict_stepMax 0

/-- Both accounts of recompute time emptied, at a job's first step. -/
def State.clearAccounts (s : State) : State := s.clearStep.clearStep

/-! ## Collectives -/

/-- The collective record of R448. -/
def collRec (status nonfinite skew skip err step fenced smin smax lag coord lsq rsq t0 t1 : Nat) : Nat :=
  status + nonfinite * 2 ^ 8 + skew * 2 ^ 9 + skip * 2 ^ 10 + err * 2 ^ 16 + (step % 2 ^ 32) * 2 ^ 32 +
    fenced * 2 ^ 64 + smin * 2 ^ 96 + smax * 2 ^ 128 + min (2 ^ 32 - 1) lag * 2 ^ 160 + coord * 2 ^ 192 +
    lsq * 2 ^ 256 + rsq * 2 ^ 320 + t0 * 2 ^ 384 + t1 * 2 ^ 448

/-- FENCED of R448. -/
def State.fencedOf (s : State) (desc : Nat) : Nat := cdMembers desc &&& s.fld .colFence_mask (cdAxis desc)

/-- R450: every running collective of the main job ends with its record ABANDONED. -/
def State.abandonColls (s : State) : State :=
  let s := s.colls.foldl (fun s (k, c) =>
    if c.cmd.maint || c.done then s
    else s.wrRecord (cdRecord c.desc)
      (collRec stAbandoned (b2n (c.nonfinite || c.heardNf)) 0 (b2n c.skip) 0 c.cmd.step (s.fencedOf c.desc) 0 0 0 0 0 0
        c.tStart (s.timeAt (k / 16)))) s
  { s with colls := s.colls.filter fun p => p.2.cmd.maint }

/-! ## Contexts -/

/-- R394: every context of the job closes. Board-wide accesses under way end with them, and their entries of the staging
buffers are free (R690; DEDUCED, log 222). -/
def State.closeContexts (s : State) (m : Manifest) : State :=
  let s := m.ctxs.foldl (fun s e => s.setFlag .ctxEntry_open (ceContext e) false) s
  let dies := s.dies.map fun (k, x) => (k, { x with stRemote := 0 })
  { s with
    dies := dies
    tor := { s.tor with held := [], reqs := [], stores := [], waiting := [], answers := [] } }

/-! ## Commit -/

/-- Whether COL.VERDICT permits a commit (R462). -/
def State.verdictOk (s : State) : Bool :=
  let k := s.fld .updStep_step 0
  !s.flag .colVerdict_valid 0 ||
    (!s.flag .colVerdict_nonfinite 0 && !s.flag .colVerdict_skew 0 && s.fld .colVerdict_stepMin 0 == k &&
      s.fld .colVerdict_stepMax 0 == k)

/-- A transfer in progress at a commit that inverts CUR, or does not. -/
def Xfer.tear (flip : Bool) (x : Xfer) : Xfer := { x with torn := x.torn || flip }

/-- R463, R533: CUR, STEP and the commit tokens change at once on every die. A transfer of committed state in progress is
torn when CUR is inverted (R644). -/
def State.applyCommitMsg (s : State) (c : CommitMsg) : State :=
  let flip := s.fld .updStep_cur 0 != c.cur
  let s := { s with hif := { s.hif with xfer := s.hif.xfer.map (Xfer.tear flip) } }
  let s := (s.setFld .updStep_cur 0 c.cur).setFld .updStep_step 0 c.step
  (List.range 8).foldl (fun s d => (s.setFld .tokCommit_closed d c.closed).setFld .tokCommit_committed d c.committed) s

/-! ## Stop -/

/-- How a list ends at a stop or rollback: those of the open step and those never started are ABANDONED; a started or
completed run-ahead list is DISCARDED (R268, R287, R290). At a stop the record of a list that has failed keeps its ERROR in
every step. -/
def State.endLists (s : State) (all : Bool) : State :=
  let pos := s.job.pos
  let failed (r : ListRun) : Bool := all && s.job.runs.any fun q =>
    decide (q.phase = .failed) && q.src.die == r.src.die && q.src.id == r.src.id
  let s := s.job.runs.foldl (fun s r =>
    if failed r then s
    else if r.step > pos then
      match r.phase with
      | .running => s.endRun r stDiscarded 0xFF 0 0 0
      | .done => s.endRun r stDiscarded 0xFF 0 0 0
      | .failed => s
      | .abandoned => s
      | _ => if all then s.endRun r stAbandoned 0xFF 0 0 0 else s
    else if all && !r.ended then s.endRun r stAbandoned 0xFF 0 0 0
    else s) s
  if all then { s with job := { s.job with runs := s.job.runs.map fun r =>
      if r.ended then r else { r with phase := .abandoned } } }
  else s

/-- Main-job commands of steps above `pos` (of every step when `all`) leave the queues. -/
def State.purgeQueues (s : State) (all : Bool) : State :=
  s.filterQueues fun c => c.maint || (!all && c.step ≤ s.job.pos)

/-- Marks a running command as belonging to no list any more, so that its completion counts for none; its list's LIST_ID
stays readable. -/
def QCmd.detach (c : QCmd) : QCmd := if c.maint || c.loose then c else { c with listId := c.listId + 65536 }

/-- The same, and the time that it has run is in the account of R292. -/
def QCmd.settle (c : QCmd) : QCmd := if c.maint then c else { c with listId := c.listId % 65536 + 131072 }

/-- The commands that run now: programs, latched streams and collectives. -/
def State.runningCmds (s : State) : List QCmd :=
  s.gaths.filterMap (·.2.cmd) ++
  (s.yarders.flatMap fun p => p.2.slots.filterMap fun o => match o with
    | some r => if r.desc.isSome then some r.cmd else none
    | none => none) ++
  s.colls.filterMap fun p => if p.2.done then none else some p.2.cmd

/-- R292: the time that running commands have run is counted now, for those that satisfy `p`. -/
def State.countRunning (s : State) (p : QCmd → Bool) : State :=
  (s.runningCmds.filter fun c => !c.counted && p c).foldl State.recompute s

/-- Whether a latched stream reaches another device (R298, R299). -/
def State.boardWide (s : State) (r : StreamRun) : Bool :=
  r.desc.any fun sd => s.tdRemote r.bound || (sdMode sd == 0 && s.tdRemote r.pack)

/-- Whether instructions are being issued again (R553). -/
def Gath.replaying (x : Gath) : Bool := x.cmd.isSome && decide (x.order < x.replayTo)

/-- A gathering whose program is given up. -/
def Gath.dropped (x : Gath) : Gath :=
  { x with
    cmd := none
    prog := []
    toks := []
    ended := false
    tokGranted := false
    halted := false
    ckpt := none
    older := []
    replayTo := 0
    dropDue := false
    replays := [] }

/-- R287 step 2: running commands that satisfy `ahead` are abandoned; `all` detaches the others of the main job, but for
the board-wide streams, which go with their contexts (R397). A program
ends at its next instruction boundary, which is now, once everything it issued has completed, or after its replay
(R554), to whose end its time is counted unless the step ends before; a stream ends after its
current granule, and its pending start goes with it (R359). -/
def State.abandonIf (s : State) (ahead : QCmd → Bool) (all : Bool) : State :=
  let fix (c : QCmd) := if all then c.settle else c
  let replays (c : QCmd) : Bool := s.gaths.any fun p => p.2.replaying && p.2.cmd == some c
  let stopped := (List.range 64).filter fun k => match (Tab.get {} s.gaths k).cmd with
    | some c => ahead c && !(Tab.get {} s.gaths k).replaying
    | none => false
  let s := s.countRunning fun c => all || (ahead c && !replays c)
  let s := stopped.foldl (fun s k => (s.landAll (k / 8) (k % 8)).sendToks (k / 8) (k % 8)) s
  let gs := s.gaths.map fun (k, g) =>
    let g := match g.nextProg with
      | some (c, _) => if ahead c || (all && !c.maint) then { g with nextProg := none } else g
      | none => g
    match g.cmd with
    | some c =>
      if ahead c && g.replaying then (k, { g with cmd := some (if all then c.settle else c.detach), toks := [], dropDue := true })
      else if ahead c then (k, g.dropped)
      else (k, { g with cmd := some (fix c) })
    | none => (k, g)
  let gone (k sd : Nat) := s.yarders.any fun (j, y) => j / 4 == k / 4 && y.slots.any fun o => match o with
    | some r => r.sdesc == sd && r.desc.isSome && ahead r.cmd
    | none => false
  let drop (k : Nat) (r : StreamRun) : Bool :=
    ahead r.cmd || (all && !r.cmd.maint && s.boardWide r) || (r.desc.isNone && ((all && !r.cmd.maint) || gone k r.sdesc))
  let ys := s.yarders.map fun (k, y) =>
    (k, { y with slots := y.slots.map fun o => match o with
      | some r => if drop k r then none else some { r with cmd := fix r.cmd }
      | none => none })
  let s := { s with gaths := gs, yarders := ys }
  stopped.foldl (fun s k => ((s.setFlag .gthSeqstat_running k false).setFlag .gthSeqstat_waiting k false).setFlag
    .gthSeqstat_halted k false) s

/-- R287 step 2: running commands of steps above the open one are abandoned; `all` detaches the others. -/
def State.abandonRunning (s : State) (all : Bool) : State :=
  s.abandonIf (fun c => !c.maint && c.step > s.job.pos) all

/-- A maintenance operation of a maintenance list is given up. -/
def Die.idleMaint (x : Die) : Die :=
  if x.maint.any (·.maint) then { x with maint := none, testing := [] } else x

/-- R589 step 2: every maintenance list that has not ended is abandoned, with its record; its commands, its running
operations and its collectives go. -/
def State.abandonMaint (s : State) : State :=
  let s := s.job.maintRuns.foldl (fun s r => if r.ended then s else s.endRun r stAbandoned 0xFF 0 0 0) s
  let s := s.mapRuns true (fun r => !r.ended) fun r => { r with phase := .abandoned }
  let s := s.filterQueues fun c => !c.maint
  let s := s.abandonIf (·.maint) false
  let dies := s.dies.map fun (k, x) => (k, x.idleMaint)
  { s with colls := s.colls.filter fun p => !p.2.cmd.maint, dies := dies }.enrol

/-- Everything that runs on the dies ends at once: the device serves only the host and the event recorder from now on
(R90, R706). -/
def State.quiesce (s : State) : State :=
  let s := { s with
    gaths := s.gaths.map fun (k, g) => (k, { g.dropped with nextProg := none, pend := [] })
    yarders := []
    colls := []
    queues := []
    signals := []
    waits := []
    dies := s.dies.map fun (k, x) => (k, { x with maint := none, testing := [] }) }
  (List.range 64).foldl (fun s k => ((s.setFlag .gthSeqstat_running k false).setFlag .gthSeqstat_waiting k false).setFlag
    .gthSeqstat_halted k false) s

/-- CAUSE codes of FLT.STOP (R570). -/
def causeFault : Nat := 1
/-- FLT.STOP was written. -/
def causeHost : Nat := 2
/-- A command error. -/
def causeCommand : Nat := 3

/-! ## The close of a step -/

/-- Whether the step in progress is the last one (R639). -/
def State.lastStep (s : State) (m : Manifest) : Bool := m.steps != 0 && s.job.pos ≥ m.steps

/-- Host tokens consumed by run-ahead count for the step that is now open (R645). -/
def State.hostFold (s : State) : State :=
  let use := s.hif.hostAhead.foldl (fun t (k, n) => Tab.put 0 t k (Tab.get 0 t k + n)) s.hif.hostUse
  { s with hif := { s.hif with hostUse := use, hostAhead := [] } }

/-- Per-step accounts cleared, the lists of step n gone, and the next step open. -/
def State.openNext (s : State) : State :=
  let n := s.job.pos
  let s := s.clearStep.hostFold
  let s := { s with job := { s.job with
    pos := n + 1
    tOpen := Tab.get 0 s.job.tOpenNext (n + 1)
    runs := s.job.runs.filter (fun r => r.step != n)
    closing := none
    rolling := false
    phaseStart := false } }
  { s with irl := { s.irl with commit := none } }.enrol

/-- The main job is over, by a stop or because it has finished: contexts close, mirrors of the manifest read as while no
main job runs (R68, R506, R639), no arrears are kept (R64), and the period in progress ends (R688). What CATCHUP_CAP and
ARREARS_EVENT read from now on is not stated: the last job's values (DESIGN CHOICE, log 198). ARMED stays as it was (DESIGN
CHOICE, log 230). -/
def State.jobOver (s : State) (m : Manifest) : State :=
  let s := s.closeContexts m
  let s := { s with job := { s.job with active := none, rolling := false, closing := none, phaseStart := false,
                                        phaseRecover := false, stopTime := s.now } }
  let s := (((s.setFld .perCfg_nominalUs 0 0).setFld .mapJob_micro 0 0).setFld .perStatus_arrears 0 0).boundary true
  { s with job := { s.job with sTime := s.now } }

/-- R639: the job finishes when its last step has closed. -/
def State.finishJob (s : State) (m : Manifest) : State :=
  let s := s.raise .jobFinished 15 0xFF 0 m.ringSeq 0
  let s := s.clearStep
  let s := { s with irl := { s.irl with commit := none }, job := { s.job with runs := [] } }
  (((s.purgeQueues true).jobOver m).signal 3).enrol

/-- R645: host-token counts that steps up to the rolled-back one have not consumed. -/
def State.hostRestore (s : State) : State :=
  let s := { s with hif := { s.hif with hostAhead := [] } }
  s.hif.hostSig.foldl (fun s (k, n) =>
    let left := n - Tab.get 0 s.hif.hostUse k
    if left = 0 then s else s.setTok false (k / 4096) (k % 4096) (min tokMax left)) s

/-- R287 step 4: every main-job token is 0, and no signal is on its way; OVF bits are kept. -/
def State.zeroTokens (s : State) : State :=
  { s with
    rf := s.rf.filter fun p => p.1 % 512 != Field.ctorIdx .tokEntry_value
    signals := s.signals.filter (·.maint) }

/-- Steps of a stop that leave no main job. The steps open now, those whose first period has started, close without
commit (R290); the status record is that of the earliest step not closed (log 24). -/
def State.stopNow (s : State) (m : Manifest) (cause err die : Nat) : State :=
  let s := (s.endLists true).purgeQueues true
  let s := (s.abandonRunning true).abandonColls
  let s := (s.mirror (s.fld .updStep_cur 0)).1
  let s := if s.job.tstep < s.job.pos then { s with job := { s.job with tOpen := s.now } } else s
  let s := (s.statusWrite m outStopped 0 err die).clearAccounts
  let n := s.job.tstep
  let s := (List.range 8).foldl (fun s d => s.setFld .tokCommit_closed d n) s
  let s := (s.setFlag .fltStop_stopped 0 true).setFld .fltStop_cause 0 cause
  let s := { s with job := { s.job with
    pos := n
    stopped := some m } }
  ((s.jobOver m).signal 3).enrol

/-- R268, R290, R570: the main job stops. Lists end, run-ahead is discarded, collectives end, the undo mirror runs, the
open steps close without commit, the status record and the interrupts follow. -/
def State.stopJob (s : State) (cause err die : Nat) : State :=
  match s.job.active with
  | none => s
  | some m => s.stopNow m cause err die

/-! ## The close takes effect -/

/-- R462, R640: the status record of the step that closes, and the mirror into the copy that is not current from now on.
Answers whether a granule could not be copied. -/
def State.closeRecord (s : State) (m : Manifest) (out cur : Nat) : State × Bool :=
  (s.statusWrite m out (b2n (s.lastStep m)) 0 15).mirror cur

/-- A granule that the mirror could not copy stops the job once the close is done (R302; DESIGN CHOICE, log 208). -/
def State.mirrorFailed (s : State) (bad : Bool) : State :=
  if bad then s.stopJob causeCommand Err.memUncorrectable.code 15 else s

/-- R463, R285: a commit takes effect, and the next step is the open one. -/
def State.commitStep (s : State) (m : Manifest) (c : CommitMsg) : State :=
  let last := s.lastStep m
  let (s, bad) := s.closeRecord m outCommitted c.cur
  let s := s.applyCommitMsg c
  let s := { s with job := { s.job with phaseRecover := false } }
  (if last then s.finishJob m else s.openNext).mirrorFailed bad

/-- The runs after a rollback of step `n`: step n + 1 is issued again from its first list when the timer has reached it;
those of later steps, none of which has started, wait on (R264, R287). -/
def State.reissued (s : State) (n : Nat) : List ListRun :=
  (if s.job.runs.any fun r => r.step == n + 1 then mkRuns s.job.lists (n + 1) else []) ++
    s.job.runs.filter fun r => decide (r.step > n + 1)

/-- R287 steps 4 to 7, after the undo: tokens are reset, the commit token advances, discarded lists get their records, and
the next step is issued again from its first list. -/
def State.undoStep (s : State) (m : Manifest) (c : CommitMsg) (out : Nat) : State :=
  let last := s.lastStep m
  let (s, bad) := s.closeRecord m out c.cur
  let s := (s.zeroTokens.hostRestore.applyCommitMsg c).endLists false
  let s := if last then s.finishJob m
    else { s with job := { s.job with runs := s.reissued s.job.pos } }.openNext
  s.mirrorFailed bad

/-! ## Command errors -/

/-- R268: a command ends in error. Its list's record reads ERROR with its engine, code and record; the main job stops.
A maintenance command in error ends its list alone (log 25). -/
def State.failCmd (s : State) (c : QCmd) (e : Err) (detail : Nat) : State :=
  match s.runOf c with
  | none => s
  | some r =>
    let s := (s.recompute c).endRun r stError (cmEngine c.word) e.code c.index detail
    let s := s.mapRuns c.maint r.same fun x => { x with phase := .failed }
    if c.maint then
      s.filterQueues fun x => !(x.maint && r.owns x)
    else s.stopJob causeCommand e.code c.die

/-- The event of a COMMAND code (R669): SRC_UNIT is the unit, ARG1 and ARG2 as given. A word lost in a buffer has a MEMORY code,
and no channel, interface or device address to name (DESIGN CHOICE, log 248). -/
def State.cmdEvent (s : State) (c : QCmd) (e : Err) (a1 a2 : Nat) : State :=
  if e = .bufferUncorrectable then s.raise e c.die 0xFF 0 0 0
  else s.raise e c.die (cmEngine c.word % 16) (listArg c.listId c.index) a1 a2

/-- The event of a SCHEDULE code (R669), which names no unit. -/
def State.schedEvent (s : State) (c : QCmd) (e : Err) (a1 : Nat) : State :=
  s.raise e c.die 0xFF (listArg c.listId c.index) a1 0

/-- Ring SEQ of the running main job's manifest. -/
def State.ringSeq (s : State) : Nat :=
  match s.job.active with
  | some m => m.ringSeq
  | none => 0

/-- A command ends in error with its event. ARG2 of a VALIDATION code is the ring SEQ of the manifest (R669). -/
def State.errCmd (s : State) (c : QCmd) (e : Err) (a1 a2 detail : Nat) : State :=
  (s.cmdEvent c e a1 (if e.code / 256 = 1 then s.ringSeq else a2)).failCmd c e detail

/-- A fault of this device stops the main job (R565, R566): the device leaves its job until the next reset. -/
def State.leaveJob (s : State) (e : Err) (die : Nat) : State :=
  s.stopJob causeFault e.code die

end Sys2Proof.Machine
end

