-- ==== Sys2Proof/Machine/Lists.lean ====
section
/-! DEFINITION. Starting lists, waits, signals and fences (R78, R80, R264 to R277, R280 to R285). -/

namespace Sys2Proof.Machine

/-! ## Starting a list -/

/-- Whether a run is not one that a decided rollback discards (R287). -/
def State.kept (s : State) (r : ListRun) : Bool := !(s.job.rolling && r.step > s.job.pos)

/-- Runs in progress on die d. -/
def State.running (s : State) (d : Nat) : Nat :=
  ((s.job.runs.filter s.kept ++ s.job.maintRuns).filter fun r => r.src.die == d && decide (r.phase = .running)).length

/-- Main-job lists that may start on die d, in order. -/
def State.candidates (s : State) (d : Nat) : List ListRun :=
  if s.jobRuns && !bit s.irl.held d && !(s.die d).failed then
    s.job.runs.filter fun r =>
      r.src.die == d && decide (r.phase = .ready) && s.runOpen r && (s.rank d r.src.cls).isSome
  else []

/-- The best of some candidates: first one of least rank. -/
def State.best (s : State) (d : Nat) : List ListRun → Option ListRun
  | [] => none
  | r :: rs =>
    match State.best s d rs with
    | none => some r
    | some b => if (s.rank d b.src.cls).getD 9 < (s.rank d r.src.cls).getD 9 then some b else some r

/-- The list to start of some that may: the first one passed over 16 times, else the best ranked (R78, R80; DESIGN
CHOICE, log 199). -/
def State.pick (s : State) (d : Nat) (cs : List ListRun) : Option ListRun :=
  match cs.find? (fun r => r.passed ≥ 16) with
  | some r => some r
  | none => s.best d cs

/-- The main-job list to start. -/
def State.choice (s : State) (d : Nat) : Option ListRun := s.pick d (s.candidates d)

/-- R280, R683: whether a maintenance list may start on die d: no main job runs, or it is a bubble of a phase of the die
that R683 names. -/
def State.maintOpen (s : State) (d : Nat) : Bool :=
  !s.jobRuns || (s.inBubble && (s.job.phaseStart || s.job.phaseRecover ||
    (s.die d).tiles.any fun t => decide (t.2.st = .suspect)))

/-- Maintenance lists that may start on die d, in order: none beside a ready main-job list (R281), and none of a class
that the die's row does not start (R87, R89, R265). -/
def State.maintCandidates (s : State) (d : Nat) : List ListRun :=
  if s.maintOpen d && (s.candidates d).isEmpty then
    s.job.maintRuns.filter fun r =>
      r.src.die == d && decide (r.phase = .ready) && (s.rank d r.src.cls).isSome &&
        r.src.cmds.all fun w => cmKind w != 5 || s.maintPhase d (cbOp w)
  else []

/-- The maintenance list to start. -/
def State.maintChoice (s : State) (d : Nat) : Option ListRun := s.pick d (s.maintCandidates d)

/-- Whether a list of die d started earlier has records left to dispatch (R265). -/
def State.dispatchHeld (s : State) (d : Nat) : Bool :=
  (s.job.runs.filter s.kept ++ s.job.maintRuns).any fun r =>
    r.src.die == d && decide (r.phase = .running) && decide (r.next < r.src.cmds.length)

/-- A run started: T_START, its order of start, and its records dispatched unless an earlier list is paused. -/
def State.startRun (s : State) (maint : Bool) (r : ListRun) : State :=
  let held := s.dispatchHeld r.src.die
  let r' := { r with phase := .running, tStart := s.timeAt r.src.die, startNo := s.job.starts }
  let s := { s with job := { s.job with starts := s.job.starts + 1 } }
  let (s, r'') := if held then (s, r') else s.dispatch maint (r.src.cmds.length) r'
  s.mapRuns maint r.same fun _ => r''

/-- R80: the lists passed over by the start of `r`: those that might have started in its place. A ready list whose class
the row does not start is not passed over (DESIGN CHOICE, log 199). -/
def State.passOver (s : State) (maint : Bool) (cs : List ListRun) (r : ListRun) : State :=
  s.mapRuns maint (fun x => cs.any (·.same x) && !x.same r) fun x => { x with passed := x.passed + 1 }

/-- LIST_START: the die controller starts a list. -/
def doListStart (d : Nat) (s : State) : State :=
  if s.running d ≥ 32 ∨ s.dead ∨ s.tripped then s
  else match s.choice d with
    | some r => ((s.passOver false (s.candidates d) r).startRun false r).enrol
    | none => match s.maintChoice d with
      | some r => ((s.passOver true (s.maintCandidates d) r).startRun true r).enrol
      | none => s

/-- LIST_START. -/
def execListStart (d : Fin 8) (s : State) : Host.Outcome State Fault Refusal := .next (doListStart d s)

/-- The earliest started list of die d with records left, and its job. -/
def State.paused (s : State) (d : Nat) : Option (Bool × ListRun) :=
  let l := ((s.job.runs.filter s.kept).map fun r => (false, r)) ++ s.job.maintRuns.map fun r => (true, r)
  let l := l.filter fun p => p.2.src.die == d && decide (p.2.phase = .running) && decide (p.2.next < p.2.src.cmds.length)
  l.foldl (fun a p => match a with
    | none => some p
    | some b => if p.2.startNo < b.2.startNo then some p else some b) none

/-- DISPATCH_RESUME (R265): a paused list goes on where its queue has room again. -/
def doDispatchResume (d : Nat) (s : State) : State :=
  match s.paused d with
  | none => s
  | some (m, r) =>
    let (s, r') := s.dispatch m r.src.cmds.length r
    (s.mapRuns m r.same fun _ => r').enrol

/-- DISPATCH_RESUME. -/
def execDispatchResume (d : Fin 8) (s : State) : Host.Outcome State Fault Refusal := .next (doDispatchResume d s)

/-! ## Waits and signals -/

/-- The unit whose wait was granted goes on. -/
def State.granted (s : State) (w : Waiter) : State :=
  match w with
  | .engine d u =>
    match s.queue d u with
    | c :: q => s.setQueue d u ({ c with granted := true } :: q)
    | [] => s
  | .tokw d g => s.setGath d g { s.gath d g with tokGranted := true }
  | .list d i n =>
    match s.waitingRun d i n with
    | some r => s.mapRuns (decide (i ≥ 65536)) r.same fun x => { x with phase := .ready }
    | none => s

/-- Step of the command or list that waits. -/
def State.waiterStep (s : State) (w : Waiter) : Nat :=
  match w with
  | .engine d u => ((s.queue d u).head?.map (·.step)).getD 0
  | .tokw d g => ((s.gath d g).cmd.map (·.step)).getD 0
  | .list _ _ n => n

/-- R645: consumption of host tokens accounted by step. -/
def State.hostConsume (s : State) (maint : Bool) (step d : Nat) (l : List (Nat × Nat)) : State :=
  if maint then s
  else l.foldl (fun s (k, n) =>
    if k < 4032 then s
    else
      let key := 4096 * d + k
      if step ≤ s.job.pos then
        { s with hif := { s.hif with hostUse := Tab.put 0 s.hif.hostUse key (Tab.get 0 s.hif.hostUse key + n) } }
      else { s with hif := { s.hif with hostAhead := Tab.put 0 s.hif.hostAhead key (Tab.get 0 s.hif.hostAhead key + n) } }) s

/-- WAIT_GRANT (R271, R272). -/
def doWaitGrant (w : Waiter) (s : State) : State :=
  let s' := s.enrol
  if s'.grantable w then
    match s'.waiterNeeds w with
    | some (d, m, l) => (((s'.takeTokens m d l).hostConsume m (s'.waiterStep w) d l).granted w).enrol
    | none => s
  else s

/-- WAIT_GRANT. -/
def execWaitGrant (w : Waiter) (s : State) : Host.Outcome State Fault Refusal := .next (doWaitGrant w s)

/-- TOKEN_SIGNAL (R270): a signal reaches a main-job token; the row names no command that sends it (DESIGN CHOICE, log 248). -/
def execTokenSignal (d : Fin 8) (token : Fin 4096) (count : Nat) (s : State) : Host.Outcome State Fault Refusal :=
  .next (s.tokSignal false d token count wholeArg)

/-- SIGNAL_RELEASE (R274): the writes of the oldest command that waits have all been acknowledged, and its signals are
sent. -/
def doSignalRelease (s : State) : State :=
  match s.signals with
  | [] => s
  | p :: r => { s with signals := r }.sendSignals p.maint p.from_ p.sigs

/-- SIGNAL_RELEASE. -/
def execSignalRelease (s : State) : Host.Outcome State Fault Refusal := .next (doSignalRelease s)

/-- FENCE (R253): a fence at the head of a queue completes once its waits are granted. -/
def doFence (d u : Nat) (s : State) : State :=
  match s.startable d u 0 with
  | some c => ((s.popQueue d u).completeCmd c []).enrol
  | none => s

/-- FENCE. -/
def execFence (d : Fin 8) (u : Fin 14) (s : State) : Host.Outcome State Fault Refusal := .next (doFence d u s)

/-- Whether a waiter is the engine u of die d. -/
def atEngine (w : Waiter) (d u : Nat) : Bool :=
  match w with
  | .engine e v => e.val == d && v.val == u
  | _ => false

/-- Whether a wait on token k that began before that of engine u of die d holds it back (R272). -/
def State.heldBack (s : State) (maint : Bool) (d u k : Nat) : Bool :=
  (s.waits.takeWhile fun w => !atEngine w d u).any fun w => match s.waiterNeeds w with
    | some n => n.1 == d && n.2.1 == maint && n.2.2.any (·.1 == k)
    | none => false

/-- The token whose wait holds the command at the head of engine u of die d: the first whose count is not there or that an
earlier wait holds back, else the first. -/
def State.headToken (s : State) (d u : Nat) (c : QCmd) : Nat :=
  let l := cmdWaits c.word
  match l.find? fun p => decide (s.tok c.maint d p.1 < p.2) || s.heldBack c.maint d u p.1 with
  | some p => p.1
  | none => (l.head?.map (·.1)).getD 0

/-- TOKEN_WAIT_LONG (R277): a command has waited at the head of a queue for more than 8 × N. -/
def doTokenWaitLong (d u : Nat) (s : State) : State :=
  match s.queue d u with
  | c :: q =>
    match c.since with
    | some t =>
      if s.jobRuns ∧ !c.warned ∧ s.now - t > 8 * s.nominal then
        (s.schedEvent c .tokenWaitLong (s.headToken d u c)).setQueue d u ({ c with warned := true } :: q)
      else s
    | none => s
  | [] => s

/-- TOKEN_WAIT_LONG. -/
def execTokenWaitLong (d : Fin 8) (u : Fin 14) (s : State) : Host.Outcome State Fault Refusal :=
  .next (doTokenWaitLong d u s)

end Sys2Proof.Machine
end

