-- ==== Sys2Proof/Machine/Members.lean ====
section
/-! DEFINITION. Members of collectives, the contexts of their blocks, and the staging buffer (R424 to R427, R443, R689
to R691). -/

namespace Sys2Proof.Machine

/-- The device's own coordinate on an axis. -/
def State.ownOn (s : State) (a : Nat) : Nat := coordOn s.coord a

/-- R424: effective members in increasing coordinate. -/
def State.effective (s : State) (cd : Nat) : List Nat :=
  (List.range 32).filter fun c => bit (cdMembers cd) c && !bit (s.fld .colFence_mask (cdAxis cd)) c

/-- Whether a context lies in the block of a descriptor (R425). -/
def State.inBlock (s : State) (cd c : Nat) : Bool :=
  cdCtxBase cd ≤ c && c < cdCtxBase cd + s.extent (cdAxis cd)

/-- The running collective whose block holds a context, with its die and slot. -/
def State.collOn (s : State) (c : Nat) : Option (Nat × Nat × Coll) :=
  (s.colls.find? fun p => s.inBlock p.2.desc c).map fun p => (p.1 / 16, p.1 % 16, p.2)

/-- The descriptors of the collectives in the job's lists, as validated (R451), with their dies. -/
def State.listedColls (s : State) : List (Nat × Nat) :=
  s.job.lists.flatMap fun l => ((l.cmds.zip l.bodies).filter fun p => cmKind p.1 == 3).map fun p => (l.die, p.2)

/-- The die whose collective engine holds what arrives early on a context (R427): that of the first list with a
collective on it (DEDUCED, log 93). -/
def State.ctxDie (s : State) (c : Nat) : Nat := ((s.listedColls.find? fun p => s.inBlock p.2 c).map (·.1)).getD 0

/-- Bolts held in the staging buffer of a die for collectives that have not started (R427). -/
def State.boltsHeld (s : State) (d : Nat) : Nat :=
  s.tor.held.foldl (fun a p => if s.ctxDie p.1 = d then a + p.2.length else a) 0

/-- Whether an address lies in the stack of die d. -/
def State.inStack (s : State) (d a : Nat) : Bool := s.region a == .stack d

/-- Entries that inbound accesses to a die's memory hold (R689): the granules of stores open here, and the responses that
wait for credits. -/
def State.inbound (s : State) (d : Nat) : Nat :=
  s.tor.stores.foldl (fun a p =>
    if !p.2.bad && s.inStack d (bits p.2.req 0 44) then a + bits p.2.req 48 5 else a) 0 +
  s.tor.answers.foldl (fun a p => a + (p.2.filter fun x => x.1 == d && x.2.1 == 7).length) 0

/-- Entries that board-wide accesses hold, outbound and inbound. -/
def State.remoteUsed (s : State) (d : Nat) : Nat := (s.die d).stRemote + s.inbound d

/-- R690: entries that collectives may use. -/
def State.collRoom (s : State) (d : Nat) : Nat := 32768 + (16384 - (s.remoteUsed d - 16384))

/-- Blocks that wait in the staging buffer of a die's collective engine (R483). Blocks of the device's own beyond its room have
yet to be reduced (R691; DEDUCED, log 225). -/
def State.updQueued (s : State) (d : Nat) : Nat :=
  min ((s.colls.filter fun p => p.1 / 16 == d).foldl (fun a p => a + p.2.queued.length) 0) (s.collRoom d - s.boltsHeld d)

/-- Bolts from which additions of die d are still to be made: contributions of other members, and sums of partners
(R560). -/
def State.boltsWaiting (s : State) (d : Nat) : Nat :=
  (s.colls.filter fun p => p.1 / 16 == d).foldl (fun a p =>
    a + (p.2.contrib.filter fun x => x.1 % 32 != s.ownOn (cdAxis p.2.desc)).length + p.2.other.length) 0

/-- Entries of the staging buffer that collectives use (R689): blocks that wait, the sub-blocks awaiting the press among them,
bolts held, and bolts kept for additions. A repetition ends within its command (log 225). -/
def State.collEntries (s : State) (d : Nat) : Nat := s.updQueued d + s.boltsHeld d + s.boltsWaiting d

/-- R690, R691: no entry of the staging buffer is left for collectives. -/
def State.collFull (s : State) (d : Nat) : Bool := s.collEntries d ≥ s.collRoom d

/-- R690: entries that board-wide accesses may still take. -/
def State.remoteRoom (s : State) (d : Nat) : Nat :=
  16384 + (16384 - (s.collEntries d - 32768)) - s.remoteUsed d

/-- The descriptor for which data on a context go: that of the running collective, else the first listed one that fits. -/
def State.collFor (s : State) (x : Nat) (fits : Nat → Bool) : Option Nat :=
  match s.collOn x with
  | some (_, _, c) => if fits c.desc then some c.desc else none
  | none => (s.listedColls.find? fun p => fits p.2).map (·.2)

/-- The BROADCAST that a bolt belongs to: the bolts of its branches come from the root, on a context that is open
everywhere but there (R425, R443). -/
def State.branchOf (s : State) (b : Bolt) : Option Nat :=
  let fits (cd : Nat) := cdType cd == 3 && cdCtxBase cd + cdRoot cd == b.ctx &&
    (s.flag .ctxEntry_open b.ctx || s.ownOn (cdAxis cd) == cdRoot cd)
  if b.op = 1 then s.collFor b.ctx fits else none

/-- R429: whether a collective uses the skip ring. -/
def State.skips (s : State) (cd : Nat) : Bool :=
  cdType cd == 0 && cdAxis cd == 4 && s.flag .torCoord_guardEn 0 && s.fld .colFence_mask 4 == 0 &&
    cdMembers cd == 2 ^ s.extent 4 - 1

/-- Whether a bolt goes round a parity ring of two devices, where both guard ports lead to its DEST (R429). -/
def State.onParityRing (s : State) (b : Bolt) : Bool :=
  b.op == 1 && s.extent 4 == 4 && b.dest / 32 == s.coord / 32 && (s.ownOn 4 + 2) % 4 == coordOn b.dest 4 &&
    (s.collFor b.ctx s.skips).isSome

/-- R443: whether a bolt on its way belongs to a BROADCAST of which this device is a destination on the path: it is
taken here and sent on. -/
def State.forks (s : State) (b : Bolt) : Bool :=
  let own (cd : Nat) := s.ownOn (cdAxis cd)
  let fits (cd : Nat) := cdType cd == 3 && cdCtxBase cd + cdRoot cd == b.ctx && cdRoot cd != own cd &&
    (s.effective cd).contains (own cd)
  b.op == 1 && b.dest != s.coord && s.flag .ctxEntry_open b.ctx &&
    match s.collOn b.ctx with
    | some (_, _, c) => fits c.desc
    | none => s.listedColls.any fun p => fits p.2

end Sys2Proof.Machine
end

