-- ==== Sys2Proof/Machine/Memory.lean ====
section
/-! DEFINITION. Errors that stop a command, scrub (R333, R334), row repair (R303 to R305), the weight cache (R329 to R332),
and the loss of memory channels and of dies (R565). -/

namespace Sys2Proof.Machine

/-! ## Commands that find an error -/

/-- R302, R550: an uncorrectable read stops its command. -/
def State.memFail (s : State) (c : QCmd) (a : Nat) : State := (s.uncorrectable a).failCmd c (s.readErr a) a

/-! ## Deferred work -/

/-- R69: deferrable work waits while A is above 0, except in bubbles. -/
def State.deferred (s : State) : Bool := s.jobRuns && s.fld .perStatus_arrears 0 > 0 && !s.inBubble

/-! ## Scrub -/

/-- Hours of a scrub pass (R333, R605). -/
def State.scrubHours (s : State) (w : Scrubber) : Nat :=
  if s.fld .secState_image 0 = 0 then 24
  else match w with
    | .stack _ => crScrubStackH (s.image % 2 ^ 1024)
    | .tier => crScrubTierH (s.image % 2 ^ 1024)

/-- Nanoseconds of an hour. -/
def hourNs : Nat := 3600000000000

/-- Where a scrubber keeps its position: its die's record, and that of IO0 for the tier. -/
def scrubIdx : Scrubber → Nat
  | .stack d => d.val
  | .tier => 8

/-- First byte and granules of a scrubber's memory. -/
def State.scrubArea (s : State) : Scrubber → Nat × Nat
  | .stack d => (d.val * 2 ^ 37, 2 ^ 31)
  | .tier => (2 ^ 40, s.tierSize / 64)

/-- R303: a scrub pass saw a correction in a row; the third such pass queues the row. An entry holds the count and the
start of the last pass counted. -/
def State.rowSeen (s : State) (d row : Nat) : State :=
  let x := s.die d
  let e := Tab.get 0 x.rowErr row
  if e ≠ 0 ∧ e / 4 = x.scrubStart then s
  else
    let n := min 3 (e % 4 + 1)
    let s := s.setDie d { x with rowErr := Tab.put 0 x.rowErr row (n + 4 * x.scrubStart) }
    if n ≥ 3 then s.queueRow d row else s

/-- R682: scrub of a stack is MEMORY work of its die; the tier's belongs to no die (DEDUCED, log 85). -/
def State.scrubStarts (s : State) : Scrubber → Bool
  | .stack d => s.classStarts d 1
  | .tier => true

/-- SCRUB_GRANULE (R333, R334): one granule read, corrected and written back; the position advances. A granule of the tier
with a lost word is reported, and its other words are corrected (R311). After a trip nothing is scrubbed (R90). -/
def doScrub (w : Scrubber) (f : Finding) (s : State) : State :=
  let s := s.struck f
  let (base, n) := s.scrubArea w
  let x := s.die (scrubIdx w)
  let a := base + 64 * x.scrubPos
  let late := s.now > x.scrubStart + 3 * s.scrubHours w * hourNs
  if !s.ready || s.tripped || x.scrubPos ≥ n || !(s.region a).isDram || ((s.deferred || !s.scrubStarts w) && !late) then s
  else
    let s := if s.poisoned a 64 then s.uncorrectable a else s
    let s := if s.corrections (granule a) = 0 then s
      else
        let s := (s.counted a 64).rewritten a 64
        match w with
        | .stack d => s.rowSeen d.val (rowOf a)
        | .tier => s
    let x := s.die (scrubIdx w)
    if x.scrubPos + 1 < n then s.setDie (scrubIdx w) { x with scrubPos := x.scrubPos + 1 }
    else s.setDie (scrubIdx w) { x with
      scrubPos := 0
      scrubStart := s.now }

/-- SCRUB_GRANULE. -/
def execScrubGranule (w : Scrubber) (f : Finding) (s : State) : Host.Outcome State Fault Refusal :=
  .next (doScrub w f s)

/-! ## Row repair -/

/-- The spare rows of the fullest bank, and of all banks of a stack (R306). -/
def State.spareStat (s : State) (d : Nat) : State :=
  let u := (s.die d).bankUsed
  let total := u.foldl (fun a p => a + p.2) 0
  let worst := u.foldl (fun a p => max a p.2) 0
  (s.setFld .memStackstat_sparesUsed d total).setFld .memStackstat_worstFree d (32 - worst)

/-- A row goes to a spare of its bank: the contents are copied, and a granule that cannot be corrected is written with
the wipe pattern and keeps its error (R303). -/
def State.remapRow (s : State) (d row : Nat) : State :=
  let p := rowPlace row
  let bank := 32 * p.1 + p.2.1
  let x := s.die d
  let x := { x with
    bankUsed := Tab.put 0 x.bankUsed bank (Tab.get 0 x.bankUsed bank + 1)
    remapped := if x.remapped.contains (p.1 * 2 ^ 19 + rowArg row) then x.remapped
      else x.remapped ++ [p.1 * 2 ^ 19 + rowArg row]
    rowErr := Tab.put 0 x.rowErr row 0 }
  let s := ((s.setDie d x).counted (2048 * row) 2048).rewritten (2048 * row) 2048
  let bad := s.poison.filter fun g => g / 32 == row
  let s := bad.foldl (fun s g => (s.invalidate (64 * g) 64).wrL (64 * g) (List.replicate 64 0)) s
  s.spareStat d

/-- ROW_REMAP (R303 to R305): the die controller repairs the first row that waits, unless the device has tripped (R90). -/
def doRowRemap (d : Nat) (s : State) : State :=
  let x := s.die d
  match x.rowQ with
  | [] => s
  | row :: rest =>
    if s.tripped then s
    else
    let s := s.setDie d { x with rowQ := rest }
    let p := rowPlace row
    if Tab.get 0 x.bankUsed (32 * p.1 + p.2.1) < 32 then
      (s.remapRow d row).history 2 5 d p.1 (rowArg row)
    else s.raise .spareRowsExhausted d p.1 0 (rowArg row) 0

/-- ROW_REMAP. -/
def execRowRemap (d : Fin 8) (s : State) : Host.Outcome State Fault Refusal := .next (doRowRemap d s)

/-! ## Failures -/

/-- A failed compute die (R565): its history record, DIE_FAILED with that record's SEQ, FLT.DIESTAT.FAILED, and the
device leaves its job. -/
def State.failDie (s : State) (d : Nat) : State :=
  if (s.die d).failed then s
  else
    let s := s.history 9 8 d 0 0
    let s := (s.setDie d { s.die d with failed := true }).setFlag .fltDiestat_failed d true
    (s.raise .dieFailed d 0xFF 0 s.nvm.histSeq 0).leaveJob .dieFailed d

/-- STACK_CHANNEL_LOST (R565): the die fails. -/
def doStackChannelLost (d : Nat) (s : State) : State :=
  if s.perst || s.absent d then s else s.failDie d

/-- STACK_CHANNEL_LOST. -/
def execStackChannelLost (d : Fin 8) (_ch : Fin 128) (s : State) : Host.Outcome State Fault Refusal :=
  .next (doStackChannelLost d s)

/-- CHANNEL_DEGRADED (R565): one symbol of every granule of the channel is corrected from now on. -/
def doChannelDegraded (d ch : Nat) (s : State) : State :=
  if s.perst || s.absent d then s
  else
    let x := s.die d
    let s := s.setDie d { x with deadWires := if x.deadWires.contains ch then x.deadWires else x.deadWires ++ [ch] }
    let s := s.symErr.foldl (fun s p => s.judgeErrors p.1) s
    s.raise .channelDegraded d ch 0 0 0

/-- CHANNEL_DEGRADED. -/
def execChannelDegraded (d : Fin 8) (ch : Fin 128) (s : State) : Host.Outcome State Fault Refusal :=
  .next (doChannelDegraded d ch s)

/-- LPDDR_INTERFACE_LOST (R565): the tier is lost, LPDDR_FAIL is raised and the device leaves its job. -/
def doLpddrLost (i : Nat) (s : State) : State :=
  if s.perst || s.lpLost || !bit (s.fld .memLpcfg_used 0) i then s
  else
    let s := { s with lpLost := true, tierSize := 0 }
    (s.raise .lpddrFail (ifaceDie i) i 0 0 0).leaveJob .lpddrFail (ifaceDie i)

/-- LPDDR_INTERFACE_LOST. -/
def execLpddrInterfaceLost (iface : Fin 8) (s : State) : Host.Outcome State Fault Refusal :=
  .next (doLpddrLost iface s)

/-! ## Weight cache -/

/-- Whether the weight cache of die d holds the line of an address (R329). -/
def State.cached (s : State) (d a : Nat) : Bool := (s.die d).cache.contains (a / 256)

/-- A line read through the weight cache of die `d` (R329): most recently used first, 16 lines to a set. The set is the line's
number modulo 16,384 (DESIGN CHOICE, log 245). -/
def State.cacheRead (s : State) (d a : Nat) : State :=
  let l := a / 256
  let x := s.die d
  let same := x.cache.filter fun k => k % 16384 == l % 16384 && k != l
  let drop := same.drop 15
  s.setDie d { x with cache := l :: x.cache.filter fun k => k != l && !drop.contains k }

/-- R332: every weight cache emptied. -/
def State.emptyCaches (s : State) : State :=
  { s with dies := s.dies.map fun (k, d) => (k, { d with cache := [] }) }

end Sys2Proof.Machine
end

