-- ==== Sys2Proof/Machine/Forms.lean ====
section
/-! DEFINITION. The wire forms of what travels: a bolt (R377, R378), the link word of a raft (R383), a slot tag (R522)
and a leaf (R519, R521). Each is written by an encoder and read by a decoder. -/

namespace Sys2Proof.Machine

/-! ## Bolts -/

/-- The 64-bit header of a bolt (R377). -/
def boltHeader (b : Bolt) : Nat :=
  b.scale0 + b.scale1 * 2 ^ 8 + b2n b.last * 2 ^ 16 + b.seq * 2 ^ 17 + b.edition * 2 ^ 29 + b.op * 2 ^ 31 +
    b.ctx * 2 ^ 35 + b.dest * 2 ^ 47

/-- The bolt of a header and a payload (R377). -/
def boltOf (h p : Nat) : Bolt :=
  ⟨bits h 47 17, bits h 35 12, bits h 31 4, bits h 29 2, bits h 17 12, bit h 16, bits h 8 8, bits h 0 8, p % 2 ^ 512⟩

/-- The 72 bytes of a bolt on the wire: the header most significant byte first, then the payload (R378). -/
def boltWire (b : Bolt) : List Nat := (leBytes 8 (boltHeader b)).reverse ++ leBytes 64 b.payload

/-- The bolt of 72 bytes on the wire. -/
def boltOfWire (l : List Nat) : Bolt := boltOf (leNat (l.take 8).reverse) (leNat (l.drop 8))

/-- The 576 bits of a bolt in the order they are sent: every byte most significant bit first (R378). -/
def boltStream (b : Bolt) : List Bool := (boltWire b).flatMap fun x => (List.range 8).map fun i => bit x (7 - i)

/-- An IDLE bolt: every field is 0 (R379). -/
def idleBolt : Bolt := ⟨0, 0, 0, 0, 0, false, 0, 0, 0⟩

/-! ## Rafts -/

/-- Bits of a bolt, and of the bolt stream of a raft (R377, R383). -/
def boltBits : Nat := 576
/-- Bits of the bolt stream in one raft. -/
def raftBits : Nat := 82160

/-- Bolts that end in a raft which starts `skip` bits into its first. -/
def wholeBolts (skip : Nat) : Nat := (skip + raftBits) / boltBits

/-- Bolts with a bit in a raft which starts `skip` bits into its first. -/
def touchedBolts (skip : Nat) : Nat := (skip + raftBits + boltBits - 1) / boltBits

/-- The bolts that end in a raft, but for IDLE ones, which the port consumes (R379, R384). -/
def raftEnded (r : Raft) : List (Fin 4 × Bolt) := (r.bolts.take (wholeBolts r.skip)).filter fun b => b.2.op != 0

/-- The 80-bit link word of a raft (R383). -/
def linkWord (r : Raft) : Nat :=
  r.seq + r.ack * 2 ^ 12 + b2n r.nak * 2 ^ 24 + r.cred.getD 0 0 * 2 ^ 32 + r.cred.getD 1 0 * 2 ^ 40 +
    r.cred.getD 2 0 * 2 ^ 48 + r.cred.getD 3 0 * 2 ^ 56

/-- The raft of a link word and its part of the bolt stream. -/
def raftOf (w skip : Nat) (bolts : List (Fin 4 × Bolt)) : Raft :=
  ⟨bits w 0 12, bits w 12 12, bit w 24, [bits w 32 8, bits w 40 8, bits w 48 8, bits w 56 8], skip, bolts⟩

/-- The 82,240 message bits of a raft: the link word, then the bolts without gaps (R383). The link word goes least
significant bit first (DESIGN CHOICE, log 189). -/
def raftMessage (r : Raft) : List Bool :=
  (List.range 80).map (bit (linkWord r)) ++ ((r.bolts.flatMap fun b => boltStream b.2).drop r.skip).take raftBits

/-- The 5,140 message bits of codeword `k` of a raft (R382, R383). -/
def codewordBits (r : Raft) (k : Nat) : List Bool := ((raftMessage r).drop (5140 * k)).take 5140

/-- Lane that carries symbol `j` of a codeword: the symbols go over the active lanes in turn (R382), and every codeword starts at
the lowest active lane, also with three lanes (DESIGN CHOICE, log 246). -/
def symbolLane (mask j : Nat) : Nat :=
  let l := (List.range 4).filter (bit mask)
  l.getD (j % max 1 l.length) 0

/-- Symbols in error of codeword `k`, by number. -/
def wordErrs (errs : List (Fin 16 × Fin 544)) (k : Nat) : List Nat :=
  ((errs.filter fun e => e.1.val == k).map (·.2.val)).eraseDups

/-- A codeword that RS(544,514) cannot correct: more than 15 symbols in error (R382). -/
def wordLost (errs : List (Fin 16 × Fin 544)) (k : Nat) : Bool := (wordErrs errs k).length > 15

/-- A raft is good when all 16 of its codewords decode (R384). -/
def raftGood (errs : List (Fin 16 × Fin 544)) : Bool := !(List.range 16).any (wordLost errs)

/-- Symbols of uncorrectable codewords that lane `l` has shown (R387). -/
def laneErrors (errs : List (Fin 16 × Fin 544)) (mask l : Nat) : Nat :=
  ((List.range 16).filter (wordLost errs)).foldl (fun n k =>
    n + ((wordErrs errs k).filter fun j => symbolLane mask j == l).length) 0

/-! ## Slots and leaves -/

/-- The 32-bit tag of a slot (R522). -/
def slotTag (x : Slot) : Nat :=
  x.kind + x.cls * 2 ^ 4 + x.dest * 2 ^ 6 + x.src * 2 ^ 10 + x.tid * 2 ^ 14 + b2n x.last * 2 ^ 26

/-- The slot of a tag and a payload. -/
def slotOf (t p : Nat) : Slot :=
  ⟨bits t 0 4, bits t 4 2, bits t 6 4, bits t 10 4, bits t 14 12, bit t 26, p % 2 ^ 512⟩

/-- An EMPTY slot. -/
def emptySlot : Slot := ⟨0, 0, 0, 0, 0, false, 0⟩

/-- The 32-bit control word of a leaf (R521). -/
def leafWord (l : Sys2Proof.Leaf) : Nat :=
  l.seq + l.ack * 2 ^ 6 + b2n l.nak * 2 ^ 12 + b2n l.idle * 2 ^ 13 + l.cvc * 2 ^ 14 + l.cred * 2 ^ 16

/-- The 15 traffic slots of a leaf, EMPTY behind those it carries. -/
def leafSlots (l : Sys2Proof.Leaf) : List Slot := (List.range 15).map fun k => l.slots.getD k emptySlot

/-- The 1,024 bytes of a leaf: the header slot with the control word and the tags, then slots 1 to 15 (R521). -/
def leafBytes (l : Sys2Proof.Leaf) : List Nat :=
  leBytes 4 (leafWord l) ++ (leafSlots l).flatMap (fun x => leBytes 4 (slotTag x)) ++
    (leafSlots l).flatMap fun x => leBytes 64 x.payload

/-- `n` bytes of a list from place `k` as a number. -/
def numAt (l : List Nat) (k n : Nat) : Nat := leNat ((l.drop k).take n)

/-- The leaf of 1,024 bytes. -/
def leafOf (l : List Nat) : Sys2Proof.Leaf :=
  let w := numAt l 0 4
  ⟨bits w 0 6, bits w 6 6, bit w 12, bit w 13, bits w 14 2, bits w 16 8,
    (List.range 15).map fun k => slotOf (numAt l (4 + 4 * k) 4) (numAt l (64 + 64 * k) 64)⟩

/-! ## Leaves on the data wires -/

/-- Group, unit interval and data wire of bit `k` of byte `b` of a leaf (R519). -/
def leafPlace (b k : Nat) : Nat × Nat × Nat := (b / 32, b % 32 / 8, 8 * (b % 8) + k)

/-- The two groups that slot `s` of a leaf occupies (R519). -/
def slotGroups (s : Nat) : Nat × Nat := (2 * s, 2 * s + 1)

/-- What the 64 data wires of group `g` carry in unit interval `u`, wire `w` in bit `w` (R519). -/
def leafUi (l : List Nat) (g u : Nat) : Nat := numAt l (32 * g + 8 * u) 8

/-- Number of ones among the low `n` bits. -/
def onesOf : Nat → Nat → Nat
  | 0, _ => 0
  | n + 1, v => v % 2 + onesOf n (v / 2)

/-- Even parity of the low `n` bits: the bit that makes the count of ones even. -/
def evenParity (n v : Nat) : Nat := onesOf n v % 2

/-- What the 32 parity wires carry in the four unit intervals of a leaf (R520): bit 4 g + u for group `g` in interval
`u`. -/
def leafParity (l : List Nat) : Nat :=
  (List.range 128).foldl (fun a i => a + evenParity 64 (leafUi l (i / 4) (i % 4)) * 2 ^ i) 0

/-- A leaf is good when its 128 parity checks pass (R520): `l` and `par` are the leaf and the parity bits received. -/
def leafGood (l : Sys2Proof.Leaf) (par : Nat) : Bool := leafParity (leafBytes l) == par

/-- The groups of a leaf in which a parity check fails, one entry for each check (R520). -/
def badParity (l : Sys2Proof.Leaf) (par : Nat) : List Nat :=
  let x := leafParity (leafBytes l) ^^^ par
  ((List.range 128).filter (bit x)).map (· / 4)

/-! ## Sideband frames -/

/-- A frame of R534 as 42 bits, the first bit sent lowest: a start bit of 0, TYPE, INDEX, DATA, even parity, two stop
bits of 1. -/
def sbFrame (type index data : Nat) : Nat :=
  let body := type % 4 + index % 16 * 2 ^ 2 + data % 2 ^ 32 * 2 ^ 6
  body * 2 + evenParity 38 body * 2 ^ 39 + 3 * 2 ^ 40

/-- TYPE, INDEX and DATA of 42 received bits; a frame whose parity, start or stop bits are wrong is ignored (R534). -/
def sbRead (f : Nat) : Option (Nat × Nat × Nat) :=
  if bits f 0 1 = 0 ∧ bits f 39 1 = evenParity 38 (bits f 1 38) ∧ bits f 40 2 = 3 then
    some (bits f 1 2, bits f 3 4, bits f 7 32)
  else none

/-- DATA of a frame of one type and index. -/
def sbData (type index f : Nat) : Option Nat :=
  match sbRead f with
  | some (t, i, d) => if t = type ∧ i = index then some d else none
  | none => none

end Sys2Proof.Machine
end

