-- ==== Sys2Proof/Machine/Link.lean ====
section
/-! DEFINITION. On-package transport as it leaves a die: the routes of R23 and R26, and the leaves of a link end with
their replay buffer and credits (R521, R525, R527, R529). -/

namespace Sys2Proof.Machine

/-- Ends of a link (R22): near end first (R515). -/
def linkEnds : Nat → Nat × Nat
  | 0 => (0, 1) | 1 => (1, 2) | 2 => (2, 3) | 3 => (4, 5) | 4 => (5, 6) | 5 => (6, 7)
  | 6 => (0, 4) | 7 => (1, 5) | 8 => (2, 6) | 9 => (3, 7)
  | 10 => (8, 0) | 11 => (8, 4) | 12 => (3, 9) | _ => (7, 9)

/-! ## Routes (R23) -/

/-- A position that traffic may cross: a joined die. -/
def State.posOk (s : State) (p : Nat) : Bool :=
  if p < 8 then s.joined p else if p = 8 then true else p == 9 && s.flag .orgIdent_io1Joined 0

/-- Compute die of a row and column. -/
def cdAt (r c : Nat) : Nat := 4 * r + c

/-- The dies of row `r` from column `a` to column `b`. -/
def rowPath (r a b : Nat) : List Nat :=
  if a ≤ b then (List.range (b - a + 1)).map fun k => cdAt r (a + k)
  else (List.range (a - b + 1)).map fun k => cdAt r (a - k)

/-- Rules 1 and 2 with rule 5, between compute dies. -/
def State.cdPath (s : State) (a b : Nat) : List Nat :=
  let seg := rowPath (a / 4) (a % 4) (b % 4)
  let same := a / 4 = b / 4
  if seg.all s.posOk then (if same then seg else seg ++ [b])
  else if same then a :: rowPath (1 - a / 4) (a % 4) (b % 4) ++ [b]
  else a :: rowPath (b / 4) (a % 4) (b % 4)

/-- Rule 3 with rule 5, from a compute die to an I/O die in column `c`. -/
def State.ioPath (s : State) (a io c : Nat) : List Nat :=
  let seg := rowPath (a / 4) (a % 4) c
  if seg.all s.posOk then seg ++ [io] else a :: rowPath (1 - a / 4) (a % 4) c ++ [io]

/-- Column of an I/O die. -/
def ioCol (p : Nat) : Nat := if p = 8 then 0 else 3

/-- Rules 1 to 5: `low` is the low bit of the context, for rule 4. Where an excluded die blocks the row of rule 4, the
other row is taken from the I/O die on, which has no vertical link (R26 says so for grade S; DEDUCED, log 188). -/
def State.rulePath (s : State) (a b low : Nat) : List Nat :=
  if a = b then [a]
  else if a < 8 ∧ b < 8 then s.cdPath a b
  else if a < 8 then s.ioPath a b (ioCol b)
  else if b < 8 then (s.ioPath b a (ioCol a)).reverse
  else
    let go (r : Nat) := if a = 8 then rowPath r 0 3 else rowPath r 3 0
    a :: (if (go low).all s.posOk then go low else go (1 - low)) ++ [b]

/-- The link between two positions, if there is one. -/
def linkOf (p q : Nat) : Option Nat :=
  (List.range 14).find? fun l => linkEnds l == (p, q) || linkEnds l == (q, p)

/-- The first path of `n` links in lexicographic order through positions that are `ok`. -/
def lexPath (ok : Nat → Bool) (dst : Nat) : Nat → Nat → Option (List Nat)
  | 0, p => if p = dst then some [p] else none
  | n + 1, p => ((List.range 10).filter fun q => (linkOf p q).isSome && (q == dst || ok q)).findSome? fun q =>
      (lexPath ok dst n q).map (p :: ·)

/-- Rule 6: the shortest path, not through IO1, through IO0 only if no other path exists. -/
def State.shortPath (s : State) (a b : Nat) : Option (List Nat) :=
  let find (ok : Nat → Bool) := (List.range 10).findSome? fun n => lexPath ok b n a
  (find fun p => p < 8 && s.posOk p) <|> (find fun p => p < 9 && s.posOk p)

/-- The route from `a` to `b` as positions (R23). -/
def State.routeDies (s : State) (a b low : Nat) : List Nat :=
  let p := s.rulePath a b low
  if p.all s.posOk then p else (s.shortPath a b).getD []

/-- The link end from which `p` sends to the adjoining position `q`. -/
def sideTo (p q : Nat) : Option Nat := (linkOf p q).map fun l => if (linkEnds l).1 = p then 2 * l else 2 * l + 1

/-- The link and end from which position `p` sends towards `b`. -/
def State.egress (s : State) (p b low : Nat) : Option Nat :=
  match s.routeDies p b low with
  | _ :: q :: _ => sideTo p q
  | _ => none

/-- The link end from which `p` forwards what `src` sends to `b`: on the route of `src`, which is fixed (R23). Off that
route, where no message of `src` comes, `p` sends on by its own. -/
def State.hop (s : State) (src p b low : Nat) : Option Nat :=
  match (s.routeDies src b low).dropWhile (· != p) with
  | _ :: q :: _ => sideTo p q
  | _ => s.egress p b low

/-! ## Training -/

/-- Places of a group that serve its 65 data and parity wires, in order, once each wire above a failed one has moved up
by one (R530): none with a failed clock wire or more than two failed wires. -/
def wireMap (bad : List (Fin 68)) : Option (List Nat) :=
  let ok := (List.range 67).filter fun p => !bad.any (·.val == p)
  if bad.any (·.val == 67) || ok.length < 65 then none else some (ok.take 65)

/-- Failed places of one group of a direction. -/
def groupBad (l : List BadWire) (n : Bool) (g : Fin 32) : List (Fin 68) :=
  (l.filter fun w => w.fromNear == n && w.group == g).map (·.place)

/-- The groups with a failed wire. -/
def badGroups (l : List BadWire) : List (Bool × Fin 32) := (l.map fun w => (w.fromNear, w.group)).eraseDups

/-- A link fails training when some group cannot be repaired (R530). -/
def trainFails (l : List BadWire) : Bool := (badGroups l).any fun q => (wireMap (groupBad l q.1 q.2)).isNone

/-- Spare wires in use, both directions. -/
def sparesUsed (l : List BadWire) : Nat :=
  (badGroups l).foldl (fun a q => a + (((wireMap (groupBad l q.1 q.2)).getD []).filter (65 ≤ ·)).length) 0

/-- Fewest spare wires left in a group. -/
def sparesLeft (l : List BadWire) : Nat :=
  (badGroups l).foldl (fun a q => min a (2 - (groupBad l q.1 q.2).eraseDups.length)) 2

/-! ## Leaves sent -/

/-- A link end. -/
def State.side (s : State) (k : Nat) : LinkSide := Tab.get {} s.irl.sides k

/-- A link end replaced. -/
def State.setSide (s : State) (k : Nat) (x : LinkSide) : State :=
  { s with irl := { s.irl with sides := Tab.upd s.irl.sides k x } }

/-- Whether a link carries leaves. -/
def State.linkUp (s : State) (l : Nat) : Bool := s.fld .irlLinkstat_state l == 2 && !s.flag .irlLinkstat_repairing l

/-- Credits that an end holds for channel `v` (R525). -/
def LinkSide.credits (x : LinkSide) (v : Nat) : Nat := 128 - (x.sent.getD v 0 + 256 - x.freed.getD v 0) % 256

/-- A count of a channel raised, modulo 256. -/
def addVc (l : List Nat) (v n : Nat) : List Nat := l.set v ((l.getD v 0 + n) % 256)

/-- Slots chosen for one leaf: in order within each channel, while room and credits last. Returns what goes and what
stays. -/
def LinkSide.pick (x : LinkSide) : List OutSlots → Nat → List Nat → LinkSide × List OutSlots × List OutSlots
  | [], _, _ => (x, [], [])
  | o :: r, room, shut =>
    let n := o.slots.length
    if n ≤ room && !shut.contains o.vc && x.credits o.vc ≥ n then
      let (y, go, stay) := LinkSide.pick { x with sent := addVc x.sent o.vc n } r (room - n) shut
      (y, o :: go, stay)
    else
      let (y, go, stay) := LinkSide.pick x r room (o.vc :: shut)
      (y, go, o :: stay)

/-- The leaf that an end forms now (R521): CVC rotates from leaf to leaf, idle leaves among them. -/
def LinkSide.leafNow (x : LinkSide) (idle : Bool) (l : List Slot) : Sys2Proof.Leaf :=
  ⟨x.txSeq, x.rxSeq, x.nak, idle, x.cvc, x.given.getD x.cvc 0, l⟩

/-- An idle leaf on the wires: not numbered and not kept (R521, R527). -/
def LinkSide.sendIdle (x : LinkSide) : LinkSide :=
  { x with
    cvc := (x.cvc + 1) % 4
    wire := x.wire ++ [x.leafNow true []] }

/-- One numbered leaf on the wires, when something waits that credits let go and fewer than 32 leaves are
unacknowledged (R527), with what it took. -/
def LinkSide.sendLeaf (x : LinkSide) : LinkSide × List OutSlots :=
  if x.replay.length ≥ 32 then (x, [])
  else
    let (y, go, stay) := x.pick x.out 15 []
    if go.isEmpty then (x, [])
    else
      let f := x.leafNow false (go.flatMap (·.slots))
      ({ y with
        out := stay
        txSeq := (x.txSeq + 1) % 64
        cvc := (x.cvc + 1) % 4
        wire := x.wire ++ [f]
        replay := x.replay ++ [f] }, go)

/-- Numbered leaves sent while the end can. -/
def LinkSide.drain : Nat → LinkSide → LinkSide × List OutSlots
  | 0, x => (x, [])
  | n + 1, x =>
    let (y, go) := x.sendLeaf
    if go.isEmpty then (y, [])
    else
      let (z, more) := LinkSide.drain n y
      (z, go ++ more)

/-- Places of a receive buffer that come free: CRED_TOTAL counts them (R521, R525). -/
def State.freeSlots (s : State) (k v n : Nat) : State :=
  let x := s.side k
  s.setSide k { x with given := addVc x.given v n }

/-- An end sends: first the leaves kept for replay, unchanged, when they go again (R529, R531), then what waits, and an
idle leaf when there is nothing else (R527). A forwarded slot leaves its receive buffer as it is sent (R525). -/
def State.pump (s : State) (k : Nat) : State :=
  if s.linkUp (k / 2) then
    let x := s.side k
    let (y, go) := LinkSide.drain 32 { x with
      wire := if x.again then x.replay else []
      again := false }
    let y := if y.wire.isEmpty then y.sendIdle else y
    go.foldl (fun s o => match o.held with
      | some h => s.freeSlots h o.vc o.slots.length
      | none => s) (s.setSide k y)
  else s

/-- Slots of one leaf put behind those that wait at an end. -/
def State.queueOut (s : State) (k : Nat) (o : OutSlots) : State :=
  let x := s.side k
  (s.setSide k { x with out := x.out ++ [o] }).pump k

/-- Slots of one leaf that die `p` sends on channel `v` towards die `b`. A die that has no route sends nothing. -/
def State.slotsOut (s : State) (p b low v : Nat) (u : List Slot) : State :=
  match s.egress p b low with
  | some k => s.queueOut k ⟨v, u, none⟩
  | none => s

/-- A bolt in transit from one I/O die to the other: BOLT_H and BOLT_D on VC2 along the row of rule 4 (R23, R26,
R523). -/
def State.transitOut (s : State) (p q : Nat) (b : Bolt) : State :=
  s.slotsOut p q (b.ctx % 2) 2 [⟨6, 0, q, p, 0, false, boltHeader b⟩, ⟨7, 0, q, p, 0, false, b.payload⟩]

/-- The link end from which `p` sends a REPORT on during negotiation (R538): along its row towards column 0, or over its
vertical link where the row link has not trained; from IO1 to CD3, or to CD7. -/
def State.reportHop (s : State) (p : Nat) : Option Nat :=
  let toward (q : Nat) : Option Nat := if (linkOf p q).any s.linkUp then sideTo p q else none
  let first := if p = 9 then 3 else if p % 4 = 0 then 8 else p - 1
  let other := if p = 9 then 7 else (p + 4) % 8
  toward first <|> toward other

/-! ## Slots delivered -/

/-- What orders a slot among others: its channel, source and destination (R524). -/
def Arrived.flow (x : Arrived) : Nat × Nat × Nat := (x.vc, x.slot.src, x.slot.dest)

/-- The first delivered slot that satisfies `ok` and that no earlier one of its channel, source and destination precedes
(R24, R524). `seen` are the flows of those before. -/
def headSlot (ok : Slot → Bool) : List Arrived → List (Nat × Nat × Nat) → Option Arrived
  | [], _ => none
  | x :: r, seen => if ok x.slot ∧ !seen.contains x.flow then some x else headSlot ok r (x.flow :: seen)

/-- A delivered slot leaves its buffer, whose place comes free (R525). -/
def State.leave (s : State) (x : Arrived) : State :=
  { s with irl := { s.irl with arrived := s.irl.arrived.erase x } }.freeSlots x.side x.vc 1

/-- A delivered slot whose turn has come is acted on (R524). -/
def State.takeSlot (s : State) (a : Slot) : Option State := (headSlot (· == a) s.irl.arrived []).map s.leave

/-- A management message: the die it is for, the one that sent it, and the payload of its slots, the second above the
first. -/
structure Mgmt where
  dest : Nat
  src : Nat
  arg : Nat
  deriving DecidableEq, Repr

/-- Whether a slot is a MGMT slot of a code. -/
def isMgmt (a : Slot) (code : Nat) : Bool := a.kind == 8 && bits a.payload 0 16 == code

/-- The second slot of a message of two, which stands behind the first in its flow. -/
def State.mate (s : State) (x : Arrived) (code : Nat) : Option Arrived :=
  if code = 3 ∨ code = 8 then s.irl.arrived.find? fun y => y.flow == x.flow else none

/-- A management message is acted on: the delivered one of its code for die `p`, or for any die, whose turn has come
(R524, R532), and its places come free (R525). A command whose message has not come over Irale acts on its own operands,
`own` (DESIGN CHOICE, log 191); one whose message waits behind another does nothing. -/
def State.onMgmt (s : State) (p : Option Nat) (code : Nat) (own : Mgmt) (f : Mgmt → State → State) : State :=
  let ok (a : Slot) : Bool := isMgmt a code && (p.isNone || p == some a.dest)
  match headSlot ok s.irl.arrived [] with
  | some x =>
    let s := s.leave x
    let m : Mgmt := ⟨x.slot.dest, x.slot.src, x.slot.payload⟩
    match s.mate x code with
    | some y => f { m with arg := m.arg + y.slot.payload * 2 ^ 512 } (s.leave y)
    | none => f m s
  | none => if s.irl.arrived.any fun y => ok y.slot then s else f own s

end Sys2Proof.Machine
end

