-- ==== Sys2Proof/Machine/Recorder.lean ====
section
/-! DEFINITION. The event recorder (R655 to R667) and the NVM (R561, R562, R596 to R599, R646, R647, R692 to R694). -/

namespace Sys2Proof.Machine

/-! ## The event record -/

/-- A record of R655 as one number; VALID reads 0xA5. -/
def EvRec.num (r : EvRec) : Nat :=
  r.seq % 2 ^ 48 + r.rep.sev % 8 * 2 ^ 48 + r.rep.die % 16 * 2 ^ 52 + r.rep.unit % 256 * 2 ^ 56 +
    r.rep.time % 2 ^ 64 * 2 ^ 64 + r.rep.code % 2 ^ 16 * 2 ^ 128 + r.count % 2 ^ 16 * 2 ^ 144 +
    r.rep.step % 2 ^ 32 * 2 ^ 160 + r.rep.arg0 % 2 ^ 64 * 2 ^ 192 + r.rep.arg1 % 2 ^ 64 * 2 ^ 256 +
    r.rep.arg2 % 2 ^ 64 * 2 ^ 320 + r.rep.arg3 % 2 ^ 64 * 2 ^ 384 + r.lastUs % 2 ^ 32 * 2 ^ 448 +
    r.boot % 2 ^ 24 * 2 ^ 480 + 0xA5 * 2 ^ 504

/-- A report as an MGMT EVENT body carries it (R532, R655). -/
def reportOf (v : Nat) : Report :=
  ⟨bits v 128 16, bits v 48 3, bits v 52 4, bits v 56 8, bits v 64 64, bits v 160 32, bits v 192 64, bits v 256 64,
    bits v 320 64, bits v 384 64⟩

/-! ## Handling a report -/

/-- MIN_SEV as it is read (R660). -/
def State.minSev (s : State) : Nat := if s.fld .evtCtl_minSev 0 ≥ 5 then 4 else s.fld .evtCtl_minSev 0

/-- Thousand-millionths of a record. -/
def recUnit : Nat := 1000000000

/-- BURST of a class as it is read (R661). -/
def State.burst (s : State) (c : Nat) : Nat := max 1 (s.fld .evtRate_burst c)

/-- Contents of a class's bucket now, in thousand-millionths of a record (R662). -/
def State.bucket (s : State) (c : Nat) : Nat :=
  let full := s.burst c * recUnit
  let e := Tab.get (full, s.now) s.recorder.buckets c
  min full (e.1 + s.fld .evtRate_rate c * (s.now - e.2))

/-- Whether a report passes without taking from its bucket (R662). -/
def State.rateFree (s : State) (r : Report) : Bool :=
  r.sev == 4 || s.fld .evtRate_rate (r.code / 256) == 0 || r.code == Err.code .eventsCleared

/-- CHANGES advances (R660). -/
def State.ringChange (s : State) : State := s.wrapAdd .evtHead_changes 0 1

/-- The ring slot of highest SEQ with a code. -/
def foldSlot (ring : Tab EvRec) (code : Nat) : Option (Nat × EvRec) :=
  ring.foldl (fun a p => if p.2.rep.code = code then
      match a with
      | none => some p
      | some q => if q.2.seq < p.2.seq then some p else a
    else a) none

/-- R663: a report folded into the latest record of its code, or counted in RATE. -/
def State.foldReport (s : State) (r : Report) : State :=
  match foldSlot s.recorder.ring r.code with
  | none => s.bump .evtLost_rate 0 1
  | some (k, e) =>
    let e' := { e with
      count := min 65535 (e.count + 1)
      lastUs := min (2 ^ 32 - 1) (max e.lastUs ((r.time - e.rep.time) / 1000)) }
    { s with recorder := { s.recorder with ring := Tab.upd s.recorder.ring k e' } }.ringChange

/-- Lowest empty ring slot (DESIGN CHOICE, log 37). -/
def freeSlot (ring : Tab EvRec) : Option Nat :=
  if ring.length ≥ 4096 then none
  else some (ring.foldl (fun n p => if p.1 = n then n + 1 else n) 0)

/-- The slot of lowest SEQ among records of lower severity. -/
def victim (ring : Tab EvRec) (sev : Nat) : Option Nat :=
  (ring.foldl (fun (a : Option (Nat × EvRec)) p => if p.2.rep.sev < sev then
      match a with
      | none => some p
      | some q => if p.2.seq < q.2.seq then some p else a
    else a) none).map (·.1)

/-- Where a record of a severity goes (R659). -/
def placeFor (ring : Tab EvRec) (sev : Nat) : Option Nat :=
  match freeSlot ring with
  | some k => some k
  | none => victim ring sev

/-- R664: a record queued for the NVM, or counted in PERSIST. -/
def State.persist (s : State) (e : EvRec) : State :=
  if s.flag .startStatus_nvmFail 0 || s.recorder.persistQ.length ≥ 256 then s.bump .evtLost_persist 0 1
  else { s with recorder := { s.recorder with persistQ := s.recorder.persistQ ++ [(e, s.now)] } }

/-- Steps 3 to 5 of R658: SEQ, placement, persistence, interrupt. -/
def State.insertReport (s : State) (r : Report) : State :=
  let e : EvRec := ⟨s.recorder.next, r, 0, 0, s.fld .startStatus_boot 0 % 2 ^ 24⟩
  let s := { s with recorder := { s.recorder with next := s.recorder.next + 1 } }.setFld .evtHead_headSeq 0 e.seq
  let place := placeFor s.recorder.ring r.sev
  let s := match place with
    | some k => { s with recorder := { s.recorder with ring := Tab.upd s.recorder.ring k e } }.ringChange
    | none => s.bump (lostField r.sev) 0 1
  let s := if r.sev ≥ 3 ∨ r.code = Err.code .eventsCleared then s.persist e else s
  match place with
  | some _ => if r.sev ≥ 3 then s.signal 5 else if r.sev = 2 then s.signal 6 else s
  | none => s

/-- A record taken from the bucket of a class (R662). -/
def State.takeToken (s : State) (c : Nat) : State :=
  { s with recorder := { s.recorder with buckets := Tab.upd s.recorder.buckets c (s.bucket c - recUnit, s.now) } }

/-- R658 on one report. An inserted report takes from its bucket; one that R659 drops takes nothing (R662). -/
def State.handleReport (s : State) (r : Report) : State :=
  if r.sev < s.minSev then s
  else if s.rateFree r then s.insertReport r
  else if s.bucket (r.code / 256) ≥ recUnit then
    (if (placeFor s.recorder.ring r.sev).isSome then s.takeToken (r.code / 256) else s).insertReport r
  else s.foldReport r

/-- The buckets in use brought up to now, before a rate changes (R662). -/
def State.settleBuckets (s : State) : State :=
  { s with recorder := { s.recorder with buckets := s.recorder.buckets.map fun p => (p.1, (s.bucket p.1, s.now)) } }

/-- R667: a clear is in progress, and the recorder takes no report. -/
def State.clearing (s : State) : Bool := s.recorder.clear.isSome

/-- EVENT_REPORT: the recorder takes the oldest report, unless a clear is in progress (R667 steps 1 and 6). -/
def doEventReport (s : State) : State :=
  match s.recorder.queue with
  | [] => s
  | r :: q => if s.clearing then s else { s with recorder := { s.recorder with queue := q } }.handleReport r

/-- EVENT_REPORT. -/
def execEventReport (s : State) : Host.Outcome State Fault Refusal := .next (doEventReport s)

/-! ## The NVM as a part -/

/-- Bytes of the NVM as a little-endian number. -/
def State.nvmRd (s : State) (a n : Nat) : Nat := rdCells nvmDefault s.nvm.cells a n

/-- Programming clears bits and sets none (PRESUMED for NOR flash, log 38). -/
def nvmProgram (cells : List Host.Cell) : Nat → List Nat → List Host.Cell
  | _, [] => cells
  | a, v :: vs => nvmProgram (wrCell nvmDefault cells a (rdCell nvmDefault cells a &&& v)) (a + 1) vs

/-- Bytes programmed into the NVM. -/
def State.nvmWr (s : State) (a : Nat) (l : List Nat) : State :=
  { s with nvm := { s.nvm with cells := nvmProgram s.nvm.cells a l } }

/-- A 64 KiB block erased. -/
def State.nvmEraseBlock (s : State) (a : Nat) : State :=
  { s with nvm := { s.nvm with cells := s.nvm.cells.filter fun c => !(a ≤ c.1 && c.1 < a + 65536) } }

/-- Regions of R598: fault history, persisted events. -/
def nvmHistory : Nat := 0x2400000
/-- First byte of the persisted events. -/
def nvmEvents : Nat := 0x2C00000

/-- Whether the NVM interface serves transfers: after the image phase, with a part that answers (R599, R614). -/
def State.nvmServes (s : State) : Bool :=
  !s.perst && s.fld .startStatus_phase 0 > 2 && !s.flag .startStatus_nvmFail 0

/-- Every rail is in its range: while one is not, no fuse and no NVM region is written (R702). -/
def State.railsOk (s : State) : Bool := s.railUntil ≤ s.now

/-! ## Fault history on the NVM -/

/-- A history record as one number (R561). -/
def HistRec.num (r : HistRec) : Nat :=
  r.seq % 2 ^ 32 + r.boot % 2 ^ 32 * 2 ^ 32 + r.time % 2 ^ 64 * 2 ^ 64 + r.unit % 256 * 2 ^ 128 +
    r.kind % 256 * 2 ^ 136 + r.die % 16 * 2 ^ 144 + r.index % 2 ^ 16 * 2 ^ 152 + r.detail % 2 ^ 32 * 2 ^ 168 +
    0xA5 * 2 ^ 504

/-- Places of the history region (R561). -/
def histPlaces : Nat := 131072

/-- The record at a place. -/
def State.histAt (s : State) (i : Nat) : Nat := s.nvmRd (nvmHistory + 64 * i) 64

/-- Transient class of R562. -/
def histTransient (v : Nat) : Bool :=
  hrKind v == 1 || hrKind v == 6 || hrKind v == 7 || hrKind v == 10 || hrKind v == 12 ||
    (hrKind v == 4 && hrUnit v != 9)

/-- Places of the region that hold a byte other than the erased value, in rising order. -/
def State.histUsed (s : State) : List Nat :=
  (s.nvm.cells.filterMap fun c =>
    if nvmHistory ≤ c.1 ∧ c.1 < nvmEvents then some ((c.1 - nvmHistory) / 64) else none).eraseDups

/-- The first place that has never been written. -/
def freePlace (used : List Nat) : Nat := used.foldl (fun n k => if k = n then n + 1 else n) 0

/-- Where the next history record goes: a free place, else the oldest transient-class record (R562). -/
def State.histPlace (s : State) : Option Nat :=
  let u := s.histUsed
  if u.length < histPlaces then some (freePlace u)
  else
    (u.foldl (fun (a : Option (Nat × Nat)) k =>
      let v := s.histAt k
      if histTransient v then
        match a with
        | none => some (k, hrSeq v)
        | some q => if hrSeq v < q.2 then some (k, hrSeq v) else a
      else a) none).map (·.1)

/-- A record written over a place. How the part overwrites 64 bytes is not said; the place then holds the record
(log 39). -/
def State.histPut (s : State) (i : Nat) (r : HistRec) : State :=
  { s with nvm := { s.nvm with cells := wrCells nvmDefault s.nvm.cells (nvmHistory + 64 * i) (leBytes 64 r.num) } }

/-- The valid records of the region in order of SEQ. -/
def State.histRecords (s : State) : List Nat :=
  let l := (s.histUsed.map s.histAt).filter fun v => hrValid v == 0xA5
  l.foldl (fun acc v => acc.takeWhile (fun w => hrSeq w ≤ hrSeq v) ++ v :: acc.dropWhile (fun w => hrSeq w ≤ hrSeq v)) []

/-- Highest SEQ and highest BOOT of the region, 0 when it holds no record. -/
def State.histTop (s : State) : Nat × Nat :=
  let l := s.histRecords
  (l.foldl (fun m v => max m (hrSeq v)) 0, l.foldl (fun m v => max m (hrBoot v)) 0)

/-- A dropped record gives its SEQ back to those that wait behind it: SEQ is one above the last written (R561). -/
def HistRec.earlier (r : HistRec) : HistRec := { r with seq := r.seq - 1 }

/-- The oldest waiting history record is written, or dropped with HISTORY_FULL (R562). -/
def State.histWrite (s : State) : State :=
  match s.nvm.histQ with
  | [] => s
  | r :: q =>
    match s.histPlace with
    | some i => { s with nvm := { s.nvm with histQ := q } }.histPut i r
    | none => { s with nvm := { s.nvm with
        histQ := q.map HistRec.earlier
        histSeq := s.nvm.histSeq - 1 } }.raise .historyFull 15 0xFF 0 r.seq 0

/-- Every waiting history record written. -/
def State.histDrain (s : State) : State := s.nvm.histQ.foldl (fun s _ => s.histWrite) s

/-! ## Event batches -/

/-- Next record of a batch: four to a page. -/
def pageOf (l : List EvRec) : List Nat := l.flatMap fun e => leBytes 64 e.num

/-- Pages of a batch programmed from page `p` on; a block is erased before its first page (R665, R666). -/
def State.writePages (s : State) : Nat → List EvRec → State
  | 0, _ => s
  | _, [] => s
  | fuel + 1, l =>
    let p := s.recorder.page
    let a := nvmEvents + 256 * p
    let s := if p % 256 = 0 then s.nvmEraseBlock a else s
    let s := s.nvmWr a (pageOf (l.take 4))
    State.writePages { s with recorder := { s.recorder with page := (p + 1) % 4096 } } fuel (l.drop 4)

/-- R665: whether a batch is due. -/
def State.batchDue (s : State) : Bool :=
  s.recorder.persistQ.length ≥ 16 ||
    s.recorder.persistQ.any fun p =>
      s.now ≥ p.2 + 100000000 || p.1.rep.sev == 4 || p.1.rep.code == Err.code .eventsCleared

/-- R599, R693, R694: whether a batch may use the interface now. -/
def State.batchFree (s : State) : Bool :=
  s.nvm.histQ.isEmpty && s.nvm.erases.isEmpty && !s.flag .startStatus_retireErase 0 && s.railsOk &&
    (s.nvm.op.isNone || s.recorder.persistQ.any fun p => s.now ≥ p.2 + 1000000000)

/-- EVENT_PERSIST_BATCH. -/
def doPersistBatch (s : State) : State :=
  if s.nvmServes && s.batchDue && s.batchFree then
    let q := s.recorder.persistQ.map (·.1)
    (({ s with recorder := { s.recorder with persistQ := [] } }).writePages q.length q)
  else s

/-- EVENT_PERSIST_BATCH. -/
def execEventPersistBatch (s : State) : Host.Outcome State Fault Refusal := .next (doPersistBatch s)

/-! ## Host operations on the NVM -/

/-- Regions that a host may program or erase (R647): the image slots, the plan slots, the pattern bundles. -/
def nvmWritable (a n : Nat) : Bool :=
  (a + n ≤ 0x2400000) || (0x2D00000 ≤ a && a + n ≤ 0x6D00000)

/-- First byte of the reserve of R598. -/
def nvmReserve : Nat := 0x6D00000

/-- Bytes of a unit: a page, or a block for an erase (R692). -/
def nvmUnitSize (op : Nat) : Nat := if op = 3 then 65536 else 256

/-- R647: whether an operation is refused. -/
def State.nvmRefused (s : State) (op off len buf : Nat) : Bool :=
  let n := nvmUnitSize op * len
  !(1 ≤ op && op ≤ 3) || off % nvmUnitSize op != 0 || len == 0 || (op == 3 && len > 2048) ||
    off + n > nvmReserve || s.flag .startStatus_nvmFail 0 ||
    (op != 1 && (!nvmWritable off n || s.fuses.state == 4)) ||
    (op != 3 && (buf % 64 != 0 || !s.dram buf n))

/-- GO with an OP (R646): BUSY is set; a refused operation only ends. The fields hold what the write left in them. -/
def doNvmGo (op off : Nat) (s : State) : State :=
  if !s.ready || s.flag .hifNvmctl_busy 0 then s
  else
    let s := (s.setFld .hifNvmctl_op 0 op).setFld .hifNvmctl_offset 0 off
    let s := (s.setFlag .hifNvmctl_busy 0 true).setFld .hifNvmctl_result 0 0
    let off := s.fld .hifNvmctl_offset 0
    let len := s.fld .hifNvmctl_length 0
    let buf := s.fld .hifNvmctl_buf 0
    if s.nvmRefused op off len buf then { s with nvm := { s.nvm with opEnd := some 2 } }
    else { s with nvm := { s.nvm with op := some (op, off, len, buf) } }

/-- NVM_READ. -/
def execNvmRead (offset : Nat) (s : State) : Host.Outcome State Fault Refusal := .next (doNvmGo 1 offset s)
/-- NVM_PROGRAM. -/
def execNvmProgram (offset : Nat) (s : State) : Host.Outcome State Fault Refusal := .next (doNvmGo 2 offset s)
/-- NVM_ERASE. -/
def execNvmErase (offset : Nat) (s : State) : Host.Outcome State Fault Refusal := .next (doNvmGo 3 offset s)

/-- One unit of a host operation moved between the part and the buffer. -/
def State.nvmMove (s : State) (op off buf : Nat) : State :=
  match op with
  | 1 => s.store buf (leBytes 256 (s.nvmRd off 256))
  | 2 => s.nvmWr off (s.rdL buf 256)
  | _ => s.nvmEraseBlock off

/-- One unit of the host operation in progress; `ok` is the part's answer. -/
def State.hostUnit (s : State) (ok : Bool) : State :=
  match s.nvm.op with
  | none => s
  | some (op, off, n, buf) =>
    let close (s : State) (r : Nat) : State :=
      { s with nvm := { s.nvm with
          op := none
          opEnd := some r } }
    if !ok then close s 3
    else
      let s' := if op = 2 then
          match s.firstPoison buf 256 with
          | some g => close (s.uncorrectable (64 * g)) 3
          | none => (s.counted buf 256).nvmMove op off buf
        else s.nvmMove op off buf
      if s'.nvm.op.isNone then s'
      else if n ≤ 1 then close s' 1
      else { s' with nvm := { s'.nvm with op := some (op, off + nvmUnitSize op, n - 1, buf + nvmUnitSize op) } }

/-! ## Clearing -/

/-- Steps 1 to 3 of R667, with the key's digest: the recorder stops, its queue is emptied, every slot of the ring is
marked empty, EVT.LOST is set to 0. The erases of step 4 are queued. -/
def State.clearStart (s : State) (keyDigest : Nat) : State :=
  let head := s.fld .evtHead_headSeq 0
  let lost := s.fld .evtLost_debug 0 + s.fld .evtLost_info 0 * 2 ^ 16 + s.fld .evtLost_warning 0 * 2 ^ 32 +
    s.fld .evtLost_error 0 * 2 ^ 48
  let lost2 := s.fld .evtLost_fatal 0 + s.fld .evtLost_rate 0 * 2 ^ 16 + s.fld .evtLost_persist 0 * 2 ^ 32
  let stale := s.recorder.ring.foldl (fun t (k, e) => Tab.upd t k e) s.recorder.stale
  let s := { s with
    recorder := { s.recorder with
      persistQ := []
      ring := []
      stale := stale
      clear := some (head, lost, lost2, keyDigest % 2 ^ 64) }
    nvm := { s.nvm with erases := (List.range 16).map fun k => nvmEvents + 65536 * k } }
  let s := [Field.evtLost_debug, .evtLost_info, .evtLost_warning, .evtLost_error, .evtLost_fatal, .evtLost_rate,
    .evtLost_persist].foldl (fun s f => s.setFld f 0 0) s
  s.ringChange

/-- Step 5 of R667: EVENTS_CLEARED is inserted, and the recorder takes reports again. -/
def State.clearDone (s : State) : State :=
  match s.recorder.clear with
  | some (a, b, c, d) =>
    { s with recorder := { s.recorder with clear := none } }.insertReport
      ⟨Err.code .eventsCleared, 2, 15, 0xFF, s.now, s.evStep, a, b, c, d⟩
  | none => s

/-- CLEAR_EVENTS (R667). Where nothing may be erased (R614), the clear ends at once. -/
def State.clearEvents (s : State) (keyDigest : Nat) : State :=
  let s := s.clearStart keyDigest
  if s.flag .startStatus_nvmFail 0 then { s with nvm := { s.nvm with erases := [] } }.clearDone else s

/-- The next block of a clear erased; with the last one the clear is done. -/
def State.eraseNext (s : State) : State :=
  match s.nvm.erases with
  | a :: r =>
    let s := { s with nvm := { s.nvm with erases := r } }.nvmEraseBlock a
    if r.isEmpty then s.clearDone else s
  | [] => s

/-- What waits for the NVM is written before a life-cycle command resets the device (R591): history, the erases of a
clear and its record, the reports that wait, and the persistence queue (DEDUCED, log 217). -/
def State.nvmFlush (s : State) : State :=
  if s.flag .startStatus_nvmFail 0 then s
  else
    let s := s.nvm.erases.foldl (fun s _ => s.eraseNext) s.histDrain
    let s := s.recorder.queue.foldl State.handleReport { s with recorder := { s.recorder with queue := [] } }
    let q := s.recorder.persistQ.map (·.1)
    { s with recorder := { s.recorder with persistQ := [] } }.writePages q.length q

/-- NVM_UNIT (R599, R692, R694): the next transfer in order: a history record, a block of a clear, else a unit of the
host's operation. While a rail is out of range nothing is written (R702). -/
def doNvmUnit (ok : Bool) (s : State) : State :=
  if !s.nvmServes || !s.railsOk then s
  else if !s.nvm.histQ.isEmpty then s.histWrite
  else if !s.nvm.erases.isEmpty then s.eraseNext
  else if s.recorder.persistQ.any (fun p => s.now ≥ p.2 + 1000000000) then s
  else s.hostUnit ok

/-- NVM_UNIT. -/
def execNvmUnit (ok : Bool) (s : State) : Host.Outcome State Fault Refusal := .next (doNvmUnit ok s)

/-- NVM_OPERATION_COMPLETE (R646, R647): RESULT is set, BUSY clears and vector NVM is signalled. -/
def doNvmDone (s : State) : State :=
  match s.nvm.opEnd with
  | none => s
  | some r =>
    let s := { s with nvm := { s.nvm with opEnd := none } }
    ((s.setFld .hifNvmctl_result 0 r).setFlag .hifNvmctl_busy 0 false).signal 8

/-- NVM_OPERATION_COMPLETE. -/
def execNvmOperationComplete (s : State) : Host.Outcome State Fault Refusal := .next (doNvmDone s)

end Sys2Proof.Machine
end

