-- ==== Sys2Proof/Machine/Survey.lean ====
section
/-! DEFINITION. Torus ports before they carry traffic: training, the cable survey (R411 to R416), restarts (R621), and
a port that goes down (R387). -/

namespace Sys2Proof.Machine

/-! ## Plan -/

/-- The plan's record of port p (R411). -/
def State.portRec (s : State) (p : Nat) : Nat := s.tor.plan.getD p 0

/-- R376: whether the extents and the plan leave port p in use. -/
def State.axisUsed (s : State) (p : Nat) : Bool :=
  match p / 2 with
  | 0 => s.fld .torCoord_extT 0 ≥ 2
  | 1 => s.fld .torCoord_extS 0 ≥ 2
  | 2 => s.fld .torCoord_extP 0 ≥ 2
  | 3 => s.fld .torCoord_extX 0 ≥ 2
  | 4 => s.fld .torCoord_extD 0 ≥ 2
  | _ => s.fld .torCoord_extD 0 ≥ 4 && s.flag .torCoord_guardEn 0

/-- Whether port p can train: its I/O die has joined (R21), a plan is in use (R609), its axis is used, the clock runs
(R706), and the device is not BLANK, where every port stays down (R612). -/
def State.portUsable (s : State) (p : Nat) : Bool :=
  p < 12 && (p < 6 || s.flag .orgIdent_io1Joined 0) && !s.flag .startStatus_noPlan 0 && s.axisUsed p && !s.refclkLost &&
    s.fuses.state != 0

/-- Whether port p carries bolts. -/
def State.portUp (s : State) (p : Nat) : Bool := s.fld .torPstat_state p == 3

/-- Whether both ends have accepted the link of port p. -/
def State.portAgreed (s : State) (p : Nat) : Bool := (s.port p).judged && (s.port p).accepted && (s.port p).peerAccepted

/-- Whether bolts may wait for port p: it is up, or an agreed link retrains (R387). -/
def State.portOpen (s : State) (p : Nat) : Bool := s.portUp p || ((s.port p).retraining && s.portAgreed p)

/-- I/O die of a port (R370). -/
def portDie (p : Nat) : Nat := if p < 6 then 8 else 9

/-! ## Virtual channels -/

/-- Response class of R379. -/
def respClass (op : Nat) : Bool := op == 7 || op == 8 || op == 9

/-- Axis of a port: the guard ports run on D. -/
def portAxis (p : Nat) : Nat := min 4 (p / 2)

/-- Virtual channel of a bolt on a port (R390, R402). -/
def State.vcOf (s : State) (p : Nat) (b : Bolt) (sel : Nat) : Fin 4 :=
  let a := portAxis p
  let c := coordOn s.coord a
  let e := coordOn b.dest a
  let low := if sel = 1 then true else if sel = 2 then false
    else (p % 2 == 0 && e < c) || (p % 2 == 1 && e > c)
  match respClass b.op, low with
  | false, true => 0
  | false, false => 1
  | true, true => 2
  | true, false => 3

/-! ## Going down -/

/-- Lane fields of a port. -/
def State.setLanes (s : State) (p mask : Nat) : State :=
  (s.setFld .torPstat_lanes p ((List.range 4).filter (bit mask)).length).setFld .torPstat_laneMask p mask

/-- CABLE_MISMATCH (R415) with the severity of its outcome. -/
def State.cableEvent (s : State) (p f : Nat) (up : Bool) : State :=
  if f = 0 ∨ f = 5 then s
  else s.raiseSev .cableMismatch (if up then 2 else 3) (if p < 6 then 8 else 9) p 0 f
    (s.fld .torPstat_peerCoord p) 0

/-- The CABLE_MISMATCH of an accepted link, once it is known whether the port comes up (R415). -/
def State.settleCable (s : State) (p : Nat) (up : Bool) : State :=
  if (s.port p).cableDue then
    (s.setPort p { s.port p with cableDue := false }).cableEvent p (s.fld .torPstat_finding p) up
  else s

/-- R387: bolts sent and not passed on, in replay, begun, or waiting to leave are discarded and counted; the link layer
starts afresh. Bolts already passed on stay. A port accepted and not yet up stays down (R415). -/
def State.portOff (s : State) (p st : Nat) : State :=
  let s := s.settleCable p false
  let x := s.port p
  let n := x.egress.length + (x.replay.map fun r => (raftEnded r).length).foldl (· + ·) 0 +
    (x.part.filter fun b => b.2.op != 0).length
  let s := (s.setPort p { ({} : Port) with
    ingress := x.ingress
    downRaised := x.downRaised
    opRaised := x.opRaised }).bump .torDrops_route 0 n
  (s.setFld .torPstat_state p st).setLanes p 0

/-! ## Training and survey -/

/-- A port starts to train and to be surveyed. -/
def State.portTrain (s : State) (p : Nat) : State :=
  s.portOff p 1

/-- Phase 6 begins: every usable port trains; the others have nothing to wait for (R376, R609, R614). -/
def State.startPorts (s : State) : State :=
  (List.range 12).foldl (fun s p =>
    if s.portUsable p then s.portTrain p
    else
      let s := s.setPort p { s.port p with
        timedOut := true
        judged := true }
      s.setFld .torPstat_state p (if p < 6 || s.flag .orgIdent_io1Joined 0 then
        (if s.flag .startStatus_noPlan 0 then 0 else 5) else 0)) s

/-- Payload of a SURVEY bolt (R412). -/
def State.surveyPayload (s : State) (p : Nat) (accept : Bool) : Nat :=
  s.fld .secIdhash_idHash 0 + s.fld .torCoord_coord 0 * 2 ^ 256 + p * 2 ^ 273 + s.tor.planId * 2 ^ 280 +
    b2n accept * 2 ^ 312

/-- A SURVEY bolt put on its port; DEST names the planned peer (DESIGN CHOICE, log 42). -/
def State.sendSurvey (s : State) (p : Nat) (accept : Bool) : State :=
  let b : Bolt := ⟨ppPeerCoord (s.portRec p), ctxFabric, 10, s.fld .torEdition_current 0, 0, true, 0, 0,
    s.surveyPayload p accept⟩
  s.setPort p { s.port p with egress := (s.port p).egress ++ [(s.vcOf p b 0, b)] }

/-- The lanes a training found good; a mask of 0 stands for all four. -/
def goodLanes (mask : Nat) : Nat := if mask % 16 = 0 then 15 else mask % 16

/-- PORT_TRAINING_COMPLETE (R412, R416, R617): a port that is down or training is surveyed; a used one sends its first
SURVEY. A port does not run on fewer than two lanes (R387): it goes on training. One that retrains is not surveyed. -/
def doPortTrained (p mask : Nat) (s : State) : State :=
  if [0, 1, 4].contains (s.fld .torPstat_state p) ∧ s.portUsable p ∧ !s.dead ∧ !s.tripped ∧
      s.fld .startStatus_phase 0 ≥ 6 ∧ !(s.port p).retraining ∧ 2 ≤ onesIn 4 (goodLanes mask) then
    let s := s.setPort p { s.port p with
      surveyed := none
      timedOut := false
      accepted := false
      peerAccepted := false
      peerRefused := false
      judged := false }
    let s := (s.setFld .torPstat_state p 2).setLanes p (goodLanes mask)
    if ppUsed (s.portRec p) = 1 then s.sendSurvey p false else s
  else s

/-- PORT_TRAINING_COMPLETE. -/
def execPortTrainingComplete (p : Fin 12) (mask : Nat) (s : State) : Host.Outcome State Fault Refusal :=
  .next (doPortTrained p mask s)

/-- PORT_TRAINING_TIMEOUT (R413): of a port that trains, or has gone down. -/
def doTrainingTimeout (p : Nat) (s : State) : State :=
  if s.fld .torPstat_state p ≤ 1 ∧ !(s.port p).judged then s.setPort p { s.port p with timedOut := true } else s

/-- PORT_TRAINING_TIMEOUT. -/
def execPortTrainingTimeout (p : Fin 12) (s : State) : Host.Outcome State Fault Refusal :=
  .next (doTrainingTimeout p s)

/-- SURVEY_TIMEOUT (R413). -/
def doSurveyTimeout (p : Nat) (s : State) : State :=
  if s.fld .torPstat_state p = 2 ∧ !(s.port p).judged ∧ (s.port p).surveyed.isNone then
    s.setPort p { s.port p with timedOut := true }
  else s

/-- SURVEY_TIMEOUT. -/
def execSurveyTimeout (p : Fin 12) (s : State) : Host.Outcome State Fault Refusal := .next (doSurveyTimeout p s)

/-- Whether the survey payload seen on port p names the peer planned for port q. -/
def State.seesPeerOf (s : State) (p q : Nat) : Bool :=
  match (s.port p).surveyed with
  | some v => svCoord v == ppPeerCoord (s.portRec q) && svPort v == ppPeerPort (s.portRec q) && ppUsed (s.portRec q) == 1
  | none => false

/-- Whether port p restarts (R621). -/
def State.restarting (s : State) (p : Nat) : Bool := bit (s.fld .cfgPortctl_busy 0) p

/-- Whether port p and another see the peer planned for each other: one judged earlier keeps its survey (R413). The ports
that restart are judged over those ports alone (R621). -/
def State.swapped (s : State) (p : Nat) : Bool :=
  (List.range 12).any fun q => q != p && s.restarting q == s.restarting p && s.seesPeerOf p q && s.seesPeerOf q p

/-- The finding of R413 for port p. -/
def State.findingOf (s : State) (p : Nat) : Nat :=
  let r := s.portRec p
  match (s.port p).surveyed with
  | none => if ppUsed r = 1 then 3 else 5
  | some v =>
    if ppUsed r = 0 then 4
    else if s.seesPeerOf p p && svPlanId v == s.tor.planId &&
        (ppPeerHash r == 0 || ppPeerHash r == svIdHash v % 2 ^ 64) then 0
    else if s.swapped p then 1
    else 2

/-- Whether the device accepts the link (R414). -/
def State.accepts (s : State) (p f : Nat) : Bool :=
  f == 0 || (ppLearn (s.portRec p) == 1 && (s.port p).surveyed.isSome)

/-- A port whose two ends accept comes up (R414), once it no longer retrains (R387). -/
def State.tryUp (s : State) (p : Nat) : State :=
  if s.portAgreed p then
    if s.fld .torPstat_state p = 2 then (s.setFld .torPstat_state p 3).settleCable p true else s
  else s

/-- Whether the second SURVEY of a port can go: it has trained, and keeps what it sends while it retrains (R387). -/
def State.hasTrained (s : State) (p : Nat) : Bool := s.fld .torPstat_state p == 2 || (s.port p).retraining

/-- One port judged: its finding, the second SURVEY of a port that has trained, and what becomes of it. `f` was found
before any port changed. A trained port that does not come up is held down by the survey; one that has not trained goes on
training (DEDUCED, log 209). -/
def State.judge (s : State) (p f : Nat) : State :=
  let acc := s.accepts p f
  let trained := s.hasTrained p
  let s := s.setFld .torPstat_finding p f
  let s := s.setFld .cfgPortctl_busy 0 (s.fld .cfgPortctl_busy 0 &&& (4095 - 2 ^ p))
  let s := s.setPort p { s.port p with
    judged := true
    accepted := acc
    cableDue := acc && !(s.port p).peerRefused && f != 0 && f != 5 }
  let s := if trained then s.sendSurvey p acc else s
  if acc && !(s.port p).peerRefused then s.tryUp p
  else
    let st := if f = 5 then 5 else if trained && !(s.port p).retraining then 4 else 1
    (s.setFld .torPstat_state p st).cableEvent p f false

/-- Ports that await judgement: those that train or are surveyed, and usable ones that have gone down. -/
def State.unjudged (s : State) : List Nat :=
  (List.range 12).filter fun p => !(s.port p).judged &&
    (s.fld .torPstat_state p != 0 || (s.portUsable p && decide (s.fld .startStatus_phase 0 ≥ 6)))

/-- The ports of a set judged together, once each has a SURVEY or has timed out. -/
def State.judgeSet (s : State) (set : List Nat) : State :=
  if !set.isEmpty && set.all fun p => (s.port p).surveyed.isSome || (s.port p).timedOut then
    let fs := set.map fun p => (p, s.findingOf p)
    fs.foldl (fun s pf => s.judge pf.1 pf.2) s
  else s

/-- SURVEY_JUDGEMENT (R413, R621): the ports that restart are judged over those ports alone, the others apart from
them. -/
def doJudgement (s : State) : State :=
  if s.tripped then s
  else (s.judgeSet (s.unjudged.filter fun p => !s.restarting p)).judgeSet (s.unjudged.filter s.restarting)

/-- SURVEY_JUDGEMENT. -/
def execSurveyJudgement (s : State) : Host.Outcome State Fault Refusal := .next (doJudgement s)

/-- The first SURVEY bolt of an input equal to `b`, taken out of it: its place is free again (R391). -/
def State.takeSurvey (s : State) (p : Nat) (b : Bolt) : State :=
  let x := s.port p
  match x.ingress.find? fun y => y.2 == b with
  | none => s
  | some (v, _) => s.setPort p { x with
      ingress := x.ingress.erase (v, b)
      freed := x.freed.set v (x.freed.getD v 0 + 1) }

/-- PORT_RESTART (R621): the named ports go down, train and are surveyed again; ignored while a main job runs. -/
def doPortRestart (mask : Nat) (s : State) : State :=
  if !s.ready || s.jobRuns || s.tripped then s
  else (List.range 12).foldl (fun s p =>
    if bit mask p && s.portUsable p then
      (s.portTrain p).orFld .cfgPortctl_busy 0 (2 ^ p)
    else s) s

/-- PORT_RESTART. -/
def execPortRestart (mask : Nat) (s : State) : Host.Outcome State Fault Refusal := .next (doPortRestart mask s)

end Sys2Proof.Machine
end

