-- ==== Sys2Proof/Machine/Torus.lean ====
section
/-! DEFINITION. The torus link layer (R382 to R391), routing and editions (R401 to R410), peer contexts (R393 to R398)
and map sweeps (R419). -/

namespace Sys2Proof.Machine

/-! ## Link layer -/

/-- Whether a port's link runs: it has trained, as an unused one may have (R414), and does not retrain, the clock runs (R706),
and the device has not tripped (R90). -/
def State.linkOn (s : State) (p : Nat) : Bool :=
  ([2, 3, 4].contains (s.fld .torPstat_state p) || (s.fld .torPstat_state p == 5 && s.fld .torPstat_lanes p != 0)) && !(s.port p).retraining && !s.refclkLost && !s.tripped

/-- Bolts taken for a raft: at most `n`, in order, each with a credit place on its virtual channel (R391). Returns the
bolts taken, those that stay, and the credits left. -/
def takeBolts : Nat → List Nat → List (Fin 4 × Bolt) → List (Fin 4 × Bolt) × List (Fin 4 × Bolt) × List Nat
  | _, cr, [] => ([], [], cr)
  | 0, cr, l => ([], l, cr)
  | n + 1, cr, x :: r =>
    if cr.getD x.1.val 0 > 0 then
      let (t, k, c) := takeBolts n (cr.set x.1.val (cr.getD x.1.val 0 - 1)) r
      (x :: t, k, c)
    else
      let (t, k, c) := takeBolts (n + 1) cr r
      (t, x :: k, c)

/-- Credits returned in one link word: whole units of 8 places, at most 255 of them. -/
def credUnits (freed : Nat) : Nat := min 255 (freed / 8)

/-- `n` bolts: those given, then IDLE bolts, which carry no credit (R379, R383). -/
def fillIdle (n : Nat) (l : List (Fin 4 × Bolt)) : List (Fin 4 × Bolt) := l ++ List.replicate (n - l.length) (0, idleBolt)

/-- RAFT_SEND (R383, R385, R386): a replayed raft goes unchanged; otherwise a new raft, unless 32 are unacknowledged. It
goes on with the bolt that the last one began, and IDLE bolts fill it. -/
def doRaftSend (p : Nat) (s : State) : State :=
  let x := s.port p
  if !s.linkOn p then s
  else match x.resend with
    | some n =>
      if x.replay.any (·.seq == n) then
        let more := x.replay.any (·.seq == (n + 1) % 4096)
        let s := s.setPort p { x with resend := if more then some ((n + 1) % 4096) else none }
        { s with tor := { s.tor with replays := s.tor.replays + 1 } }.bump .torPstat_replays p 1
      else s.setPort p { x with resend := none }
    | none =>
      if x.replay.length ≥ 32 then s
      else
        let (go, stay, cr) := takeBolts (touchedBolts x.carry - x.part.length) x.credits x.egress
        let bolts := fillIdle (touchedBolts x.carry) (x.part ++ go)
        let r : Raft := ⟨x.txSeq, (x.rxSeq + 4095) % 4096, x.nakOut, x.freed.map credUnits, x.carry, bolts⟩
        s.setPort p { x with
          egress := stay
          credits := cr
          freed := x.freed.map fun f => f - 8 * credUnits f
          carry := (x.carry + raftBits) % boltBits
          part := bolts.drop (wholeBolts x.carry)
          txSeq := (x.txSeq + 1) % 4096
          replay := x.replay ++ [r] }

/-- RAFT_SEND. -/
def execRaftSend (p : Fin 12) (s : State) : Host.Outcome State Fault Refusal := .next (doRaftSend p s)

/-- Rafts still unacknowledged after an ACK_SEQ. -/
def ackRafts (ack : Nat) (l : List Raft) : List Raft :=
  if l.any (·.seq == ack) then (l.dropWhile (·.seq != ack)).drop 1 else l

/-- R407: the staged table becomes current. -/
def State.switchEdition (s : State) : State :=
  let c := s.fld .torEdition_current 0
  let ports := s.tor.ports.map fun (k, x) => (k, { x with
    downRaised := x.downRaised.filter (· != (c + 1) % 4)
    opRaised := false })
  let s := { s with tor := { s.tor with bank0 := s.tor.bank1, bank1 := s.tor.bank0, ports := ports } }
  (((s.setFld .torEdition_current 0 (c + 1)).setFld .torEdition_previous 0 c).setFlag .torEdition_prevLive 0
    true).setFlag .torEdition_staged 0 false

/-- Whether a bolt's edition is the staged one, which it makes current (R407). -/
def State.adopts (s : State) (b : Bolt) : Bool :=
  b.edition == (s.fld .torEdition_current 0 + 1) % 4 && s.flag .torEdition_staged 0 && !s.flag .torEdition_prevLive 0

/-- What the edition of a received bolt does, whatever its kind: the staged one is adopted, and a previous one counts in
ARRIVALS (R406, R407). -/
def State.noteEdition (s : State) (b : Bolt) : State :=
  if s.adopts b then s.switchEdition
  else if s.flag .torEdition_prevLive 0 && b.edition == s.fld .torEdition_previous 0 then
    s.bump .torEdition_arrivals 0 1
  else s

/-- RAFT_RECEIVE (R382 to R387, R391): a good raft in sequence is accepted, with its acknowledgement, credits and the
bolts that end in it; any other is discarded. The fourth failure of the awaited raft in succession retrains the port. -/
def doRaftReceive (p : Nat) (r : Raft) (errs : List (Fin 16 × Fin 544)) (s : State) : State :=
  let x := s.port p
  if !s.linkOn p then s
  else if !raftGood errs then
    let x := { x with
      nakOut := true
      laneErrs := (List.range 4).map fun l =>
        x.laneErrs.getD l 0 + laneErrors errs (s.fld .torPstat_laneMask p) l }
    if r.seq ≠ x.rxSeq then s.setPort p x
    else if x.fails + 1 ≥ 4 then
      (s.setPort p { x with
        fails := 0
        retraining := true }).setFld .torPstat_state p 1
    else s.setPort p { x with fails := x.fails + 1 }
  else if r.seq ≠ x.rxSeq then s
  else
    let rep := ackRafts r.ack x.replay
    let s := s.setPort p { x with
      rxSeq := (x.rxSeq + 1) % 4096
      nakOut := false
      fails := 0
      replay := rep
      resend := if r.nak && !rep.isEmpty then some ((r.ack + 1) % 4096) else x.resend
      credits := (List.range 4).map fun v => min 1024 (x.credits.getD v 0 + 8 * r.cred.getD v 0)
      ingress := x.ingress ++ raftEnded r }
    (raftEnded r).foldl (fun s b => s.noteEdition b.2) s

/-- RAFT_RECEIVE. -/
def execRaftReceive (p : Fin 12) (r : Raft) (errs : List (Fin 16 × Fin 544)) (s : State) :
    Host.Outcome State Fault Refusal := .next (doRaftReceive p r errs s)

/-- The active lane that has shown the most uncorrectable symbols, the lowest of equal ones (log 190). -/
def worstLane (mask : Nat) (errs : List Nat) : Nat :=
  ((List.range 4).filter (bit mask)).foldl (fun w l =>
    if !bit mask w || errs.getD w 0 < errs.getD l 0 then l else w) 0

/-- Lanes left after a retraining that found the lanes `mask` good: the worst one is removed (R387). -/
def State.keptLanes (s : State) (p mask : Nat) : Nat :=
  let old := s.fld .torPstat_laneMask p
  mask &&& old &&& (15 - 2 ^ worstLane old (s.port p).laneErrs)

/-- State of a port that has retrained, by what its survey found (R414, R416). -/
def State.retrainedState (s : State) (p : Nat) : Nat :=
  if s.portAgreed p then 3
  else if (s.port p).judged && (!(s.port p).accepted || (s.port p).peerRefused) then
    (if s.fld .torPstat_finding p = 5 then 5 else 4)
  else 2

/-- RETRAIN_COMPLETE (R387, R416): the port goes on at the width that is left from its last acknowledged raft, or goes
down with fewer than two lanes. A removed lane has its history record (R561). -/
def doRetrain (p mask : Nat) (s : State) : State :=
  let x := s.port p
  if !x.retraining || s.tripped then s
  else
    let old := s.fld .torPstat_laneMask p
    let m := s.keptLanes p mask
    let n := ((List.range 4).filter (bit m)).length
    let s := ((List.range 4).filter fun l => bit old l && !bit m l).foldl (fun s l =>
      s.history 7 7 (portDie p) p l) s
    if n < 2 then (s.portOff p 0).raise .portDown (portDie p) p 0 n 0
    else
      let s := s.setPort p { x with
        retraining := false
        laneErrs := [0, 0, 0, 0]
        resend := x.replay.head?.map (·.seq) }
      let s := (s.setFld .torPstat_state p (s.retrainedState p)).setLanes p m
      let s := if s.portUp p then s.settleCable p true else s
      if m = old then s else s.raise .portDegraded (portDie p) p 0 n 0

/-- RETRAIN_COMPLETE. -/
def execRetrainComplete (p : Fin 12) (mask : Nat) (s : State) : Host.Outcome State Fault Refusal :=
  .next (doRetrain p mask s)

/-! ## Routing -/

/-- What routing decides. -/
inductive Route where
  | deliver
  | absorb
  | port (p : Nat) (vcsel : Nat)
  deriving DecidableEq, Repr

/-- Whether an exception entry matches (R402, R403). -/
def entryMatches (own dest e : Nat) : Bool :=
  xtValid e == 1 && (xtPort e ≤ 11 || xtPort e == 15) && xtVcsel e ≤ 2 &&
    (dest &&& xtMask e) == (xtMatch e &&& xtMask e) &&
    (xtRestOwn e == 0 || (dest &&& (2 ^ 17 - 1 - xtMask e)) == (own &&& (2 ^ 17 - 1 - xtMask e)))

/-- The first matching entry of a table. -/
def findEntry (tab : Tab Nat) (own dest : Nat) : Option Nat :=
  ((List.range 256).map (Tab.get 0 tab)).find? (entryMatches own dest)

/-- Rule 3 of R401. -/
def State.guardRoute (s : State) (dest : Nat) : Option Nat :=
  let own := s.coord
  let e := s.extent 4
  let d := coordOn own 4
  let t := coordOn dest 4
  if s.flag .torCoord_guardEn 0 ∧ dest / 32 = own / 32 ∧ dest ≠ own ∧ e ≠ 0 then
    let up := (d + 2) % e == t
    let dn := (t + 2) % e == d
    if up && dn then some (if d % 2 = 0 then 10 else 11)
    else if up then some 10
    else if dn then some 11
    else none
  else none

/-- Rule 4 of R401: dimension order. -/
def State.dimRoute (s : State) (dest : Nat) : Nat :=
  let own := s.coord
  match (List.range 5).find? fun a => coordOn dest a != coordOn own a with
  | none => 0
  | some a =>
    let e := max 1 (s.extent a)
    let c := coordOn own a
    let t := coordOn dest a
    let up := (t + e - c) % e
    let dn := (c + e - t % e) % e
    if up < dn then 2 * a else if dn < up then 2 * a + 1 else if c % 2 = 0 then 2 * a else 2 * a + 1

/-- The port that a collective's own path takes in place of rules 3 and 4 of R401: on the D axis of two devices only D+
carries collective bolts (R680), a parity ring of four devices runs over G+ (R429), and a bolt of a BROADCAST keeps to the
branch of its DEST (R443; DEDUCED, log 220). -/
def State.collPort (s : State) (b : Bolt) : Option Nat :=
  if inRange 1 3 b.op ∧ s.extent 4 = 2 ∧ b.dest / 32 = s.coord / 32 then some 8
  else if s.onParityRing b then some 10
  else (s.branchOf b).map fun cd =>
    let e := max 1 (s.extent (cdAxis cd))
    2 * cdAxis cd + (if (coordOn b.dest (cdAxis cd) + e - cdRoot cd) % e ≤ e / 2 then 0 else 1)

/-- R401: where a bolt goes, by the table of its edition. -/
def State.routeOn (s : State) (b : Bolt) : Route :=
  let own := s.coord
  if b.dest = own then .deliver
  else
    let tab := if b.edition = s.fld .torEdition_current 0 then s.tor.bank0 else s.tor.bank1
    match findEntry tab own b.dest with
    | some e => if xtPort e = 15 then .absorb else .port (xtPort e) (xtVcsel e)
    | none =>
      match s.collPort b <|> s.guardRoute b.dest with
      | some p => .port p 0
      | none => .port (s.dimRoute b.dest) 0

/-- Where a bolt goes: a broadcast bolt is taken at every destination on its path, which sends it on (R443). -/
def State.route (s : State) (b : Bolt) : Route := if s.forks b then .deliver else s.routeOn b

/-! ## Editions -/

/-- Stamps of contexts once the previous edition has ended: the current one in its place (R409). -/
def State.restamped (s : State) : Tab Nat :=
  s.tor.stamp.map fun p => (p.1, if p.2 = s.fld .torEdition_previous 0 then s.fld .torEdition_current 0 else p.2)

/-- R409: the previous edition ends; every context that still stamps it changes to the current one. -/
def State.retireEdition (s : State) : State :=
  { s with tor := { s.tor with stamp := s.restamped } }.setFlag .torEdition_prevLive 0 false

/-- R406: a write of TOR.EDITION. Each bit is judged on the register before the write; they act in order. -/
def doEditionWrite (v : Nat) (s : State) : State :=
  if !s.ready then s
  else
    let live := s.flag .torEdition_prevLive 0
    let staged := s.flag .torEdition_staged 0
    let s := if bit v 6 && !live then s.setFlag .torEdition_staged 0 true else s
    let s := if bit v 7 && staged && !live then s.switchEdition else s
    if bit v 8 && live then s.retireEdition else s

/-- STAGE_DONE. -/
def execStageDone (value : Nat) (s : State) : Host.Outcome State Fault Refusal := .next (doEditionWrite (value ||| 64) s)
/-- EDITION_SWITCH. -/
def execEditionSwitch (value : Nat) (s : State) : Host.Outcome State Fault Refusal :=
  .next (doEditionWrite (value ||| 128) s)
/-- EDITION_RETIRE. -/
def execEditionRetire (value : Nat) (s : State) : Host.Outcome State Fault Refusal :=
  .next (doEditionWrite (value ||| 256) s)

/-- XENTRY_WRITE (R405): the spare bank is written and STAGED clears; ignored while PREV_LIVE is 1. -/
def doXentryWrite (i v : Nat) (s : State) : State :=
  if !s.ready || s.flag .torEdition_prevLive 0 then s
  else { s with tor := { s.tor with bank1 := Tab.put 0 s.tor.bank1 i (v % 2 ^ 42) } }.setFlag .torEdition_staged 0 false

/-- XENTRY_WRITE. -/
def execXentryWrite (i : Fin 256) (value : Nat) (s : State) : Host.Outcome State Fault Refusal :=
  .next (doXentryWrite i value s)

/-- The bolts whose headers lie in the buffers and replay buffers of the Irale links, of edition `e`. -/
def State.heldSlots (s : State) (e : Nat) : Nat :=
  let n (l : List Slot) := (l.filter fun a => a.kind == 6 && (boltOf (a.payload % 2 ^ 64) 0).edition == e).length
  s.irl.sides.foldl (fun a (_, x) => a + n (x.out.flatMap (·.slots)) + n (x.replay.flatMap (·.slots)))
    (n (s.irl.arrived.map (·.slot)))

/-- Previous-edition bolts in buffers and replay buffers (HELD). -/
def State.heldBolts (s : State) : Nat :=
  if !s.flag .torEdition_prevLive 0 then 0
  else
    let e := s.fld .torEdition_previous 0
    let n (l : List (Fin 4 × Bolt)) := (l.filter fun b => b.2.edition == e).length
    let inPorts := s.tor.ports.foldl (fun a (_, x) =>
      a + n x.egress + n x.ingress + n (x.part.filter fun b => b.2.op != 0) +
        (x.replay.map fun r => n (raftEnded r)).foldl (· + ·) 0) 0
    let q (l : List Bolt) := (l.filter fun b => b.edition == e).length
    inPorts + s.tor.inject.foldl (fun a (_, l) => a + q l) 0 + q s.tor.delivered + s.heldSlots e

/-! ## Routing a bolt -/

/-- The bolt at the head of a source, and the state without it; a place freed at an input is returned later (R391). -/
def State.takeBolt (s : State) (src : BoltSrc) : Option (Bolt × State) :=
  match src with
  | .port p vc =>
    let x := s.port p
    match x.ingress.find? fun b => b.1 == vc && b.2.op != 10 with
    | none => none
    | some (_, b) =>
      some (b, s.setPort p { x with
        ingress := x.ingress.erase (vc, b)
        freed := x.freed.set vc (x.freed.getD vc 0 + 1) })
  | .die d =>
    match Tab.get [] s.tor.inject d with
    | [] => none
    | b :: r => some (b, { s with tor := { s.tor with inject := Tab.upd s.tor.inject d r } })
  | .core =>
    match Tab.get [] s.tor.inject 8 with
    | [] => none
    | b :: r => some (b, { s with tor := { s.tor with inject := Tab.upd s.tor.inject 8 r } })

/-- BOLT_INVALID on the first reserved OP of a port since the last switch (R381). -/
def State.badOp (s : State) (src : BoltSrc) : State :=
  let s := s.bump .torDrops_op 0 1
  match src with
  | .port p _ =>
    let x := s.port p
    if x.opRaised then s
    else (s.setPort p { x with opRaised := true }).raise .boltInvalid (portDie p) p 0 (s.fld .torEdition_current 0) 0
  | _ => s

/-- The I/O die from which a route leaves the package; for a route that ends here, any. -/
def Route.die : Route → Nat
  | .port p _ => portDie p
  | _ => 8

/-- A bolt whose port is down: counted, and ROUTE_DOWN on the first of each port and edition (R401). -/
def State.routeLost (s : State) (p : Nat) (b : Bolt) : State :=
  let s := s.bump .torDrops_route 0 1
  let x := s.port p
  if x.downRaised.contains b.edition then s
  else (s.setPort p { x with downRaised := x.downRaised ++ [b.edition] }).raise .routeDown (portDie p) p 0 b.edition 0

/-- R401: a bolt on its route from I/O die `io`: delivered, absorbed, dropped, queued on its port, or sent on to the other
I/O die, whose port it is (R26). -/
def State.sendVia (s : State) (io : Nat) (b : Bolt) (r : Route) : State :=
  match r with
  | .deliver => { s with tor := { s.tor with delivered := s.tor.delivered ++ [b] } }
  | .absorb => s.bump .torDrops_fenced 0 1
  | .port p sel =>
    if !s.portOpen p then s.routeLost p b
    else if io ≠ portDie p then s.transitOut io (portDie p) b
    else s.setPort p { s.port p with egress := (s.port p).egress ++ [(s.vcOf p b sel, b)] }

/-- R407: what the edition of a bolt does: adopted when it is the staged one, else dropped when it routes nowhere. -/
def State.editionCheck (s : State) (b : Bolt) : Option State :=
  if b.edition = s.fld .torEdition_current 0 then some s
  else if s.flag .torEdition_prevLive 0 then
    if b.edition = s.fld .torEdition_previous 0 then some s else none
  else if s.adopts b then some s.switchEdition
  else none

/-- Whether a route from I/O die `io` has room: 4,096 places at its port (R417). -/
def State.roomVia (s : State) (io : Nat) (r : Route) : Bool :=
  match r with
  | .port p _ => !s.portOpen p || io != portDie p || (s.port p).egress.length < 4096
  | _ => true

/-- The I/O die that routes a bolt of a source: that of the port it came by, the port's own for a compute die, and IO0
for the management core. -/
def routerOf (src : BoltSrc) (r : Route) : Nat :=
  match src with
  | .port p _ => portDie p
  | .die _ => r.die
  | .core => 8

/-- Where a bolt of a source goes; one that a die sends, or sends on (R443), leaves the device. -/
def State.routeFrom (s : State) (src : BoltSrc) (b : Bolt) : Route :=
  match src with
  | .die _ => s.routeOn b
  | _ => s.route b

/-- BOLT_ROUTE (R401, R404, R407); a device that has tripped forwards nothing (R90). -/
def doBoltRoute (src : BoltSrc) (s : State) : State :=
  match if s.tripped then none else s.takeBolt src with
  | none => s
  | some (b, t) =>
    if b.op ≥ 12 then t.badOp src
    else match t.editionCheck b with
      | none => t.bump .torDrops_edition 0 1
      | some u =>
        let r := u.routeFrom src b
        if u.roomVia (routerOf src r) r then u.sendVia (routerOf src r) b r
        else (s.editionCheck b).getD s

/-- BOLT_ROUTE. -/
def execBoltRoute (src : BoltSrc) (s : State) : Host.Outcome State Fault Refusal := .next (doBoltRoute src s)

/-! ## Survey -/

/-- What the first SURVEY on a port gives: the peer's identity, and the acceptance of a peer that learns and sends only the
one; what the second gives: its acceptance (R412 to R414). A port that retrains keeps its survey (R416). -/
def State.heardSurvey (s : State) (p v : Nat) : State :=
  let x := s.port p
  match x.surveyed with
  | none =>
    if x.judged then s
    else
      let s := s.setPort p { x with
        surveyed := some v
        peerAccepted := svAccept v == 1 }
      (s.setFld .torPstat_peerCoord p (svCoord v)).setFld .torPstat_peerPort p (svPort v)
  | some _ =>
    let a := svAccept v == 1
    let s := s.setPort p { x with
      peerAccepted := a
      peerRefused := !a }
    if a then s.tryUp p
    else if x.judged && x.accepted then
      (s.setFld .torPstat_state p (if x.retraining then 1 else 4)).settleCable p false
    else s

/-- SURVEY (R412 to R415): taken by a port that is surveyed, unless its edition routes nowhere (R407). A device that has
tripped takes none (R90). -/
def doSurvey (p : Nat) (b : Bolt) (s : State) : State :=
  if s.tripped then s
  else
  let s := s.takeSurvey p b
  match s.editionCheck b with
  | none => s.bump .torDrops_edition 0 1
  | some s =>
    if s.hasTrained p && !s.portAgreed p || s.fld .torPstat_state p == 4 then s.heardSurvey p b.payload else s

/-- SURVEY. -/
def execSurvey (p : Fin 12) (b : Bolt) (s : State) : Host.Outcome State Fault Refusal := .next (doSurvey p b s)

/-! ## Contexts -/

/-- Edition that a context stamps (R398): that of its bolts not yet credited, else the current one. -/
def State.stampOf (s : State) (c : Nat) : Nat :=
  if Tab.get 0 s.tor.unreturned c = 0 then s.fld .torEdition_current 0
  else Tab.get (s.fld .torEdition_current 0) s.tor.stamp c

/-- Whether a context may send now: open, with a credit (R397). -/
def State.canSend (s : State) (c : Nat) : Bool := s.flag .ctxEntry_open c && s.fld .ctxEntry_credits c > 0

/-- The number that a context has at its peer, as the header's CONTEXT gives it. The contexts of a block lie apart by the
coordinates of an axis, so the peer holds this device's context at its own number plus the difference (DEDUCED from R396
and R425, log 89); a board-access context has one number at both ends. -/
def State.farCtx (s : State) (c : Nat) : Nat :=
  let p := s.fld .ctxEntry_peer c
  if s.fld .ctxEntry_kind c ≥ 2 then c
  else match (List.range 5).find? fun a => coordOn p a != s.ownOn a with
    | some a => c + s.ownOn a - coordOn p a
    | none => c

/-- A sequence-checked bolt sent on context `c` by injection queue `k` (R396 to R398). The caller has checked
`canSend`. -/
def State.ctxSend (s : State) (k c op : Nat) (last : Bool) (scale1 scale0 payload : Nat) : State :=
  let e := s.stampOf c
  let q := s.fld .ctxEntry_txSeq c
  let s := s.inject k ⟨s.fld .ctxEntry_peer c, s.farCtx c, op, e, q, last, scale1, scale0, payload⟩
  let s := (s.setFld .ctxEntry_txSeq c (q + 1)).setFld .ctxEntry_credits c (s.fld .ctxEntry_credits c - 1)
  { s with tor := { s.tor with
    stamp := Tab.upd s.tor.stamp c e
    unreturned := Tab.put 0 s.tor.unreturned c (Tab.get 0 s.tor.unreturned c + 1) } }

/-- A CREDIT bolt that returns `n` credits to the peer of a context (R397; one for each bolt freed, log 44). -/
def State.returnCredit (s : State) (k c n : Nat) : State :=
  s.inject k ⟨s.fld .ctxEntry_peer c, s.farCtx c, 9, s.stampOf c, 0, true, 0, 0, n⟩

/-- A delivered bolt leaves the delivery buffer. -/
def State.takeDelivered (s : State) (b : Bolt) : State :=
  { s with tor := { s.tor with delivered := s.tor.delivered.erase b } }

/-- Whether an edition is older than the one a context opened at (R396). -/
def State.olderThan (s : State) (e opened : Nat) : Bool :=
  let c := s.fld .torEdition_current 0
  let p := s.fld .torEdition_previous 0
  (opened == c && e == p && e != c) || (e != c && e != p)

/-- Check 1 of R396. -/
def State.epochOk (s : State) (b : Bolt) : Bool :=
  s.flag .ctxEntry_open b.ctx && !s.olderThan b.edition (s.fld .ctxEntry_openEdition b.ctx)

/-- What the checks of R396 find. -/
inductive Arrival where
  | dropped (s : State)
  | fault (s : State)
  | accepted (s : State)

/-- R396 on a delivered bolt. -/
def State.arrive (s : State) (b : Bolt) : Arrival :=
  let s := s.takeDelivered b
  if !s.epochOk b then .dropped (s.bump .torDrops_epoch 0 1)
  else if b.seq ≠ s.fld .ctxEntry_rxSeq b.ctx then
    .fault ((s.bump .torDrops_seq 0 1).setFlag .ctxEntry_fault b.ctx true)
  else .accepted (s.setFld .ctxEntry_rxSeq b.ctx (s.fld .ctxEntry_rxSeq b.ctx + 1))

/-- Bolts of a context not yet credited. -/
def State.setUnreturned (s : State) (c n : Nat) : State :=
  { s with tor := { s.tor with unreturned := Tab.put 0 s.tor.unreturned c n } }

/-- Response bolts of a context sent while credits last. -/
def State.sendAnswers (s : State) (c : Nat) : Nat → State
  | 0 => s
  | fuel + 1 =>
    match Tab.get [] s.tor.answers c with
    | (k, op, last, p) :: r =>
      if s.canSend c then
        State.sendAnswers ({ s with tor := { s.tor with answers := Tab.put [] s.tor.answers c r } }.ctxSend k c op last 0
          0 p) c fuel
      else s
    | [] => s

/-- Response bolts of die `k` put behind those that wait, and sent as far as credits go. -/
def State.answerWith (s : State) (c : Nat) (l : List (Nat × Nat × Bool × Nat)) : State :=
  let q := Tab.get [] s.tor.answers c ++ l
  { s with tor := { s.tor with answers := Tab.put [] s.tor.answers c q } }.sendAnswers c q.length

/-- CREDIT (R396, R397): check 1 alone; the count joins the context's credits. -/
def doCredit (b : Bolt) (s : State) : State :=
  let s := s.takeDelivered b
  if !s.epochOk b then s.bump .torDrops_epoch 0 1
  else
    let n := bits b.payload 0 16
    let left := Tab.get 0 s.tor.unreturned b.ctx - n
    ((s.bump .ctxEntry_credits b.ctx n).setUnreturned b.ctx left).answerWith b.ctx []

/-! ## Map sweep -/

/-- MAP (R419): a collector stores the record at its sender's place; another device drops it. A device that has tripped
takes none (R90). -/
def doMap (b : Bolt) (s : State) : State :=
  if s.tripped then s
  else
  let s := s.takeDelivered b
  if s.flag .congSweep_isCollector 0 then
    let a := s.fld .congSweep_buffer 0 + 64 * bits b.payload 0 17
    if (s.region a).isMemory then s.store a (leBytes 64 b.payload) else s
  else s.bump .torDrops_op 0 1

/-- MAP. -/
def execMap (b : Bolt) (s : State) : Host.Outcome State Fault Refusal := .next (doMap b s)

end Sys2Proof.Machine
end

