-- ==== Sys2Proof/Machine/Stream.lean ====
section
/-! DEFINITION. Yarders and streams (R337 to R369): the walk, the checks, slots and latching, the movement of granules,
tally passes, the bandwidth regulator, and the issuing side of board-wide accesses (R38, R298 to R300, R399, R400). -/

namespace Sys2Proof.Machine

/-! ## The descriptor -/

/-- Counts of the dimensions in use. -/
def sdCounts (r : Nat) : List Nat := (List.range (sdNdim r)).map (sdCount r)

/-- Elements of the walk: the product of the counts. -/
def sdTotal (r : Nat) : Nat := (sdCounts r).foldl (· * ·) 1

/-- Element format; FP32 stands for a reserved code, which R352 refuses first. -/
def sdFm (r : Nat) : Fm := (Fm.ofCode (sdFormat r)).getD .fp32

/-- Formats packed below a byte (R101). -/
def Fm.packed : Fm → Bool
  | .f4 | .i4 | .u4 | .f6 => true
  | _ => false

/-- Whether dimension 0 is contiguous by R343: the second and third rows of its table. -/
def walkContig (b r : Nat) : Bool := tdBlocked b == 1 || (sdFm r).packed

/-- Device address bits of START. -/
def sdBase (r : Nat) : Nat := bits (sdStart r) 0 44

/-- The slot that a board address names, when it is another device's (R298, R299). -/
def State.otherSlot (s : State) (a : Nat) : Option Nat :=
  if bit a 46 && bits a 44 2 != s.slot then some (bits a 44 2) else none

/-- Byte offset from START of an index of dimensions `k` on, dimension `k` fastest. -/
def walkHigh (r : Nat) : Nat → Nat → Nat → Int
  | 0, _, _ => 0
  | fuel + 1, k, j =>
    let c := max 1 (sdCount r k)
    (j % c : Nat) * sdStride r k + walkHigh r fuel (k + 1) (j / c)

/-- Byte offset from START, and bit within the byte, of element `j` of the walk (R337, R343). -/
def walkOff (contig : Bool) (r j : Nat) : Int × Nat :=
  let c := max 1 (sdCount r 0)
  let w := (sdFm r).planeBits
  let hi := walkHigh r (sdNdim r - 1) 1 (j / c)
  if contig then (hi + (j % c * w / 8 : Nat), j % c * w % 8)
  else (hi + (j % c : Nat) * sdStride r 0, 0)

/-- Lowest byte of the walk and the byte after its last one, relative to START (R352). -/
def walkSpan (contig : Bool) (r : Nat) : Int × Int :=
  let w := (sdFm r).planeBits
  let unit : Int := if contig then (cdiv (sdCount r 0 * w) 8 : Nat) else (w / 8 : Nat)
  (List.range (sdNdim r)).foldl (fun (lo, hi) k =>
    let x := ((sdCount r k : Int) - 1) * sdStride r k
    (lo + min 0 x, hi + max 0 x)) (0, unit)

/-! ## Checks -/

/-- FIELD_INVALID of R352. -/
def sdFieldsOk (r : Nat) : Bool :=
  sdClean r && !bit (sdStart r) 47 && (bit (sdStart r) 46 || bits (sdStart r) 44 2 == 0) &&
  1 ≤ sdNdim r && sdNdim r ≤ 6 && sdMode r ≤ 2 && sdFormat r ≤ 13 && !(sdMode r != 0 && sdDir r == 1) &&
  (List.range 6).all fun k => k < sdNdim r || (sdCount r k == 0 && sdStride r k == 0)

/-- Whether a whole number divides an integer. -/
def dvd (n : Nat) (i : Int) : Bool := i % (n : Int) == 0

/-- R344: a blocked stream needs a dense BOUND (log 152). -/
def tdDense (b : Nat) : Bool :=
  let w := (tdFm b).planeBits
  ((List.range (tdRank b)).foldl (fun (ok, need) k =>
    (ok && tdStride b (k + 1) == need, need * tdExt b (k + 1))) (true, tdExt b 0 * w / 8)).1

/-- R343 and R344 on a stream, its BOUND and its PACK. -/
def sdAligned (r b p : Nat) : Bool :=
  let w := (sdFm r).planeBits
  let rel : Int := (sdBase r : Int) - (tdBase b : Int)
  let high (n : Nat) := (List.range (sdNdim r)).all fun k => k = 0 || dvd n (sdStride r k)
  if tdBlocked b = 1 then
    let bb := 4 * w
    sdStride r 0 == 0 && dvd bb rel && high bb && sdCount r 0 % 32 == 0 && tdExt b 0 % 32 == 0 &&
      (sdMode r != 0 || tdExt p 0 % 32 == 0) && tdDense b
  else if (sdFm r).packed then
    let (g, per) := if sdFm r = .f6 then (3, 4) else (1, 2)
    sdStride r 0 == 0 && dvd g rel && high g && sdCount r 0 % per == 0
  else sdBase r % (w / 8) == 0 && (List.range (sdNdim r)).all fun k => dvd (w / 8) (sdStride r k)

/-- STREAM_BOUNDS of R352: the walk and, in COPY, the packed range. -/
def State.sdInBounds (s : State) (r b p : Nat) : Bool :=
  let (lo, hi) := walkSpan (walkContig b r) r
  let rel : Int := (sdBase r : Int) - (tdBase b : Int)
  decide (s.otherSlot (sdStart r) = s.otherSlot (tdAddr b)) && decide (0 ≤ rel + lo) &&
    decide (rel + hi ≤ (tdLimit b : Int)) && (sdMode r != 0 || sdPoff r * 32 + sdTotal r ≤ tdCount p)

/-- R352, in the order of its table (DEDUCED, log 59). -/
def State.streamErr (s : State) (r : Nat) : Err :=
  if !sdFieldsOk r then .fieldInvalid
  else match s.descOf (sdBound r), s.descOf (sdPack r) with
    | some b, some p =>
      if (if sdMode r = 0 then sdFormat r != tdFormat b || sdFormat r != tdFormat p || tdBlocked b != tdBlocked p
          else sdFormat r != tdFormat b || tdScaleMode p != 1) then .formatMismatch
      else if !sdAligned r b p then .streamAlign
      else if sdTotal r ≠ 0 && !s.sdInBounds r b p then .streamBounds
      else if sdTotal r > 2 ^ 48 then .streamLength
      else .ok
    | _, _ => .badHandle

/-- R353: what list validation finds in a descriptor. -/
def State.streamCheck (s : State) (r : Nat) : Err := if sdLate r = 1 then .ok else s.streamErr r

/-- R284 as validation applies it: a stream whose destination is a state tensor or lies on another device. What a LATE
stream writes is seen when it wants to start. -/
def State.streamCommit (s : State) (r : Nat) : Bool := sdLate r != 1 && s.streamWrites r

/-! ## Sides -/

/-- One side of a stream: another device's slot when it lies there, the place of element `j`, of its extension half and
of its block's scale byte, and whether reads go through the weight cache (R329). -/
structure Side where
  other : Option Nat
  elem : Nat → Nat × Nat
  ext : Nat → Nat
  scale : Nat → Nat
  shared : Bool

/-- The walked side in copy `cur` (R337, R344 to R346). -/
def State.walkSide (s : State) (r b cur : Nat) : Side :=
  let off := tdCopy cur b
  let pl (j : Nat) := walkOff (walkContig b r) r j
  let rel (j : Nat) := (((sdBase r : Int) + (pl j).1) - (tdBase b : Int)).toNat
  { other := s.otherSlot (sdStart r)
    elem := fun j => (((sdBase r : Int) + (pl j).1).toNat + off, (pl j).2)
    ext := fun j => tdPlane2 b + off + rel j / 2
    scale := fun j => tdPlane2 b + off + rel j / (4 * (sdFm r).planeBits)
    shared := tdSharedRead b == 1 }

/-- The packed side in copy `cur` (R337, R317 to R319). -/
def State.packSide (s : State) (r p cur : Nat) : Side :=
  let idx (j : Nat) := sdPoff r * 32 + j
  { other := s.otherSlot (tdAddr p)
    elem := fun j => tdPlace cur p (idx j)
    ext := fun j => tdExtPlace cur p (idx j)
    scale := fun j => tdScalePlace cur p (idx j)
    shared := tdSharedRead p == 1 }

/-- Elements that move together: a block, a packing group of R101, or one element. -/
def unitOf (b r : Nat) : Nat :=
  if tdBlocked b = 1 then 32 else if sdFm r = .f6 then 4 else if (sdFm r).packed then 2 else 1

/-- Without repeats, in order. -/
def nub (l : List Nat) : List Nat := l.foldl (fun a x => if a.contains x then a else a ++ [x]) []

/-- Granules that elements `j` to `j + n − 1` occupy on a side: element plane, then scale or extension plane. -/
def Side.granules (d : Side) (f : Fm) (blocked : Bool) (j n : Nat) : List Nat :=
  let w := f.planeBits
  let own := (List.range n).flatMap fun i =>
    let (a, b) := d.elem (j + i)
    [a / 64, (a + (b + w - 1) / 8) / 64]
  let more := if blocked then [d.scale j / 64] else if f = .x48 then (List.range n).map fun i => d.ext (j + i) / 64 else []
  nub (own ++ more)

/-- A byte of a side: of device memory, or of a granule received from another device. -/
def State.sideByte (s : State) (d : Side) (got : Tab Nat) (a : Nat) : Nat :=
  match d.other with
  | none => s.rdB a
  | some _ => bits (Tab.get 0 got (a / 64)) (8 * (a % 64)) 8

/-- Bits of a side. -/
def State.sideBits (s : State) (d : Side) (got : Tab Nat) (a b w : Nat) : Nat :=
  let n := cdiv (b + w) 8
  bits (leNat ((List.range n).map fun i => s.sideByte d got (a + i))) b w

/-- Masked cells that store elements `j` to `j + n − 1` read from one side on the other. -/
def State.unitCells (s : State) (f : Fm) (blocked : Bool) (src dst : Side) (got : Tab Nat) (j n : Nat) :
    List (Nat × Nat) :=
  let w := f.planeBits
  let el := (List.range n).flatMap fun i =>
    let (a, b) := src.elem (j + i)
    let (c, e) := dst.elem (j + i)
    maskCells c e w (s.sideBits src got a b w)
  let more := if blocked then maskCells (dst.scale j) 0 8 (s.sideByte src got (src.scale j))
    else if f = .x48 then (List.range n).flatMap fun i =>
      maskCells (dst.ext (j + i)) 0 16 (s.sideBits src got (src.ext (j + i)) 0 16)
    else []
  el ++ more

/-- Masked cells of one byte address joined; a later cell decides its bits (R339). -/
def joinCells (l : List (Nat × Nat)) : Tab Nat :=
  l.foldl (fun t c =>
    let o := Tab.get 0 t c.1
    let m := c.2 / 256
    Tab.upd t c.1 ((o / 256 ||| m) * 256 + ((o % 256 &&& (255 - m)) ||| (c.2 % 256 &&& m)))) []

/-! ## Board-wide accesses, issuing side -/

/-- The open board-access context to a slot of this board: of several, the first in the manifest (DESIGN CHOICE,
log 61). -/
def State.boardCtx (s : State) (slot : Nat) : Option Nat :=
  match s.job.active with
  | none => none
  | some m =>
    (m.ctxs.map ceContext).find? fun c => s.flag .ctxEntry_open c && s.fld .ctxEntry_kind c == 2 &&
      s.fld .ctxEntry_peer c == setCoordOn s.coord 0 slot

/-- Entries taken by, or given back from, board-wide accesses. -/
def State.addRemote (s : State) (d : Nat) (up : Bool) (n : Nat) : State :=
  let x := s.die d
  s.setDie d { x with stRemote := if up then x.stRemote + n else x.stRemote - n }

/-- Payload of a request for one granule with its byte enables (R399). -/
def boardReqPayload (a mask : Nat) : Nat := a % 2 ^ 44 + 2 ^ 48 + mask * 2 ^ 64

/-- Requests on a context. -/
def State.boardReqs (s : State) (c : Nat) : List BoardReq := Tab.get [] s.tor.reqs c

/-- Requests on a context replaced. -/
def State.setBoardReqs (s : State) (c : Nat) (l : List BoardReq) : State :=
  { s with tor := { s.tor with reqs := Tab.upd s.tor.reqs c l } }

/-! ## Slots -/

/-- Slot k of a yarder. -/
def State.slotAt (s : State) (d y k : Nat) : Option StreamRun := ((s.yarder d y).slots.getD k none)

/-- Slot k of a yarder replaced; a yarder has 8. -/
def State.setSlot (s : State) (d y k : Nat) (o : Option StreamRun) : State :=
  let x := s.yarder d y
  s.setYarder d y { x with slots := (List.range 8).map fun i => if i = k then o else x.slots.getD i none }

/-- The streams of a die, with their yarder and slot. -/
def State.dieStreams (s : State) (d : Nat) : List (Nat × Nat × StreamRun) :=
  (List.range 4).flatMap fun y => (List.range 8).filterMap fun k => (s.slotAt d y k).map fun r => (y, k, r)

/-- Whether a stream latched from an SDESC runs on the die (R347, R351). -/
def State.sdescRuns (s : State) (d a : Nat) : Bool := (s.dieStreams d).any fun p => p.2.2.sdesc == a && p.2.2.desc.isSome

/-- Pending starts of an SDESC leave their slots (R350, R359). -/
def State.dropPending (s : State) (d a : Nat) : State :=
  (s.dieStreams d).foldl (fun s p =>
    if p.2.2.sdesc = a ∧ p.2.2.desc.isNone then s.setSlot d p.1 p.2.1 none else s) s

/-- R359: a stream that ends stops after its current transfer: the data of a store whose request has gone still follows,
at once or as soon as a credit lets it (R397). -/
def State.finishStore (s : State) (d y k : Nat) (r : StreamRun) : State :=
  let mine (x : BoardReq) : Bool := x.dataDue && x.die == d && x.yarder == y && x.slot == k
  match r.out with
  | (6, last, pay) :: _ =>
    match s.tor.reqs.find? fun p => p.2.any mine with
    | some (c, q) =>
      (s.setBoardReqs c (q.map fun x => if mine x then { x with dataDue := false } else x)).answerWith c
        [(d, 6, last, pay)]
    | none => s
  | _ => s

/-- Entries of the staging buffer held for stores that have not been issued go free with their stream (R690). -/
def State.dropEntries (s : State) (d : Nat) (r : StreamRun) : State :=
  s.addRemote d false (r.out.filter fun p => p.1 == 5).length

/-- The slot of a stream that ends in error comes free, and the pending start of its SDESC goes (R350, R359). -/
def State.endSlot (s : State) (d y k : Nat) (r : StreamRun) : State :=
  (((s.finishStore d y k r).dropEntries d r).setSlot d y k none).dropPending d r.sdesc

/-- R359: a stream ends in error: its slot is free, the pending start goes, R268 applies. -/
def State.streamFail (s : State) (d y k : Nat) (r : StreamRun) (e : Err) (a2 : Nat) : State :=
  ((s.endSlot d y k r).errCmd r.cmd e
    (if e.code / 256 = 1 then cmEngine r.cmd.word else r.sdesc) a2 0).enrol

/-- R302 in a stream: it ends with MEM_UNCORRECTABLE. -/
def State.streamMemFail (s : State) (d y k : Nat) (r : StreamRun) (a : Nat) : State :=
  ((s.endSlot d y k r).memFail r.cmd a).enrol

/-! ## Completion -/

/-- The die that holds an address: 8 for the tier, 99 for anything else (R274). -/
def State.dieOf (s : State) (a : Nat) : Nat :=
  match s.region a with
  | .stack k => k
  | .scratch k _ => k
  | .tier => 8
  | _ => 99

/-- Whether the bucket of a stream's class holds a granule (R366). -/
def State.bucketHolds (s : State) (d : Nat) (sd : Nat) : Bool :=
  s.inForce .yrdReg_rate (4 * d + sdClass sd) == 0 || s.regLevel d (sdClass sd) ≥ 64000

/-- The bucket of a stream's class charged for `n` granules (R366). -/
def State.takeBucket (s : State) (d sd n : Nat) : State :=
  if s.inForce .yrdReg_rate (4 * d + sdClass sd) = 0 then s
  else s.setRegLevel d (sdClass sd) (s.regLevel d (sdClass sd) - 64000 * n)

/-- `n` granules counted, and the bucket of their class charged (R366, R369). -/
def State.charge (s : State) (d y sd n : Nat) : State := (s.bump .yrdStat_granules (4 * d + y) n).takeBucket d sd n

/-- R362 to R365: the scale that a finished tally pass writes into PACK's descriptor; none where it writes none. The present
DSCALE is that of the descriptor as it stands in memory. -/
def State.tallyScale (s : State) (r : StreamRun) (sd : Nat) : Option Nat :=
  let new := dscaleOf (tdFm r.pack) r.nonfin r.amaxM r.amaxE
  if sdMode sd = 1 then some new
  else if r.nonfin || r.amaxM == 0 then none
  else some (max new (tdDscale (s.rd r.packAt 64)))

/-- Whether the end of a pass waits for its bucket: the write of the scale takes a granule of it (R366). A zero-length pass
moves nothing and completes when it latches (R354). -/
def State.tallyWaits (s : State) (d : Nat) (r : StreamRun) (sd : Nat) : Bool :=
  sdMode sd != 0 && r.total != 0 && (s.tallyScale r sd).isSome && !s.bucketHolds d sd

/-- R362 to R365: what a finished tally pass leaves in PACK's descriptor and in YRD.TALLY. `none`: the descriptor's
granule is uncorrectable. -/
def State.tallyEnd (s : State) (d y : Nat) (r : StreamRun) (sd : Nat) : Option State :=
  let a := r.packAt
  let s? := match s.tallyScale r sd with
    | none => some s
    | some v =>
      if s.poisoned a 64 then none
      else some ((((s.charge d y sd (if r.total = 0 then 0 else 1)).countedEnds (a + 47) 8).invalidate (a + 47) 8).wr (a + 47) 8
        (v + iscaleOf v * 2 ^ 32))
  s?.map fun s =>
    let i := 4 * d + y
    let amax := if r.amaxM = 0 then 0 else (encodeMag .fp32 .up false ⟨r.amaxM, r.amaxE, false⟩).1
    (((s.setFld .yrdTally_amax i amax).setFlag .yrdTally_nonfinite i r.nonfin).setFlag .yrdTally_valid i true).setFld
      .yrdTally_listId i r.cmd.listId

/-- The dies that a finished stream has written (R274). -/
def State.streamDies (s : State) (r : StreamRun) (sd : Nat) : List Nat :=
  if sdMode sd ≠ 0 then (if (s.tallyScale r sd).isSome then [s.dieOf r.packAt] else [])
  else if r.total = 0 then []
  else
    let t := if sdDir sd = 0 then r.pack else r.bound
    [if s.tdRemote t then 99 else s.dieOf (tdBase t)]

/-- R253, R358: the stream of a slot is over. -/
def State.streamEnd (s : State) (d y k : Nat) (r : StreamRun) (sd : Nat) : State :=
  let go (t : State) := ((t.setSlot d y k none).completeCmd r.cmd (s.streamDies r sd)).enrol
  if sdMode sd = 0 then go s
  else match s.tallyEnd d y r sd with
    | some t => go t
    | none => s.streamMemFail d y k r r.packAt

/-! ## Latching -/

/-- R454: the copy that a read made for a command's step reaches. -/
def State.readCopy (s : State) (c : QCmd) : Nat :=
  let cur := s.fld .updStep_cur 0
  if c.maint || c.step ≤ s.job.pos then cur else 1 - cur

/-- R453: the copy that is written. -/
def State.writtenCopy (s : State) : Nat := 1 - s.fld .updStep_cur 0

/-- Whether a start that waits may latch: no stream latched from its SDESC runs, and a commit wait that its descriptor now
calls for is met (R347, R453). -/
def State.mayLatch (s : State) (d : Nat) (r : StreamRun) : Bool := !s.sdescRuns d r.sdesc && s.commitMet r.cmd

/-- The first granule in error of those that latching reads: the SDESC, and the descriptors it names. -/
def State.latchPoison (s : State) (a : Nat) : Option Nat :=
  match s.firstPoison a 64 with
  | some g => some g
  | none =>
    let sd := s.rd a 64
    (s.firstPoison (s.job.descTable + 64 * sdBound sd) 64) <|> s.firstPoison (s.job.descTable + 64 * sdPack sd) 64

/-- The corrections of what latching reads counted (R302). -/
def State.latchCounted (s : State) (a : Nat) : State :=
  let sd := s.rd a 64
  ((s.counted a 64).counted (s.job.descTable + 64 * sdBound sd) 64).counted (s.job.descTable + 64 * sdPack sd) 64

/-- R347, R348, R346: slot k latches, and its stream starts: the descriptor is read, checked in full and kept, with those of
the tensors it names. A zero-length stream completes at once (R354). -/
def State.latchSlot (s : State) (d y k : Nat) (r : StreamRun) : State :=
  let r := { r with cmd := { r.cmd with tStart := s.now } }
  match s.latchPoison r.sdesc with
  | some g => s.streamMemFail d y k r (64 * g)
  | none =>
    let s := (s.latchCounted r.sdesc).c0Read d 3
    let sd := s.rd r.sdesc 64
    let e := s.streamErr sd
    if e ≠ .ok then s.streamFail d y k r e 0
    else
      let rc := s.readCopy r.cmd
      let wc := s.writtenCopy
      let w := s.yarder d y
      let r := { r with
        desc := some sd
        bound := s.desc (sdBound sd)
        pack := s.desc (sdPack sd)
        packAt := s.job.descTable + 64 * sdPack sd
        total := sdTotal sd
        pos := 0
        no := w.starts
        curW := if sdDir sd = 0 then rc else wc
        curP := if sdDir sd = 0 then wc else rc }
      let s := (s.setYarder d y { w with starts := w.starts + 1 }).setSlot d y k (some r)
      if r.total = 0 then s.streamEnd d y k r sd else s

/-- STREAM (R251, R347, R350): the command takes a slot; it latches at once, or waits as the pending start of its SDESC.
A second pending start ends in error. -/
def doStream (d y : Nat) (s : State) : State :=
  match s.startable d (8 + y) 2, (List.range 8).find? fun k => (s.slotAt d y k).isNone with
  | some c, some k =>
    let a := cbSdesc c.word
    let r : StreamRun := ⟨c, a, none, 0, 0, 0, 0, 0, 0, 0, 0, 0, 0, false, 0, [], [], [], 0⟩
    let s := s.popQueue d (8 + y)
    if s.sdescRuns d a then
      if (s.dieStreams d).any (fun p => p.2.2.sdesc == a && p.2.2.desc.isNone) then
        ((s.dropPending d a).errCmd c .startOverrun a 0 0).enrol
      else (s.setSlot d y k (some r)).enrol
    else ((s.setSlot d y k (some r)).latchSlot d y k r).enrol
  | _, _ => s

/-- STREAM. -/
def execStream (d : Fin 8) (y : Fin 4) (s : State) : Host.Outcome State Fault Refusal := .next (doStream d y s)

/-- STREAM_LATCH (R347, R348): a start that waits latches once no stream latched from its SDESC runs. -/
def doStreamLatch (d y k : Nat) (s : State) : State :=
  match s.slotAt d y k with
  | some r => if r.desc.isNone && s.mayLatch d r then s.latchSlot d y k r else s
  | none => s

/-- STREAM_LATCH. -/
def execStreamLatch (d : Fin 8) (y : Fin 4) (slot : Fin 8) (s : State) : Host.Outcome State Fault Refusal :=
  .next (doStreamLatch d y slot s)

/-- The pending start of an SDESC latches as its stream completes (R347). -/
def State.latchNext (s : State) (d a : Nat) : State :=
  match (s.dieStreams d).find? fun p => p.2.2.sdesc == a && p.2.2.desc.isNone with
  | some (y, k, r) => if s.mayLatch d r then s.latchSlot d y k r else s
  | none => s

/-- STREAM_COMPLETE (R358, R362 to R365): the last byte has landed, at other devices as well. -/
def doStreamComplete (d y k : Nat) (s : State) : State :=
  match s.slotAt d y k with
  | some r => match r.desc with
    | some sd =>
      if r.pos ≥ r.total && r.out.isEmpty && r.acks == 0 && !s.tallyWaits d r sd then (s.streamEnd d y k r sd).latchNext d r.sdesc else s
    | none => s
  | none => s

/-- STREAM_COMPLETE. -/
def execStreamComplete (d : Fin 8) (y : Fin 4) (slot : Fin 8) (s : State) : Host.Outcome State Fault Refusal :=
  .next (doStreamComplete d y slot s)

/-! ## Movement -/

/-- A read of a tally pass taken into its amax (R361). -/
def tallyTake (r : StreamRun) (v : Val) : StreamRun :=
  match v with
  | .fin _ m e => if m = 0 then r
    else
      let (am, ae) := if r.amaxM = 0 then (m, e) else maxMag (r.amaxM, r.amaxE) (m, e)
      { r with
        amaxM := am
        amaxE := ae }
  | _ => { r with nonfin := true }

/-- The element values of a tally unit (R114, R361); an I32 magnitude is rounded to FP32 (R98). -/
def State.tallyUnit (s : State) (b : Nat) (src : Side) (r : StreamRun) (j n : Nat) : StreamRun :=
  let f := tdFm b
  let w := f.planeBits
  (List.range n).foldl (fun r i =>
    let (a, k) := src.elem (j + i)
    let p := s.sideBits src r.got a k w
    let pat := if f = .x48 then p * 65536 + s.sideBits src r.got (src.ext (j + i)) 0 16 else p
    let v := if tdBlocked b = 1 then decodeBlk f (s.sideByte src r.got (src.scale j)) pat
      else if f = .i32 then (rnTo .fp32 (decode f pat)).1 else decode f pat
    tallyTake r (v.mul (s.dscale b)).2) r

/-- Units from element `j` on that bring in no granule beyond those of the unit before each of them. -/
def runUnits (g : Nat → List Nat) (u total : Nat) : Nat → Nat → Nat
  | 0, j => j
  | fuel + 1, j =>
    if j + u ≤ total - u ∧ (g (j + u)).all (g j).contains then runUnits g u total fuel (j + u) else j

/-- A write of cells to device memory, granule by granule: the first granule that is uncorrectable and not written
whole stops it (R297, R302); the cells before it have landed. -/
def State.landCells (s : State) : Nat → Tab Nat → State × Option Nat
  | 0, _ => (s, none)
  | _, [] => (s, none)
  | fuel + 1, c :: cs =>
    let g := c.1 / 64
    let (mine, rest) := (c :: cs).partition fun x => x.1 / 64 == g
    let m := mine.foldl (fun m x => if x.2 / 256 = 255 then m ||| 2 ^ (x.1 % 64) else m) 0
    if !(s.blockedBy mine).isEmpty then (s, some (64 * g))
    else
      let s := (if m = 2 ^ 64 - 1 then s else s.counted (64 * g) 64).heal g m
      State.landCells (mine.foldl State.wrMasked (s.invalidate (64 * g) 64)) fuel rest

/-- The bolts that store cells at another device: a request and one granule of data with LAST each (R399). Bits of a byte that no
element gives are free: no request can enable a part of a byte (log 62). -/
def State.boardStores (s : State) : Nat → Tab Nat → State × List (Nat × Bool × Nat)
  | 0, _ => (s, [])
  | _, [] => (s, [])
  | fuel + 1, c :: cs =>
    let g := c.1 / 64
    let (mine, rest) := (c :: cs).partition fun x => x.1 / 64 == g
    let mask := mine.foldl (fun m x => m + 2 ^ (x.1 % 64)) 0
    let (s, data) := mine.foldl (fun (s, v) x =>
      let (f, s) := if x.2 / 256 = 255 then (0, s) else s.draw
      (s, v + ((x.2 % 256) ||| (f % 256 &&& (255 - x.2 / 256))) * 2 ^ (8 * (x.1 % 64)))) (s, 0)
    let (s, more) := State.boardStores s fuel rest
    (s, (5, false, boardReqPayload (64 * g) mask) :: (6, true, data) :: more)

/-- What a stream needs to move its next granule. -/
structure Motion where
  bound : Nat
  src : Side
  dst : Side
  unit : Nat
  grains : Nat → List Nat

/-- The motion of a latched stream. A tally pass has no destination: it writes PACK's scale fields alone (R361). -/
def State.motion (s : State) (r : StreamRun) (sd : Nat) : Motion :=
  let w := s.walkSide sd r.bound r.curW
  let k := s.packSide sd r.pack r.curP
  let (src, dst) := if sdDir sd = 0 then (w, k) else (k, w)
  let u := unitOf r.bound sd
  { bound := r.bound
    src := src
    dst := if sdMode sd = 0 then dst else { dst with other := none }
    unit := u
    grains := fun j => src.granules (sdFm sd) (tdBlocked r.bound == 1) j (min u (r.total - j)) }

/-- The other slots that a stream reaches, each without an open context to it (R338, R397). -/
def State.noContext (s : State) (m : Motion) : Bool :=
  (m.src.other.any fun t => (s.boardCtx t).isNone) || m.dst.other.any fun t => (s.boardCtx t).isNone

/-- Granules that the next unit brings in beyond those of the unit before it. -/
def Motion.fresh (m : Motion) (r : StreamRun) : List Nat :=
  let now := m.grains r.pos
  if r.pos = 0 then now else now.filter fun g => !(m.grains (r.pos - m.unit)).contains g

/-- One bolt of a stream's board-wide accesses sent (R399, R397). A store's data follows its request without another
store between them. A load reserves the entry of its answer as it is issued (R690). -/
def State.streamSend (s : State) (d y k : Nat) (r : StreamRun) (slot : Nat) : State :=
  match r.out, s.boardCtx slot with
  | (op, last, pay) :: rest, some c =>
    let q := s.boardReqs c
    let mine (x : BoardReq) := x.die == d && x.yarder == y && x.slot == k
    let free := if op = 6 then true else !(q.any fun x => x.dataDue && (op == 5 || mine x))
    if s.canSend c && free && (op != 4 || s.remoteRoom d > 0) then
      let s := (s.addRemote d true (if op = 4 then 1 else 0)).ctxSend d c op last 0 0 pay
      let q := if op = 6 then q.map fun x => if x.dataDue && mine x then { x with dataDue := false } else x
        else q ++ [⟨d, y, k, op == 5, op == 5, pay % 2 ^ 44⟩]
      (s.setBoardReqs c q).setSlot d y k (some { r with out := rest })
    else s
  | _, none => s.streamFail d y k r .contextFault 0
  | [], _ => s

/-- Granules of the next unit that are still to be asked for at another device. -/
def Motion.toAsk (m : Motion) (r : StreamRun) : List Nat :=
  (m.grains r.pos).filter fun g => !r.got.any (·.1 == g) && !r.asked.contains g

/-- The load that brings a granule from another device is asked for, once its bucket and the room for its answer let it
(R366, R392, R690). The granule counts as moved when its elements move. -/
def State.askFor (s : State) (d y k : Nat) (r : StreamRun) (sd g : Nat) : State :=
  if !s.bucketHolds d sd ∨ s.remoteRoom d = 0 then s
  else (s.takeBucket d sd 1).setSlot d y k (some { r with
    asked := r.asked ++ [g]
    out := r.out ++ [(4, true, boardReqPayload (64 * g) 0)] })

/-- Whether the next granule of a latched stream does not wait for its bucket. -/
def State.mayMove (s : State) (d : Nat) (r : StreamRun) (sd : Nat) : Bool :=
  ((s.motion r sd).fresh r).length ≤ r.paid || s.bucketHolds d sd

/-- The elements of the next granule moved: taken by the tally or written. The granules of one stream are read and written one
after the other in walk order, where R24 and R357 fix no order of different granules; a byte in which the regions of R340
overlap holds what that order gives (DESIGN CHOICE, log 239). Stores to another device wait for room for
what they hold until they are acknowledged (R38, R392, R690): until then nothing has happened, and `back` is the state. -/
def State.moveRun (s back : State) (d y k : Nat) (r : StreamRun) (sd : Nat) (m : Motion) (fresh : Nat) : State :=
  let last := runUnits m.grains m.unit r.total 128 r.pos
  let units := (List.range ((last - r.pos) / m.unit + 1)).map fun n => r.pos + n * m.unit
  let sz (j : Nat) := min m.unit (r.total - j)
  let next := last + m.unit
  let go (q : StreamRun) : StreamRun := { q with
    pos := next
    paid := 0
    got := if next < r.total then
        r.got.filter fun p => (m.grains next).contains p.1 && (m.grains last).contains p.1
      else [] }
  let s' := s.charge d y sd fresh
  if sdMode sd ≠ 0 then s'.setSlot d y k (some (go (units.foldl (fun q j => s'.tallyUnit m.bound m.src q j (sz j)) r)))
  else
    let cells := joinCells (units.flatMap fun j =>
      s'.unitCells (sdFm sd) (tdBlocked m.bound == 1) m.src m.dst r.got j (sz j))
    match m.dst.other with
    | none =>
      let (s', bad) := s'.landCells cells.length cells
      match bad with
      | none => s'.setSlot d y k (some (go r))
      | some a => s'.streamMemFail d y k r a
    | some _ =>
      let (s', bolts) := s'.boardStores cells.length cells
      let n := bolts.length / 2
      if n > s.remoteRoom d then back
      else (s'.addRemote d true n).setSlot d y k (some { go r with
        out := r.out ++ bolts
        acks := r.acks + n })

/-- A granule of this device is read for a stream of a class: through the weight cache, whose misses fetch the whole line,
when the descriptor shares it (R329), else from memory. In class C0 each granule that memory gives is a C0 read (R326,
R674). `none`: it, or its line, is uncorrectable at the address given. -/
def State.readGranule (s : State) (d a cls : Nat) (shared : Bool) : Except Nat State :=
  let line := shared && (s.region a).isDram
  if line && s.cached d a then .ok (s.cacheRead d a)
  else
    let (lo, n) := if line then (a / 256 * 256, 256) else (a, 64)
    match s.firstPoison lo n with
    | some g => .error (64 * g)
    | none =>
      let s := s.counted lo n
      let s := if cls = 0 && (s.region a).isDram then s.c0Read d (n / 64) else s
      .ok (if line then s.cacheRead d a else s)

/-- One stream's turn: send a bolt that waits, ask for a remote granule, or read and move one. Loads go to the slot of the
source and stores to that of the destination (R338). -/
def State.streamTurn (s : State) (d y k : Nat) (r : StreamRun) (sd : Nat) (f : Finding) : State :=
  let m := s.motion r sd
  match r.out with
  | (op, _, _) :: _ => s.streamSend d y k r (((if op = 4 then m.src.other else m.dst.other)).getD 0)
  | [] =>
  if r.pos ≥ r.total then s
  else if f = .buffer then s.streamFail d y k r .bufferUncorrectable 0
  else if s.noContext m then s.streamFail d y k r .contextFault 0
  else
    match m.src.other with
    | some _ =>
      if (m.grains r.pos).all fun g => r.got.any (·.1 == g) then
        (s.bump .yrdStat_granules (4 * d + y) (m.fresh r).length).moveRun s d y k r sd m 0
      else match m.toAsk r with
        | g :: _ => s.askFor d y k r sd g
        | [] => s
    | none =>
      let fresh := m.fresh r
      if fresh.length ≤ r.paid then s.moveRun s d y k r sd m 0
      else if !s.bucketHolds d sd then s
      else
        match s.readGranule d (64 * fresh.getD r.paid 0) (sdClass sd) m.src.shared with
        | .error a => s.streamMemFail d y k r a
        | .ok s' =>
          if fresh.length > r.paid + 1 then
            (s'.charge d y sd 1).setSlot d y k (some { r with paid := r.paid + 1 })
          else s'.moveRun s d y k r sd m 1

/-- Whether a stream has something to do now. -/
def State.streamReady (s : State) (d : Nat) (r : StreamRun) : Bool :=
  match r.desc with
  | none => false
  | some sd =>
    !r.out.isEmpty || (r.pos < r.total &&
      (let m := s.motion r sd
       match m.src.other with
       | some _ =>
         ((m.grains r.pos).all fun g => r.got.any (·.1 == g)) ||
           (!(m.toAsk r).isEmpty && s.bucketHolds d sd && s.remoteRoom d != 0)
       | none => s.mayMove d r sd && (m.dst.other.isNone || s.remoteRoom d != 0)))

/-- The stream of a yarder whose turn it is, with its slot and descriptor: of those that can move something, the next one
by start from the turn on, else the first (R356). -/
def State.nextStream (s : State) (d y : Nat) : Option (Nat × StreamRun × Nat) :=
  let ready := (List.range 8).filterMap fun k => match s.slotAt d y k with
    | some r => if s.streamReady d r then r.desc.map fun sd => (k, r, sd) else none
    | none => none
  let t := (s.yarder d y).turn
  let later := ready.filter fun p => p.2.1.no ≥ t
  (if later.isEmpty then ready else later).foldl (fun a p => match a with
    | none => some p
    | some q => if p.2.1.no < q.2.1.no then some p else some q) none

/-- STREAM_GRANULE (R355, R356, R366): the next stream of the yarder in turn moves a granule. `f` is what has gone wrong
in storage by then. -/
def doStreamGranule (d y : Nat) (f : Finding) (s : State) : State :=
  let s := s.struck f
  match s.nextStream d y with
  | none => s
  | some (k, r, sd) => (s.setYarder d y { s.yarder d y with turn := r.no + 1 }).streamTurn d y k r sd f

/-- STREAM_GRANULE. -/
def execStreamGranule (d : Fin 8) (y : Fin 4) (f : Finding) (s : State) : Host.Outcome State Fault Refusal :=
  .next (doStreamGranule d y f s)

end Sys2Proof.Machine
end

