-- ==== Sys2Proof/Machine/Board.lean ====
section
/-! DEFINITION. Board-wide accesses as their bolts arrive (R298 to R300, R392, R396, R399, R400): requests at the target,
answers at the issuer. -/

namespace Sys2Proof.Machine

/-! ## Payloads -/

/-- ADDR of a request or an acknowledgement. -/
def bpAddr (p : Nat) : Nat := bits p 0 44
/-- COUNT of a request or an acknowledgement. -/
def bpCount (p : Nat) : Nat := bits p 48 5
/-- STATUS of an acknowledgement. -/
def bpStatus (p : Nat) : Nat := bits p 53 3
/-- Byte enables of the first granule. -/
def bpMaskFirst (p : Nat) : Nat := bits p 64 64
/-- Byte enables of the last granule. -/
def bpMaskLast (p : Nat) : Nat := bits p 128 64

/-- An acknowledgement's payload. -/
def ackPayload (a n status : Nat) : Nat := a % 2 ^ 44 + n % 32 * 2 ^ 48 + status * 2 ^ 53

/-- A request that R399 and R300 allow: its fields, and every granule in stacked DRAM or the tier. -/
def State.requestOk (s : State) (b : Bolt) : Bool :=
  let p := b.payload
  inRange 1 16 (bpCount p) && bpAddr p % 64 == 0 && bits p 44 4 == 0 && bits p 53 11 == 0 && bits p 192 320 == 0 &&
    s.dram (bpAddr p) (64 * bpCount p)

/-- The die that answers for an address: the one whose stack holds it; the tier's answers are injected as die 0's. -/
def State.homeDie (s : State) (a : Nat) : Nat :=
  match s.region a with
  | .stack d => d
  | _ => 0

/-- Whether the die whose memory a request reaches has no entries for it (R689, R691). -/
def State.lacksRoom (s : State) (b : Bolt) : Bool :=
  s.requestOk b && (List.range 8).any fun d =>
    s.inStack d (bpAddr b.payload) && decide (s.remoteRoom d < bpCount b.payload)

/-- Whether an accepted bolt waits: a request without entries, and whatever comes behind a waiting request of its context but
a response, which waits for none (R392, R691). -/
def State.inboundWaits (s : State) (b : Bolt) : Bool :=
  (b.op == 4 || b.op == 5 || b.op == 6) && (!(Tab.get [] s.tor.waiting b.ctx).isEmpty || (b.op != 6 && s.lacksRoom b))

/-- A bolt put behind those of its context that wait; its credit is returned when it is served. -/
def State.holdBolt (s : State) (b : Bolt) : State :=
  { s with tor := { s.tor with waiting := Tab.upd s.tor.waiting b.ctx (Tab.get [] s.tor.waiting b.ctx ++ [b]) } }

/-- A delivered bolt of a board-access context past the checks of R396. A sequence fault ends the stream whose access is
the oldest on the context; an accepted bolt returns its credit, at once or when what it asks for is served. -/
def State.boardArrive (s : State) (b : Bolt) (act : State → State) : State :=
  match s.arrive b with
  | .dropped s => s
  | .fault s =>
    match s.boardReqs b.ctx with
    | q :: _ => match s.slotAt q.die q.yarder q.slot with
      | some r => s.streamFail q.die q.yarder q.slot r .contextFault b.ctx
      | none => s
    | [] => s
  | .accepted s =>
    if s.fld .ctxEntry_kind b.ctx = 2 then
      if s.inboundWaits b then s.holdBolt b else act (s.returnCredit 0 b.ctx 1)
    else (s.returnCredit 0 b.ctx 1).bump .torDrops_op 0 1

/-! ## Target -/

/-- A load served, or refused. A granule that is uncorrectable is recorded and refuses the load (log 86). -/
def State.serveLoad (s : State) (b : Bolt) : State :=
  let p := b.payload
  let a := bpAddr p
  let n := bpCount p
  let k := s.homeDie a
  if !(s.requestOk b && b.last) then s.answerWith b.ctx [(k, 8, true, ackPayload a n 1)]
  else match s.firstPoison a (64 * n) with
    | some g => (s.uncorrectable (64 * g)).answerWith b.ctx [(k, 8, true, ackPayload a n 1)]
    | none => (s.counted a (64 * n)).answerWith b.ctx ((List.range n).map fun i => (k, 7, i + 1 == n, s.rd (a + 64 * i) 64))

/-- STORE_REQ: a store opens on the context. -/
def State.openStore (s : State) (b : Bolt) : State :=
  { s with tor := { s.tor with stores := Tab.upd s.tor.stores b.ctx ⟨b.payload, 0, !s.requestOk b⟩ } }

/-- Byte enables of granule `i` of a store. -/
def storeMask (p i : Nat) : Nat :=
  if i = 0 then bpMaskFirst p else if i + 1 = bpCount p then bpMaskLast p else 2 ^ 64 - 1

/-- One granule of an open store landed; the last one is acknowledged (R400). -/
def State.storeGranule (s : State) (b : Bolt) : State :=
  match s.tor.stores.find? (fun q => q.1 == b.ctx) with
  | none => s
  | some (_, st) =>
    let p := st.req
    let a := bpAddr p
    let n := bpCount p
    let m := storeMask p st.next
    let cells := ((List.range 64).filter (bit m)).map fun i => (a + 64 * st.next + i, 65280 + bits b.payload (8 * i) 8)
    let (s, lost) := if st.bad then (s, none) else s.landCells cells.length cells
    let s := match lost with
      | some x => s.uncorrectable x
      | none => s
    let bad := st.bad || lost.isSome
    if b.last || st.next + 1 ≥ n then
      { s with tor := { s.tor with stores := Tab.erase s.tor.stores b.ctx } }.answerWith b.ctx
        [(s.homeDie a, 8, true, ackPayload a n (b2n bad))]
    else { s with tor := { s.tor with stores := Tab.upd s.tor.stores b.ctx ⟨p, st.next + 1, bad⟩ } }

/-- What a request or store data does once it is served. -/
def State.serve (s : State) (b : Bolt) : State :=
  if b.op = 4 then s.serveLoad b else if b.op = 5 then s.openStore b else s.storeGranule b

/-- The first context whose oldest waiting bolt can be served, with that bolt and those behind it. -/
def State.nextWaiting (s : State) : Option (Bolt × List Bolt) :=
  s.tor.waiting.findSome? fun p => match p.2 with
    | b :: r => if b.op != 6 && s.lacksRoom b then none else some (b, r)
    | [] => none

/-- Waiting bolts served, in order on each context, as far as entries go: tried as each bolt of a board-access context or
credit arrives, since no row says when entries come free (DESIGN CHOICE, log 249). -/
def State.serveWaiting : Nat → State → State
  | 0, s => s
  | fuel + 1, s =>
    match s.nextWaiting with
    | some (b, r) =>
      let s := { s with tor := { s.tor with waiting := Tab.put [] s.tor.waiting b.ctx r } }
      State.serveWaiting fuel ((s.returnCredit 0 b.ctx 1).serve b)
    | none => s

/-- All that can be served. -/
def State.serveAll (s : State) : State :=
  s.serveWaiting (s.tor.waiting.foldl (fun n p => n + p.2.length) 0)

/-- LOAD_REQ. -/
def execLoadReq (b : Bolt) (s : State) : Host.Outcome State Fault Refusal :=
  .next (s.boardArrive b (·.serveLoad b)).serveAll

/-- STORE_REQ. -/
def execStoreReq (b : Bolt) (s : State) : Host.Outcome State Fault Refusal :=
  .next (s.boardArrive b (·.openStore b)).serveAll

/-- STORE_DATA. -/
def execStoreData (b : Bolt) (s : State) : Host.Outcome State Fault Refusal :=
  .next (s.boardArrive b (·.storeGranule b)).serveAll

/-! ## Issuer -/

/-- The first request on a context that satisfies `p`, and the others. -/
def takeReq (p : BoardReq → Bool) : List BoardReq → Option (BoardReq × List BoardReq)
  | [] => none
  | q :: r => if p q then some (q, r) else (takeReq p r).map fun (x, l) => (x, q :: l)

/-- LOAD_DATA: the granule of the oldest load on the context. -/
def State.loadData (s : State) (b : Bolt) : State :=
  match takeReq (fun q => !q.store) (s.boardReqs b.ctx) with
  | none => s
  | some (q, rest) =>
    let s := (s.setBoardReqs b.ctx rest).addRemote q.die false 1
    let g := q.addr / 64
    match s.slotAt q.die q.yarder q.slot with
    | some r =>
      if r.asked.contains g then
        s.setSlot q.die q.yarder q.slot (some { r with
          asked := r.asked.filter (· != g)
          got := Tab.upd r.got g b.payload })
      else s
    | none => s

/-- LOAD_DATA. -/
def execLoadData (b : Bolt) (s : State) : Host.Outcome State Fault Refusal :=
  .next (s.boardArrive b (·.loadData b)).serveAll

/-- ACCESS_ACK: a store has landed, or an access was refused, and its stream ends with ADDRESS_INVALID (R300). -/
def State.accessAck (s : State) (b : Bolt) : State :=
  match takeReq (fun q => q.addr == bpAddr b.payload) (s.boardReqs b.ctx) with
  | none => s
  | some (q, rest) =>
    let s := (s.setBoardReqs b.ctx rest).addRemote q.die false 1
    match s.slotAt q.die q.yarder q.slot with
    | some r =>
      if bpStatus b.payload = 0 then s.setSlot q.die q.yarder q.slot (some { r with acks := r.acks - 1 })
      else s.streamFail q.die q.yarder q.slot r .addressInvalid q.addr
    | none => s

/-- ACCESS_ACK. -/
def execAccessAck (b : Bolt) (s : State) : Host.Outcome State Fault Refusal :=
  .next (s.boardArrive b (·.accessAck b)).serveAll

end Sys2Proof.Machine
end

