-- ==== Sys2Proof/Machine/Budget.lean ====
section
/-! DEFINITION. The power and temperature budget (R67 to R90), refresh (R306), beat meters (R49). -/

namespace Sys2Proof.Machine

/-! ## Settings -/

/-- A VCORE setting of the image in mV, or its default (R84, R605). -/
def State.vcoreSet (s : State) (f : Nat → Nat) (dflt : Nat) : Nat :=
  if s.fld .secState_image 0 = 0 then dflt else f (s.image % 2 ^ 1024)

/-- VCORE_MIN. -/
def State.vmin (s : State) : Nat := s.vcoreSet crVcoreMin 580
/-- VCORE_NOM. -/
def State.vnom (s : State) : Nat := s.vcoreSet crVcoreNom 700
/-- VCORE_MAX. -/
def State.vmax (s : State) : Nat := s.vcoreSet crVcoreMax 820

/-! ## Inputs -/

/-- State of an input with the hysteresis of R75 and R89: a state is entered at its entry value and left once the value
has fallen by its drop. `lv` lists entry and drop of amber, red and limit. -/
def rate (prev v : Nat) (lv : List (Nat × Nat)) : Nat :=
  lv.zipIdx.foldl (fun a ((e, d), i) => if v ≥ e ∨ (prev ≥ i + 1 ∧ v + d > e) then i + 1 else a) 0

/-- R74: package power against the limit, in hundredths. -/
def ratePower (prev p limit : Nat) : Nat := rate prev (100 * p) [(90 * limit, 2 * limit), (100 * limit, 2 * limit)]

/-- R74: hottest logic sensor. -/
def rateLogic (prev v : Nat) : Nat := rate prev v [(95, 2), (100, 2), (105, 5)]

/-- R74: hottest stack sensor. -/
def rateStack (prev v : Nat) : Nat := rate prev v [(85, 2), (90, 2), (95, 5)]

/-- R89: an input that put the die at limit stays there while `hold`, and returns to red when it no longer holds. -/
def fromLimit (prev : Nat) (hold : Bool) (now : Nat) : Nat := if prev = 3 then (if hold then 3 else max 2 now) else now

/-- R89: whether a die at limit stays so: some sensor counted for it is less than 5 °C below its limit. -/
def limitHolds (logic stack : Nat) : Bool := logic + 5 > 105 || stack + 5 > 95

/-- R76: cause of the worst state. -/
def causeOf (w p l k : Nat) : Nat := if w = 0 then 0 else if k = w then 3 else if l = w then 2 else if p = w then 1 else 0

/-- Largest of a list. -/
def maxOf (l : List Nat) : Nat := l.foldl max 0

/-- Index of the first largest element. -/
def argMax (l : List Nat) : Nat := (l.findIdx? (· == maxOf l)).getD 0

/-! ## AVSBus -/

/-- R87: a failed transaction to die d's rail; the third marks the rail unmanaged and raises AVS_FAULT. -/
def State.avsFail (s : State) (d : Nat) : State :=
  let n := Tab.get 0 s.avsFails d + 1
  let s := { s with avsFails := Tab.put 0 s.avsFails d n }
  if n ≥ 3 ∧ !s.flag .budStatus_unmanaged d then
    (s.setFlag .budStatus_unmanaged d true).raise .avsFault d d 0 0 0
  else s

/-- A VCORE request of die d (R84), with the outcome of its AVSBus transaction. Without an image no request is sent
(R605). -/
def State.vcoreRequest (s : State) (d mv : Nat) (ok : Bool) : State :=
  if s.fld .secState_image 0 = 0 then s
  else
    let s := s.setFld .budStatus_vcoreMv d mv
    if ok then s else s.avsFail d

/-- R78, R82, R86, R89: the next request of die d in budget state `st`. The rules give no step for the way down to
VCORE_NOM once no arrears are left: it is requested at once (DESIGN CHOICE, log 200). After a trip VCORE_MIN stays
requested (R90). -/
def State.vcoreNext (s : State) (d st : Nat) : Nat :=
  if s.tripped then s.vmin
  else
  let mv := s.fld .budStatus_vcoreMv d
  let up (top : Nat) :=
    let n := min top (mv + 5)
    if 100 * Config.projected (s.fld .budPower_watts 0) d n ≥ 90 * s.inForce .budLimit_watts 0 then mv else n
  match st with
  | 0 =>
    if mv < s.vnom then up s.vnom
    else if s.fld .perStatus_arrears 0 > 0 ∧ s.jobRuns then (if mv < s.vmax then up s.vmax else mv)
    else s.vnom
  | 1 => mv
  | 2 => max s.vmin (mv - 20)
  | _ => s.vmin

/-! ## Evaluation -/

/-- The readings that count of the I/O dies' sensors: those of an I/O die that is excluded do not (R74, R674). -/
def State.ioTemps (s : State) (t : Temps) : List Nat := if s.flag .orgIdent_io1Joined 0 then t.io else t.io.take 4

/-- TEMP samples of die d's sensors, and with the lowest joined die those of the I/O dies and the hottest of each kind
(R674). -/
def State.tempSamples (s : State) (d : Nat) (t : Temps) : State :=
  let one (s : State) (k v : Nat) : State := s.monFeed 6 (· == k) (natSample v)
  let s := (t.logic ++ t.stack).zipIdx.foldl (fun s (v, i) => one s (7 * d + i) v) s
  if s.joinedDies.head? = some d then
    let s := (s.ioTemps t).zipIdx.foldl (fun s (v, i) => one s (56 + i) v) s
    let hs := maxOf (s.joinedDies.map fun k => s.fld .budStatus_hotStack k)
    let hl := maxOf (s.joinedDies.map fun k => s.fld .budStatus_hotLogic k)
    one (one s 0xFE hs) 0xFF hl
  else s

/-- BUDGET_EVALUATION (R67, R71 to R89): state, cause and VCORE request of die d. On an unmanaged rail the state is red at
least, CAUSE is what the inputs give, and the request of R78 is not sent, but that of R89 is (DESIGN CHOICE, logs 196 and
201). Of several sensors at their limit the event names the hottest stack sensor before a logic one, the first of equally
hot ones, with the evaluating die as its source (DESIGN CHOICE, log 202). -/
def doBudget (d : Nat) (t : Temps) (avsOk : Bool) (s : State) : State :=
  if s.perst || !s.joined d then s
  else
    let x := s.die d
    let logic := t.logic ++ s.ioTemps t
    let p := ratePower x.inPower (s.fld .budPower_watts 0) (s.inForce .budLimit_watts 0)
    let hold := limitHolds (maxOf logic) (maxOf t.stack)
    let l := fromLimit x.inLogic hold (rateLogic x.inLogic (maxOf logic))
    let k := fromLimit x.inStack hold (rateStack x.inStack (maxOf t.stack))
    let w := max p (max l k)
    let un := s.flag .budStatus_unmanaged d
    let st := if un then max 2 w else w
    let s' := s.setDie d { x with inPower := p, inLogic := l, inStack := k }
    let s' := (s'.setFld .budStatus_state d st).setFld .budStatus_cause d (causeOf w p l k)
    let s' := (s'.setFld .budStatus_hotLogic d (min 255 (maxOf logic))).setFld .budStatus_hotStack d
      (min 255 (maxOf t.stack))
    let s' := s'.tempSamples d t
    let s' := if w = 3 ∧ s.fld .budStatus_state d ≠ 3 then
        let i := argMax logic
        let (sensor, v) := if k = 3 then (7 * d + 5 + argMax t.stack, maxOf t.stack)
          else (if i < t.logic.length then 7 * d + i else 56 + (i - t.logic.length), maxOf logic)
        s'.raise .thermalLimit d sensor 0 v 0
      else s'
    if un ∧ st ≠ 3 then s' else s'.vcoreRequest d (s'.vcoreNext d st) avsOk

/-- BUDGET_EVALUATION. -/
def execBudgetEvaluation (d : Fin 8) (t : Temps) (avsOk : Bool) (s : State) : Host.Outcome State Fault Refusal :=
  .next (doBudget d t avsOk s)

/-- Whether sensor k is a stack sensor (R674). -/
def sensorStack (k : Nat) : Bool := k < 56 && k % 7 ≥ 5

/-- The compute dies a sensor counts for (R74). -/
def State.sensorDies (s : State) (k : Nat) : List Nat :=
  if k < 56 then [k / 7].filter s.joined else s.joinedDies

/-- Position of the die a sensor is on. -/
def sensorDie (k : Nat) : Nat := if k < 56 then k / 7 else if k < 60 then 8 else 9

/-- THERMAL_LIMIT (R89): a sensor reaches its limit; every die it counts for is at limit and requests VCORE_MIN, with
success on the bus (DESIGN CHOICE, log 196). A further sensor at its limit changes nothing for a die that is at limit
already: CAUSE stays until the next evaluation, and with no die left it raises no event (DESIGN CHOICE, log 202). -/
def doThermalLimit (k c : Nat) (s : State) : State :=
  let lim := if sensorStack k then 95 else 105
  let ds := (s.sensorDies k).filter fun d => s.fld .budStatus_state d != 3
  if s.perst || c < lim || ds.isEmpty then s
  else
    let s := ds.foldl (fun s d =>
      let x := s.die d
      let s := s.setDie d (if sensorStack k then { x with inStack := 3 } else { x with inLogic := 3 })
      let s := (s.setFld .budStatus_state d 3).setFld .budStatus_cause d (if sensorStack k then 3 else 2)
      s.vcoreRequest d s.vmin true) s
    s.raise .thermalLimit (sensorDie k) k 0 c 0

/-- THERMAL_LIMIT. -/
def execThermalLimit (sensor : Fin 64) (celsius : Nat) (s : State) : Host.Outcome State Fault Refusal :=
  .next (doThermalLimit sensor celsius s)

/-- THERMAL_TRIP (R90): the main job stops, THERMTRIP_N is asserted, every rail is asked for VCORE_MIN, with success on the
bus (DESIGN CHOICE, log 196), and the device serves only the host and the recorder until the next reset: maintenance
lists are abandoned, everything that runs ends, and no list and no job starts. -/
def doThermalTrip (k c : Nat) (s : State) : State :=
  let lim := if sensorStack k then 100 else 110
  if s.perst || c < lim || s.tripped || (k < 56 && !s.joined (k / 7)) then s
  else
    let s := { s with thermTripN := false, tripped := true }.raise .thermalTrip (sensorDie k) k 0 c 0
    let s := (List.range 8).foldl (fun s d => s.vcoreRequest d s.vmin true) s
    (s.leaveJob .thermalTrip (sensorDie k)).abandonMaint.quiesce

/-- THERMAL_TRIP. -/
def execThermalTrip (sensor : Fin 64) (celsius : Nat) (s : State) : Host.Outcome State Fault Refusal :=
  .next (doThermalTrip sensor celsius s)

/-- The selects of the rails that R72 sums: the VCORE rails of the dies enabled in fuses and the auxiliary rails (VIO, VDRAM,
AVDD, VIRL) that AUX_EN of the image enables, by AVS_SEL and AUX_SEL (R602, R698). A rail that R87 has marked unmanaged is
still read back and summed (DESIGN CHOICE, log 240). -/
def State.railSummed (s : State) : List Nat := selects s.fuses.present (s.image % 2 ^ 1024)

/-- The last readbacks, by select, after one round of the rails enabled for R72. A rail that does not answer keeps its last
one (DESIGN CHOICE, log 240). -/
def State.readRails (s : State) (l : List RailReading) : Tab RailReading :=
  (l.filter fun r => s.railSummed.contains r.select).foldl (fun t r => Tab.upd t r.select r) s.rails

/-- Package power in µW of the readbacks `t`: voltage by current of every rail summed. -/
def State.packageUw (s : State) (t : Tab RailReading) : Nat :=
  s.railSummed.foldl (fun a k =>
    let r := Tab.get ⟨k, 0, 0, 0⟩ t k
    a + r.mv * r.ma) 0

/-- PACKAGE_POWER_READBACK (R72, R87, R653): voltage, current and temperature of every rail are read, and their package
power joins the last ten of 100 µs; BUD.POWER is the average in whole watts, rounded down (DEDUCED, log 35); before ten
readings, the average of those so far (DESIGN CHOICE, log 203). -/
def doPowerReadback (reads : List RailReading) (fail : List (Fin 8)) (s : State) : State :=
  if s.perst || s.fld .secState_image 0 == 0 then s
  else
    let t := s.readRails reads
    let h := (s.packageUw t :: s.powerUw).take 10
    let s := { s with rails := t, powerUw := h }.setFld .budPower_watts 0 (h.foldl (· + ·) 0 / (1000000 * h.length))
    fail.foldl (fun s (d : Fin 8) => s.avsFail d.val) s

/-- PACKAGE_POWER_READBACK. -/
def execPackagePowerReadback (reads : List RailReading) (avsFail : List (Fin 8)) (s : State) :
    Host.Outcome State Fault Refusal := .next (doPowerReadback reads avsFail s)

/-- Whether gathering g of die d issued an instruction in the window of 1,000 ns that ends now (R49). -/
def State.issuedInWindow (s : State) (d g : Nat) : Bool := (s.gath d g).issuedIn.any fun w => w + 1 == s.now / 1000

/-- BEAT_METER_WINDOW (R49): the beats of a window of 1,000 ns, which ends now, at a multiple of 1,000 ns. A gathering that
issued no instruction in it reads 0, and had no instructions throughout. How many beats a window holds is timing, which
the operand gives (log 11). -/
def doBeatMeter (d g beats : Nat) (throughout : Bool) (s : State) : State :=
  let x := s.gath d g
  if s.absent d || s.perst || s.now % 1000 != 0 || s.now / 1000 ≤ x.window then s
  else
    let i := gi d g
    let issued := s.issuedInWindow d g
    let r := if issued then min 4095 beats else 0
    let s := (s.setGath d g { x with window := s.now / 1000 }).setFld .gthBeatmeter_rate i r
    if throughout && issued then
      (s.setFld .gthBeatmeter_minRate i (min r (s.fld .gthBeatmeter_minRate i))).monFeed 4
        (fun sel => sel % 8 == g && sel / 16 % 8 == d) (natSample r)
    else s

/-- BEAT_METER_WINDOW. -/
def execBeatMeterWindow (d g : Fin 8) (beats : Nat) (throughout : Bool) (s : State) :
    Host.Outcome State Fault Refusal := .next (doBeatMeter d g beats throughout s)

/-- REFRESH_RATE_CHANGE (R306): doubled from 85 °C of the hotter stack sensor, normal again from 83 °C down. -/
def doRefresh (d c : Nat) (s : State) : State :=
  if s.absent d || s.perst then s
  else if c ≥ 85 then s.setFlag .memStackstat_refresh2x d true
  else if c ≤ 83 then s.setFlag .memStackstat_refresh2x d false
  else s

/-- REFRESH_RATE_CHANGE. -/
def execRefreshRateChange (d : Fin 8) (celsius : Nat) (s : State) : Host.Outcome State Fault Refusal :=
  .next (doRefresh d celsius s)

/-- LPDDR_RECENTRE (R310): holds a channel's traffic for at most 1 µs and alters no data. -/
def execLpddrRecentre (_iface : Fin 8) (_ch : Fin 4) (s : State) : Host.Outcome State Fault Refusal := .next s

end Sys2Proof.Machine
end

