-- ==== Sys2Proof/Machine/Close.lean ====
section
/-! DEFINITION. The close of a step (R455 to R466): the decision, the coverage check, the mirror, the COMMIT message and
its application, rollback and reissue (R287), and the end of a job (R639). -/

namespace Sys2Proof.Machine

/-! ## Rollback decision -/

/-- R462, R287 steps 1 and 2: the open step will be rolled back: no further list of the next step starts, its running
commands are abandoned, its queued ones removed. -/
def State.decideRollback (s : State) : State :=
  if s.job.rolling then s
  else ({ s with job := { s.job with rolling := true } }.purgeQueues false).abandonRunning false |>.enrol

/-- R441, R462: a verdict folded into COL.VERDICT, and the decision that may follow. -/
def State.foldVerdict (s : State) (nonfinite skew : Bool) (smin smax : Nat) : State :=
  let valid := s.flag .colVerdict_valid 0
  let lo := if valid then min smin (s.fld .colVerdict_stepMin 0) else smin
  let hi := if valid then max smax (s.fld .colVerdict_stepMax 0) else smax
  let s := s.setFlag .colVerdict_nonfinite 0 (nonfinite || s.flag .colVerdict_nonfinite 0)
  let s := s.setFlag .colVerdict_skew 0 (skew || s.flag .colVerdict_skew 0 || lo != hi)
  let s := ((s.setFlag .colVerdict_valid 0 true).setFld .colVerdict_stepMin 0 lo).setFld .colVerdict_stepMax 0 hi
  if s.jobRuns && !s.verdictOk then s.decideRollback else s

/-! ## Coverage -/

/-- The records of an update program: header, slots, auxiliary record. -/
def UProg.record (p : UProg) (k : Nat) : Nat := p.recs.getD k 0

/-- Entry of slot k, 64 bits (R469). -/
def UProg.slot (p : UProg) (k : Nat) : Nat := bits (p.record 1) (64 * k) 64

/-- The stored program of a die at an address. -/
def State.uprog (s : State) (d a : Nat) : Option UProg := s.job.progs.find? fun p => p.die == d && p.addr == a

/-- R458: whether every dense STORE tensor of the job's programs has all its blocks counted. -/
def State.covered (s : State) : Bool :=
  s.job.lists.all fun l => l.cmds.all fun w =>
    if cmKind w = 3 ∧ cbUprog w ≠ 0 then
      match s.uprog l.die (cbUprog w) with
      | none => true
      | some p =>
        if uhRows (p.record 0) = 1 then true
        else (List.range 8).all fun k =>
          let e := p.slot k
          if usStore e = 1 then Tab.get 0 (s.die l.die).stored (usHandle e) == cdiv (tdCount (s.desc (usHandle e))) 32
          else true
    else true

/-! ## Close -/

/-- STEP_CLOSE (R462): the timer is in the open step or past it, and every list of the step has completed. The close is
decided: the step commits, or is undone and will be reissued, or its coverage fails and the job stops; counters that
disagree set the step counter first. The record, the mirror and the update of R463 follow together at APPLY_AT; a stop
before that finds the step open, and it does not commit (R268, R290; DEDUCED, log 24). -/
def doStepClose (s : State) : State :=
  match s.job.active with
  | none => s
  | some _ =>
    if s.job.closing.isSome || s.job.tstep < s.job.pos || !s.stepWork s.job.pos then s
    else
      let k := s.fld .updStep_step 0
      let cur := s.fld .updStep_cur 0
      let n := s.job.pos
      if s.verdictOk then
        if s.covered then
          { s with job := { s.job with
            closing := some (⟨1 - cur, min (2 ^ 32 - 1) (k + 1), n, n, 0⟩, outCommitted) } }
        else
          (s.raise .updateCoverage 15 0xFF wholeArg 0 0).stopJob causeCommand (Err.code .updateCoverage) 15
      else
        let nf := s.flag .colVerdict_nonfinite 0
        let hi := s.fld .colVerdict_stepMax 0
        let lo := s.fld .colVerdict_stepMin 0
        let sk := s.flag .colVerdict_skew 0 || lo != k || hi != k
        let s := s.decideRollback
        let s := if nf then s.raise .stepSkipped 15 0xFF wholeArg k 0 else s
        let s := if sk then s.raise .stepSkew 15 0xFF wholeArg (lo + hi * 2 ^ 32) 0 else s
        let k' := if sk then max k hi else k
        if s.covered then
          { s with job := { s.job with
            closing := some (⟨cur, k', n, s.fld .tokCommit_committed (s.joinedDies.headD 0), 0⟩,
              if nf then outSkipped else outSkew) } }
        else ((s.setFld .updStep_step 0 k').raise .updateCoverage 15 0xFF wholeArg 0 0).stopJob causeCommand
          (Err.code .updateCoverage) 15

/-- STEP_CLOSE. -/
def execStepClose (s : State) : Host.Outcome State Fault Refusal := .next (doStepClose s)

/-- Whether some Irale link is in a repair pause (R533). -/
def State.repairing (s : State) : Bool := (List.range 14).any fun l => s.flag .irlLinkstat_repairing l

/-- The MGMT slot of a COMMIT to compute die `d` (R532). -/
def CommitMsg.slot (c : CommitMsg) (d : Nat) : Slot :=
  ⟨8, 0, d, 8, 0, false, 1 + c.cur % 2 * 2 ^ 16 + c.step % 2 ^ 32 * 2 ^ 32 + c.closed % 2 ^ 32 * 2 ^ 64 +
    c.committed % 2 ^ 32 * 2 ^ 96 + c.applyAt % 2 ^ 64 * 2 ^ 128⟩

/-- A COMMIT on its way to every joined compute die. -/
def State.sendCommit (s : State) (c : CommitMsg) : State :=
  s.joinedDies.foldl (fun s d => s.slotsOut 8 d 0 3 [c.slot d]) { s with irl := { s.irl with commit := some c } }

/-- COMMIT (R532, R533): IO0 sends the close to every joined compute die, to apply 1,000 ns later. None is sent during a
repair pause. -/
def doCommit (s : State) : State :=
  match s.job.closing, s.irl.commit with
  | some (c, _), none => if s.repairing then s else s.sendCommit { c with applyAt := s.now + 1000 }
  | _, _ => s

/-- COMMIT. -/
def execCommit (s : State) : Host.Outcome State Fault Refusal := .next (doCommit s)

/-- Whether every die that takes part has reached APPLY_AT by its own copy of local time (R533, R536). -/
def State.commitDue (s : State) (c : CommitMsg) : Bool :=
  s.timeAt 8 ≥ c.applyAt && s.joinedDies.all fun d => s.timeAt d ≥ c.applyAt

/-- COMMIT_APPLY (R463, R533, R285): at APPLY_AT every die applies the commit at once, and the next step is the open
one. -/
def doCommitApply (s : State) : State :=
  match s.job.active, s.job.closing, s.irl.commit with
  | some m, some (_, o), some c =>
    if o = outCommitted ∧ s.commitDue c then s.commitStep m c else s
  | _, _, _ => s

/-- COMMIT_APPLY. -/
def execCommitApply (s : State) : Host.Outcome State Fault Refusal := .next (doCommitApply s)

/-- ROLLBACK (R287 steps 4 to 7): the step's lists have completed, and the undo runs. Tokens are reset, the commit
token advances, discarded lists get their records, and the next step is issued again from its first list. -/
def doRollback (s : State) : State :=
  match s.job.active, s.job.closing, s.irl.commit with
  | some m, some (_, o), some c =>
    if o ≠ outCommitted ∧ s.commitDue c then s.undoStep m c o else s
  | _, _, _ => s

/-- ROLLBACK. -/
def execRollback (s : State) : Host.Outcome State Fault Refusal := .next (doRollback s)

end Sys2Proof.Machine
end

