-- ==== Sys2Proof/Machine/Tiles.lean ====
section
/-! DEFINITION. Physical tiles of a compute die (R29, R146, R555 to R558): states, the remap of a logical tile, and the
report FLT.DIESTAT. -/

namespace Sys2Proof.Machine

/-- A physical tile's record. -/
def Die.tile (x : Die) (p : Nat) : Tile := Tab.get {} x.tiles p

/-- A physical tile's record replaced. -/
def Die.setTile (x : Die) (p : Nat) (t : Tile) : Die := { x with tiles := Tab.put {} x.tiles p t }

/-- Physical tile of logical tile t of gathering g. -/
def Die.phys (x : Die) (g t : Nat) : Nat := Tab.get (32 * g + t) x.map (32 * g + t)

/-- The logical tiles that a physical tile serves. -/
def Die.serves (x : Die) (p : Nat) : List Nat :=
  if p < 256 then (if Tab.get p x.map p = p then [p] else []) else (x.map.filter (·.2 == p)).map (·.1)

/-- Spares that stand in for no tile and are not retired (R29). -/
def Die.freeSpares (x : Die) : List Nat :=
  ((List.range 16).map (256 + ·)).filter fun p => !(x.map.any (·.2 == p)) && decide ((x.tile p).st ≠ .retired)

/-- Tiles in a state. -/
def Die.countTiles (x : Die) (st : TileState) : Nat := (x.tiles.filter fun p => decide (p.2.st = st)).length

/-- FLT.DIESTAT's counts brought up to date. -/
def State.dieStat (s : State) (d : Nat) : State :=
  let x := s.die d
  ((s.setFld .fltDiestat_sparesFree d x.freeSpares.length).setFld .fltDiestat_suspect d
    (min 31 (x.countTiles .suspect))).setFld .fltDiestat_retired d (min 16 (x.countTiles .retired))

/-- A tile's record replaced, with the counts. -/
def State.setTile (s : State) (d p : Nat) (t : Tile) : State := (s.setDie d ((s.die d).setTile p t)).dieStat d

/-- A tile becomes suspect now. -/
def State.suspectTile (s : State) (d p : Nat) : State :=
  s.setTile d p { (s.die d).tile p with
    st := .suspect
    since := s.now
    served := 0
    mism := 0
    lastTest := s.now
    untested := false }

/-- A tile is retired, with its history record (R555). -/
def State.retireTile (s : State) (d p detail : Nat) : State :=
  (s.setTile d p { (s.die d).tile p with st := .retired }).history 1 3 d p detail

/-- A logical tile moved to the lowest-numbered free spare (DESIGN CHOICE, log 40), or to none. -/
def Die.remap (x : Die) (k : Nat) : Option Die :=
  match x.freeSpares with
  | [] => none
  | q :: _ => some { x with map := Tab.upd x.map k q }

/-! ## Uses of spare tiles (R30, R499) -/

/-- R258, R567: a tile that a test may use: a spare, or one whose gathering runs no main-job program. -/
def State.testable (s : State) (d p : Nat) : Bool :=
  match (s.die d).serves p with
  | k :: _ => match (s.gath d (k / 32)).cmd with
    | some c => c.maint
    | none => true
  | [] => true

/-- Tiles that may record a cruise sample now: free spares, then the tiles of gatherings with no program loaded, but for
retired ones and those that another sample or a test uses (R30, R499). -/
def State.recorders (s : State) (d : Nat) : List Nat :=
  let x := s.die d
  let idle := (List.range 8).filter fun g => (s.gath d g).cmd.isNone
  (x.freeSpares ++ idle.flatMap fun g => (List.range 32).map (x.phys g)).filter fun p =>
    decide ((x.tile p).st ≠ .retired) && !x.testing.contains p && !x.cruise.any (·.tile == p)

/-- R499, R501, R69: a sample falls: it is taken by the first tile that is free, or counted in MISSED while arrears are
above 0, while the die's row does not start COMPUTE (R682), or with no tile free. -/
def State.takeSample (s : State) (d : Nat) (c : CruiseRec) : State :=
  if (s.jobRuns && s.fld .perStatus_arrears 0 > 0) || !s.classStarts d 0 then s.bump .crzStat_missed d 1
  else match s.recorders d with
    | t :: _ => s.setDie d { s.die d with cruise := (s.die d).cruise ++ [{ c with tile := t }] }
    | [] => s.bump .crzStat_missed d 1

/-- A remap has taken spare `q` from what used it (R30, R559): a sample is counted in MISSED, and a test reports the spare
as not tested, in a list of the model's own, since no register or record is named for it (DESIGN CHOICE, log 229). -/
def State.spareTaken (s : State) (d q : Nat) : State :=
  let x := s.die d
  let n := (x.cruise.filter (·.tile == q)).length
  let s := s.setDie d { x with
    cruise := x.cruise.filter (·.tile != q)
    testing := x.testing.filter (· != q)
    notTested := if x.testing.contains q then x.notTested ++ [q] else x.notTested }
  if n = 0 then s else s.bump .crzStat_missed d n

/-- R558: a die left with SPARE_LOW free spares or fewer says so. -/
def State.sparesLow (s : State) (d : Nat) : State :=
  if (s.die d).freeSpares.length ≤ s.fld .fltCfg_spareLow 0 then s.raise .tileSparesLow d 0xFF 0 0 0 else s

/-- R557, R558: the logical tile `k` served by retired tile `p` is remapped, with the events; with no spare the die
fails. `ip` is the instruction address of the mismatch. -/
def State.remapTile (s : State) (d k ip : Nat) : State :=
  match (s.die d).remap k with
  | none => s.failDie d
  | some x =>
    let s := ((s.setDie d x).spareTaken d (x.phys 0 k)).dieStat d
    (s.raise .tileRetired d 0xFF 0 s.nvm.histSeq ip).sparesLow d

/-- Whether a gathering stands at a boundary: no program runs, or nothing has issued since the last one (R557). -/
def Gath.atBoundary (x : Gath) : Bool :=
  match x.cmd, x.ckpt with
  | some _, some c => x.order == c.order && x.pend.isEmpty
  | _, _ => true

/-- The logical tile of retired tile `p` goes to a spare where its gathering stands at a boundary (R557). -/
def State.remapAtBoundary (s : State) (d p ip : Nat) : State :=
  match (s.die d).serves p with
  | k :: _ => if (s.gath d (k / 32)).atBoundary then s.remapTile d k ip else s
  | [] => s

/-- TILE_REMAP (R557): at a boundary of its gathering the logical tile of a retired tile goes to a spare. Nothing is remapped
once the device has tripped (R90). -/
def doTileRemap (d p : Nat) (s : State) : State :=
  if ((s.die d).tile p).st = .retired ∧ s.tripped = false then s.remapAtBoundary d p 0 else s

/-- TILE_REMAP. -/
def execTileRemap (d : Fin 8) (tile : Fin 272) (s : State) : Host.Outcome State Fault Refusal :=
  .next (doTileRemap d tile s)

/-- A failed test or pattern on a tile (R555, R568): a suspect tile retires, another becomes suspect. The remap waits for
TILE_REMAP where the gathering is not at a boundary (R557). -/
def State.tileTestFailed (s : State) (d p detail : Nat) : State :=
  match ((s.die d).tile p).st with
  | .suspect =>
    let s := s.retireTile d p detail
    if (s.die d).serves p = [] then s.sparesLow d else s.remapAtBoundary d p detail
  | .good => (s.suspectTile d p).history 1 2 d p detail
  | .retired => s

/-- Nanoseconds of the observation window (R555). -/
def State.observeNs (s : State) : Nat := s.fld .fltCfg_observeH 0 * hourNs

/-- SUSPECT_TILE_TEST (R556): SELFTEST of a suspect tile when TEST_MIN minutes have passed and R258 lets it run; never once
the device has tripped (R90). -/
def doSuspectTest (d p : Nat) (pass : Bool) (s : State) : State :=
  let t := (s.die d).tile p
  let due : Bool := s.now ≥ t.lastTest + s.fld .fltCfg_testMin 0 * 60000000000
  let g := ((s.die d).serves p).head?.map (· / 32)
  let free : Bool := match g with
    | some g => (s.gath d g).cmd.isNone
    | none => true
  if t.st = .suspect ∧ due ∧ free ∧ s.maintPhase d 1 ∧ s.tripped = false then
    if pass then s.setTile d p { t with
      lastTest := s.now
      untested := false }
    else s.tileTestFailed d p 0
  else s

/-- SUSPECT_TILE_TEST. -/
def execSuspectTileTest (d : Fin 8) (tile : Fin 272) (pass : Bool) (s : State) : Host.Outcome State Fault Refusal :=
  .next (doSuspectTest d tile pass s)

/-- TILE_UNTESTED (R556): four hours without a test opportunity, reported once until the tile is tested; tests are over once
the device has tripped (R90). -/
def doTileUntested (d p : Nat) (s : State) : State :=
  let t := (s.die d).tile p
  if t.st = .suspect ∧ s.tripped = false ∧ !t.untested ∧ s.now ≥ t.lastTest + s.fld .fltCfg_testMin 0 * 60000000000 + 4 * hourNs then
    (s.setTile d p { t with untested := true }).raise .tileUntested d 0xFF 0 0 0
  else s

/-- TILE_UNTESTED. -/
def execTileUntested (d : Fin 8) (tile : Fin 272) (s : State) : Host.Outcome State Fault Refusal :=
  .next (doTileUntested d tile s)

/-- OBSERVATION_WINDOW_EXPIRY (R555): OBSERVE_H hours with no mismatch and every test passed, on a device that has not
tripped (R90). -/
def doWindowExpiry (d p : Nat) (s : State) : State :=
  let t := (s.die d).tile p
  if t.st = .suspect ∧ s.tripped = false ∧ s.now + t.served ≥ t.since + s.observeNs then
    (s.setTile d p { t with
      st := .good
      mism := 0
      served := 0 }).history 1 4 d p 0
  else s

/-- OBSERVATION_WINDOW_EXPIRY. -/
def execObservationWindowExpiry (d : Fin 8) (tile : Fin 272) (s : State) : Host.Outcome State Fault Refusal :=
  .next (doWindowExpiry d tile s)

end Sys2Proof.Machine
end

