-- ==== Sys2Proof/Machine/Seq.lean ====
section
/-! DEFINITION. The sequencer of a gathering (R190 to R249): loops, operand offsets, hazards and
interlocks, boundaries, and the one operation that issues an instruction. -/

namespace Sys2Proof.Machine

/-! ## Boundaries and replays (R551, R555) -/

/-- The registers that a replay puts back (R551, R553), in a fixed order. -/
def replayFields (i : Nat) : List (Field × Nat) :=
  (numFields.map fun f => (f, i)) ++
  [(.gthSeqstat_hazard, i), (.gthSeqstat_hazardIp, i), (.gthSeqstat_hazardRes, i), (.gthSeqstat_hazards, i),
   (.gthStallcnt_stalls, i)] ++
  (List.range 16).flatMap fun k =>
    [(.gthStalllog_ip, 16 * i + k), (.gthStalllog_res, 16 * i + k), (.gthStalllog_valid, 16 * i + k),
     (.gthStalllog_beats, 16 * i + k)]

/-- The number of the oldest instruction in flight, the one whose check is taken to fail (log 58); with none in flight, the
number of the next instruction. -/
def Gath.suspectOrder (x : Gath) : Nat := x.pend.foldl (fun a p => min a p.order) x.order

/-- Checkpoints, newest first, that a replay of instruction `n` can need: the newest one not above it ends the list. -/
def keepTo (n : Nat) : List GCkpt → List GCkpt
  | [] => []
  | c :: r => if c.order ≤ n then [c] else c :: keepTo n r

/-- A checkpoint of gathering g of die d as of now (R551). Earlier ones stay while an instruction issued before it is in
flight, since its checks may still fail (R549). -/
def State.checkpoint (s : State) (d g : Nat) : State :=
  let x := s.gath d g
  let c : GCkpt := ⟨x.core, x.beat, x.order, x.pend, x.opFree, x.drainEnd, [],
    (replayFields (gi d g)).map fun p => s.fld p.1 p.2, x.descs⟩
  s.setGath d g { x with
    ckpt := some c
    older := if x.pend.isEmpty then [] else keepTo x.suspectOrder (x.ckpt.toList ++ x.older) }

/-- R555, row 1 and 2: a physical tile whose one mismatch passed on its first replay. -/
def State.passedReplay (s : State) (d p ip : Nat) : State :=
  let r := (s.die d).tile p
  match r.st with
  | .good =>
    let again := match r.lastTransient with
      | some u => decide (s.now - u ≤ s.observeNs)
      | none => false
    if again then (s.suspectTile d p).history 1 2 d p ip
    else (s.setTile d p { r with lastTransient := some s.now }).history 1 1 d p ip
  | _ => s

/-- A boundary: a checkpoint, and for the mismatches before it what their passed replay brings (R555). The mismatches stay
open while an instruction issued before the boundary is in flight (R549). -/
def State.passBoundary (s : State) (d g : Nat) : State :=
  let x := s.gath d g
  if !x.pend.isEmpty then s.checkpoint d g
  else
    let s := s.setGath d g { x with replays := [] }
    let s := x.replays.foldl (fun s (p, ip) =>
      if (x.replays.filter (·.1 == p)).length = 1 then s.passedReplay d p ip else s) s
    s.checkpoint d g

/-! ## Loops and offsets -/

/-- What a change of configuration does not keep (R143): the accumulator file and the stationary sets. -/
def GCore.dropCells (k : GCore) : GCore :=
  { k with
    acc := []
    stat0 := []
    stat1 := []
    accGone := true
    statGone := true }

/-- The address after `ip`, once loops whose last body instruction is behind are turned or closed (R202). -/
def closeLoops (ip : Nat) : List Loop → Nat × List Loop
  | [] => (ip, [])
  | l :: r =>
    if ip = l.start + l.body then
      (if l.idx + 1 < l.count then (l.start, { l with idx := l.idx + 1 } :: r) else closeLoops ip r)
    else (ip, l :: r)

/-- The core that will issue at address `ip` next. -/
def GCore.goto (k : GCore) (ip : Nat) : GCore :=
  let (a, l) := closeLoops ip k.loops
  { k with ip := a, loops := l }

/-- Offset O of an operand (R198, R199). -/
def GCore.offset (k : GCore) (sel : Nat) : Int :=
  if sel ≥ 8 then 0
  else
    (k.loops.reverse.zipIdx.foldl (fun a (l, i) => a + (l.idx : Int) * Tab.get 0 k.ag (5 * sel + 1 + i))
      (Tab.get 0 k.ag (5 * sel)))

/-- The generator fields an offset reads. -/
def GCore.offReads (k : GCore) (sel : Nat) : List Res :=
  if sel ≥ 8 then [] else (List.range (k.loops.length + 1)).map fun i => .gen (5 * sel + i)

/-! ## Resources -/

/-- Whether a write covers a resource (R236). -/
def Wr.touches (w : Wr) (r : Res) : Bool :=
  match w, r with
  | .scalar i _, .scalar j => i == j
  | .count i _, .count j => i == j
  | .gen i _, .gen j => i == j
  | .vector i _, .vector j => i == j
  | .mem cells, .line a => cells.any fun c => c.1 / 64 == a
  | _, _ => false

/-- Numbers without repeats, in first-seen order. -/
def nubNat (l : List Nat) : List Nat := l.foldl (fun a x => if a.contains x then a else a ++ [x]) []

/-- The resources a write covers. -/
def Wr.res : Wr → List Res
  | .scalar i _ => [.scalar i]
  | .count i _ => [.count i]
  | .gen i _ => [.gen i]
  | .vector i _ => [.vector i]
  | .mem cells => (nubNat (cells.map fun c => c.1 / 64)).map .line

/-- HAZARD_RES of a resource (R240). -/
def Res.cls : Res → Nat
  | .scalar _ => 0
  | .count _ => 1
  | .gen _ => 2
  | .vector _ => 3
  | .line _ => 4

/-- What an instruction is about to do, computed from the state at its issue beat. -/
structure Plan where
  /-- STOP codes of R242 that it meets. -/
  stops : List Nat := []
  reads : List Res := []
  /-- Writes: beats from issue, what, and whether it is a drain. -/
  writes : List (Nat × Wr × Bool) := []
  span : Nat := 1
  /-- Beats from issue to the end of its last drain, if it drains (R228). -/
  drain : Option Nat := none
  flags : Nat := 0
  /-- Cruise samples taken of its output tiles (R498). -/
  samples : List CruiseRec := []
  /-- A hazard of class 6 (R164, R238). -/
  hold : Bool := false
  /-- A line of scratch in which its read finds a new uncorrectable error (R550). -/
  bad : Option Nat := none
  core : GCore
  /-- Address of the next instruction before loops are turned. -/
  next : Nat

/-- The last beat at which a resource is pending after beat `t`. -/
def Gath.pendingOn (x : Gath) (t : Nat) (r : Res) : Option Nat :=
  (x.pend.filter fun p => t < p.beat && p.wr.touches r).foldl (fun a p => some (max p.beat (a.getD 0))) none

/-- The first stale read of a plan at beat `t`: its class and the beat at which the resource is free (R236). -/
def Gath.stale (x : Gath) (t : Nat) (p : Plan) : Option (Nat × Nat) :=
  p.reads.findSome? fun r => (x.pendingOn t r).map fun b => (r.cls, b)

/-- The first out-of-order write of a plan (R237): class 5 and the beat at which the resource is free. -/
def Gath.disorder (x : Gath) (t : Nat) (p : Plan) : Option (Nat × Nat) :=
  p.writes.findSome? fun w => w.2.1.res.findSome? fun r =>
    match x.pendingOn (t + w.1) r with
    | some b => some (5, b)
    | none => none

/-! ## Issue -/

/-- Debug interlock (R248): the beat at which the instruction can issue without a hazard, the state then, its plan, and
the class of the first stall. An instruction that waits for several resources in turn makes one stall (DESIGN CHOICE,
log 236). -/
def State.settle (d g : Nat) (plan : State → Nat → Plan) : Nat → State → Nat → Option Nat → State × Nat × Plan × Option Nat
  | 0, s, t, c => (s, t, plan s t, c)
  | fuel + 1, s, t, c =>
    let p := plan s t
    let x := s.gath d g
    match (x.stale t p) <|> (x.disorder t p) with
    | some (k, b) => State.settle d g plan fuel (s.landTo d g b) b (c <|> some k)
    | none => (s, t, p, c)

/-- R249: a stall logged. -/
def State.logStall (s : State) (i ip cls beats : Nat) : State :=
  let s := s.bump .gthStallcnt_stalls i 1
  match (List.range 16).find? fun k => !s.flag .gthStalllog_valid (16 * i + k) with
  | some k =>
    let j := 16 * i + k
    (((s.setFld .gthStalllog_ip j ip).setFld .gthStalllog_res j cls).setFlag .gthStalllog_valid j true).setFld
      .gthStalllog_beats j (min 16777215 beats)
  | none => s

/-- R238: a hazard recorded, and its event once for each list. -/
def State.hazard (s : State) (d g ip cls : Nat) (c : QCmd) : State :=
  let i := gi d g
  let s := s.bump .gthSeqstat_hazards i 1
  let s := if s.flag .gthSeqstat_hazard i then s
    else ((s.setFlag .gthSeqstat_hazard i true).setFld .gthSeqstat_hazardIp i ip).setFld .gthSeqstat_hazardRes i cls
  match s.runOf c with
  | some r =>
    if r.hazard then s
    else (s.schedEvent c .scheduleHazard ip).mapRuns c.maint (·.owns c) fun r => { r with hazard := true }
  | none => s

/-- Error of a STOP code (R242). -/
def stopErr : Nat → Err
  | 1 => .operandBounds
  | 2 => .blockAlign
  | 3 => .formatMismatch
  | 4 => .configMismatch
  | 5 => .valueRange
  | _ => .operandAlign

/-- A gathering with no program. -/
def State.endProgram (s : State) (d g : Nat) : State :=
  let i := gi d g
  let x := s.gath d g
  let s := s.setGath d g { x with
    cmd := none
    prog := []
    toks := []
    ended := false
    tokGranted := false
    halted := false
    haltWanted := false
    stepOnce := false
    passBreak := false
    badWrite := none
    ckpt := none
    older := []
    replayTo := 0
    dropDue := false
    replays := [] }
  ((s.setFlag .gthSeqstat_running i false).setFlag .gthSeqstat_waiting i false).setFlag .gthSeqstat_halted i false

/-- A program ends in error at its instruction address: earlier instructions complete, their TOKS are signalled, and
the command ends with the error (R243). -/
def State.progError (s : State) (d g : Nat) (c : QCmd) (e : Err) (ip : Nat) : State :=
  let s := ((s.landAll d g).sendToks d g).passBoundary d g
  ((s.endProgram d g).errCmd c e ip 0 ip).enrol

/-- A program that reads an uncorrectable granule at address `a` (R302, R550): its command ends with the error after its
earlier instructions. -/
def State.progMemFail (s : State) (d g : Nat) (c : QCmd) (a : Nat) : State :=
  let ip := (s.gath d g).core.ip
  let s := ((s.landAll d g).sendToks d g).passBoundary d g
  (((s.endProgram d g).uncorrectable a).failCmd c (s.readErr a) ip).enrol

/-- R243: the sequencer stops at its present instruction. -/
def State.stopSeq (s : State) (d g code : Nat) (c : QCmd) : State :=
  let ip := (s.gath d g).core.ip
  (s.setFld .gthSeqstat_stop (gi d g) code).progError d g c (stopErr code) ip

/-- GTH.CFG and GTH.NUMSTAT mirror the mode (R126, R130, R144). -/
def State.mirrorMode (s : State) (d g : Nat) : State :=
  let i := gi d g
  let k := (s.gath d g).core
  ((((s.setFld .gthCfg_config i k.config).setFld .gthCfg_shape i k.shape).setFld .gthCfg_buck i k.buck).setFlag
    .gthNumstat_ftz i k.ftz).setFlag .gthNumstat_conforming i (!k.ftz)

/-- The checkpoint that a replay of instruction `n` goes back to (R549, R553), and those before it. -/
def Gath.replayFrom (x : Gath) (n : Nat) : Option (GCkpt × List GCkpt) :=
  let l := x.ckpt.toList ++ x.older
  match l.find? (·.order ≤ n) with
  | some c => some (c, l.filter (·.order < c.order))
  | none => none

/-- The sequencer and tiles back at a boundary (R553). -/
def State.restore (s : State) (d g : Nat) (c : GCkpt) (older : List GCkpt) : State :=
  let x := s.gath d g
  let s := { s with mem := c.log.foldl (fun m (a, v) => wrCell memDefault m a v) s.mem }
  let s := s.setGath d g { x with
    core := c.core
    beat := c.beat
    order := c.order
    pend := c.pend
    opFree := c.opFree
    drainEnd := c.drainEnd
    toks := x.toks.filter fun t => t.order ≤ c.order
    ended := false
    badWrite := none
    tokGranted := false
    descs := c.descs
    replayTo := max x.replayTo x.order
    older := older
    ckpt := some { c with log := [] } }
  let i := gi d g
  let s := ((replayFields i).zip c.regs).foldl (fun s (p, v) => s.setFld p.1 p.2 v) s
  ((s.setFlag .gthSeqstat_waiting i false).setFld .gthSeqstat_ip i c.core.ip).mirrorMode d g

/-- R550: an instruction reads a line of scratch with an uncorrectable error. One found now in a line written since the
last boundary is handled by R553; any other stops the program. What the table has no row for is found by no command
(DESIGN CHOICE, log 223). -/
def State.badLine (s : State) (d g l : Nat) (c : QCmd) : State :=
  match (s.gath d g).ckpt with
  | some k =>
    if !s.poisoned (64 * l) 64 && k.log.any (·.1 / 64 == l) then (s.restore d g k (s.gath d g).older).enrol
    else s.progMemFail d g c (64 * l)
  | none => s.progMemFail d g c (64 * l)

/-- The breakpoint and halt conditions of R245, in debug mode alone. -/
def State.haltDue (s : State) (d g : Nat) : Bool :=
  let i := gi d g
  let x := s.gath d g
  s.flag .gthCfg_debug i &&
    (x.haltWanted ||
      (s.flag .gthDbgctl_breakEn i && !x.passBreak && s.fld .gthDbgctl_breakIp i == x.core.ip))

/-- The command and the word of a sequencer that may issue an instruction of opcode `op` now. -/
def State.issuable (s : State) (d g op : Nat) : Option (QCmd × Nat) :=
  let x := s.gath d g
  if x.ended || x.halted || s.haltDue d g then none
  else match x.cmd, x.word with
    | some c, some w => if ct1Opcode w = op then some (c, w) else none
    | _, _ => none

/-- The last two windows of 1,000 ns with an issue, after an issue at local time `now` (R49). -/
def issuedAt (l : List Nat) (now : Nat) : List Nat :=
  if l.head? = some (now / 1000) then l else (now / 1000 :: l).take 2

/-- A plan carried out at beat `t` (R226, R235): writes pend, flags are set, and the next instruction may issue `span`
beats later. -/
def State.commitPlan (s : State) (d g t : Nat) (p : Plan) : State :=
  let x := s.gath d g
  let news := p.writes.map fun w => (⟨t + w.1, x.order, w.2.1, w.2.2⟩ : Pend)
  let core := p.core.goto p.next
  let s := p.samples.foldl (fun s c => s.takeSample d c) s
  let s := s.setGath d g { x with
    core := core
    beat := t + p.span
    issuedIn := issuedAt x.issuedIn s.now
    order := x.order + 1
    drainEnd := match p.drain with
      | some n => t + n
      | none => x.drainEnd
    pend := x.pend ++ news
    haltWanted := x.haltWanted || x.stepOnce
    stepOnce := false
    passBreak := false }
  (s.setGthFlags (gi d g) p.flags).setFld .gthSeqstat_ip (gi d g) core.ip

/-- The first line of scratch that a plan reads and that has an uncorrectable error, or that a partial write has met
(R297, R550). -/
def State.readBad (s : State) (d g : Nat) (p : Plan) : Option Nat :=
  (s.gath d g).badWrite <|> p.reads.findSome? fun q => match q with
    | .line l => if p.bad == some l || s.poisoned (64 * l) 64 then some l else none
    | _ => none

/-- R554: a program that was to end during a replay ends once every instruction has issued again; everything it issued
completes, its tokens are not signalled, and its time is counted where no stop has counted it (R292). -/
def State.endReplay (s : State) (d g : Nat) : State :=
  let x := s.gath d g
  if x.dropDue && decide (x.replayTo ≤ x.order) then
    let s := match x.cmd with
      | some c => if c.counted then s else s.recompute c
      | none => s
    (s.landAll d g).endProgram d g
  else s

/-- R226 to R248: the instruction at the instruction address issues. `wait` is the beat before which it may not issue
(R229); `post` is what the issue does beyond the plan. Of several hazards of one instruction HAZARD_RES takes a stale read
before a disorder of writes, the first resource of the plan's list, and the plan's own class last (DESIGN CHOICE, log 235).
An instruction that stops the program records neither a stall nor a hazard (DEDUCED, log 237). -/
def State.issue (s : State) (d g op wait : Nat) (plan : Nat → State → Nat → Plan)
    (post : QCmd → Nat → Nat → State → State) : State :=
  match s.issuable d g op with
  | none => s
  | some (c, w) =>
    let i := gi d g
    let x := s.gath d g
    let ip := x.core.ip
    let t := max x.beat wait
    let s := s.landTo d g t
    let r : State × Nat × Plan × Option Nat :=
      if s.flag .gthCfg_debug i then State.settle d g (plan w) ((s.gath d g).pend.length + 1) s t none
      else (s, t, plan w s t, none)
    let s' := r.1
    let t' := r.2.1
    let p := r.2.2.1
    match p.stops, s'.readBad d g p with
    | a :: l, _ => s'.stopSeq d g (l.foldl min a) c
    | [], some l => s'.badLine d g l c
    | [], none =>
      let x' := s'.gath d g
      let haz := (x'.stale t' p).map (·.1) <|> (x'.disorder t' p).map (·.1) <|> if p.hold then some 6 else none
      let s' := match r.2.2.2 with
        | some k => s'.logStall i ip k (t' - t)
        | none => s'
      let s' := match haz with
        | some k => s'.hazard d g ip k c
        | none => s'
      (post c w t' (s'.commitPlan d g t' p)).endReplay d g

/-- No further effect of an issue. -/
def noPost (_ : QCmd) (_ _ : Nat) (s : State) : State := s

/-- R207: CONFIG_MISMATCH unless the configuration is one of those given. -/
def GCore.cfgStop (k : GCore) (l : List Nat) : List Nat := if l.contains k.config then [] else [4]

/-- The step number of R123 for a command (R460, R464): the counter, plus one for work that runs ahead. -/
def State.stepNo (s : State) (c : QCmd) : Nat :=
  s.fld .updStep_step 0 + (if c.maint then 0 else c.step - s.job.pos)

/-- The inputs of R123 for an instruction of gathering g of die d. The step number is that of the program's start, so that an
instruction of a replay draws the same bits whatever a stop or rollback has done since (R677). -/
def State.gathDraw (s : State) (d g site : Nat) : Draw :=
  ⟨s.job.seed, (s.gath d g).stepK, 16 * d + g, site, s.roundCoord⟩

/-! ## Operands in scratch -/

/-- The cached descriptor of a handle (R193, R194). -/
def Gath.desc (x : Gath) (h : Nat) : Nat := (Tab.get ⟨0⟩ x.descs h).raw

/-- R170, R242: a descriptor of the issuing gathering's own scratch. -/
def State.ownScratch (s : State) (d g r : Nat) : Bool :=
  decide (s.region (tdBase r) = .scratch d g) && s.oneRegion (tdBase r) (tdLimit r) == some (.scratch d g)

/-- R200: a region of R rows of C elements at offset O lies in its tensor. An empty region needs an O that is not
negative alone (log 45). -/
def regionOk (r : Nat) (o : Int) (rows cols : Nat) : Bool :=
  decide (0 ≤ o) &&
    (rows == 0 || cols == 0 ||
      (let a := o.toNat
       a % tdExt r 0 + cols ≤ tdExt r 0 && a / tdExt r 0 + rows ≤ tdRows r))

/-- Stops of a region operand: OPERAND_BOUNDS (R200, R170) and BLOCK_ALIGN (R201). -/
def State.regionStops (s : State) (d g r : Nat) (o : Int) (rows cols : Nat) : List Nat :=
  (if s.ownScratch d g r && regionOk r o rows cols then [] else [1]) ++
  (if tdBlocked r = 1 ∧ (o % (tdExt r 0 : Int)) % 32 ≠ 0 then [2] else [])

/-- INDEX of element (i, j) of a region (R200). -/
def regionIdx (r : Nat) (o : Int) (i j : Nat) : Nat := o.toNat + i * tdExt r 0 + j

/-- Lines of the bytes from `a` to `b` inclusive. -/
def lineRange (a b : Nat) : List Nat := (List.range (b / 64 + 1 - a / 64)).map (a / 64 + ·)

/-- Lines of `n` elements of one row from element `idx`: element plane, scale bytes, and the extension plane of X48
when `ext`. -/
def rowLines (r idx n : Nat) (ext : Bool) : List Nat :=
  if n = 0 then []
  else
    let a := tdPlace 0 r idx
    let z := tdPlace 0 r (idx + n - 1)
    lineRange a.1 (z.1 + (z.2 + (tdFm r).planeBits - 1) / 8) ++
    (if tdBlocked r = 1 then lineRange (tdScalePlace 0 r idx) (tdScalePlace 0 r (idx + n - 1)) else []) ++
    (if ext && decide (tdFm r = .x48) then lineRange (tdExtPlace 0 r idx) (tdExtPlace 0 r (idx + n - 1) + 1) else [])

/-- Lines that a region reads. -/
def regionLines (r : Nat) (o : Int) (rows cols : Nat) (ext : Bool) : List Res :=
  (nubNat ((List.range rows).flatMap fun i => rowLines r (regionIdx r o i 0) cols ext)).map .line

/-- Element format as an arithmetic operand: the FP32 plane of an X48 tensor reads as FP32 (R104). -/
def opFm (r : Nat) : Fm := if tdFm r = .x48 then .fp32 else tdFm r

/-- Pattern of an element as an arithmetic operand. -/
def State.opPat (s : State) (r idx : Nat) : Nat :=
  let (a, b) := tdPlace 0 r idx
  s.rdBits a b (tdFm r).planeBits

/-- DSCALE and ISCALE of a cached descriptor: the fields as last refreshed (R194). -/
def State.opDscale (s : State) (r : Nat) : Val := s.dscale r

/-- An element as a tensor operation reads it (R114, R127, R137): exact value and FLUSHED. `signed` reads an unblocked
integer by the signedness that an instruction gives. -/
def State.opVal (s : State) (r idx : Nat) (ftz : Bool) (signed : Option Bool) : Val × Nat :=
  let f := opFm r
  let p := s.opPat r idx
  let (v, fl) : Val × Nat := match f.isInt, signed, s.e8Of 0 r idx with
    | true, some b, none => (.ofInt (if b then sext f.width p else (p % 2 ^ f.width : Nat)), 0)
    | _, _, e8 => elemIn f ftz e8 p
  ((v.mul (s.opDscale r)).2.noNegZero, fl)

/-- One element's write. -/
def elemCells (r idx pat : Nat) : List (Nat × Nat) :=
  let (a, b) := tdPlace 0 r idx
  if tdFm r = .x48 then maskCells a b 32 (pat / 65536) ++ maskCells (tdExtPlace 0 r idx) 0 16 (pat % 65536)
  else maskCells a b (tdFm r).width pat

/-- The +0 patterns stored beyond the extent in the partial block that holds element `idx` of a row (R108). -/
def padCells (r idx : Nat) : List (Nat × Nat) :=
  let n := tdExt r 0
  let c := idx % n
  if n % 32 = 0 ∨ c / 32 ≠ n / 32 then []
  else
    let (a, b) := tdPlace 0 r (idx - c % 32)
    let w := (tdFm r).width
    let lo := b + n % 32 * w
    maskCells (a + lo / 8) (lo % 8) ((32 - n % 32) * w) 0

/-- The write of the scale byte of the block that holds element `idx`, and of what lies beyond the extent in it. -/
def e8Cells (r idx e : Nat) : List (Nat × Nat) := (tdScalePlace 0 r idx, 65280 + e % 256) :: padCells r idx

/-- A stretch of values of one row, from element `idx`, encoded for an output tensor (R109, R110, R114): a block or a
part of one of a blocked tensor, or single elements. `none` marks a lane that is not written. Returns cells and
flags. -/
def State.encodeRun (s : State) (r idx : Nat) (ftz : Bool) (rm : Nat → Rm) (xs : List (Option Val)) :
    List (Nat × Nat) × Nat :=
  if tdBlocked r = 1 then
    let (e8, ps, fl) := encBlock (tdFm r) ftz rm (s.iscale r) xs
    (e8Cells r idx e8 ++ (ps.zip xs).zipIdx.flatMap fun ((p, o), i) => if o.isSome then elemCells r (idx + i) p else [],
      fl)
  else
    xs.zipIdx.foldl (fun (l, fl) (o, i) => match o with
      | some v =>
        let (p, f) := encOne (tdFm r) ftz (rm i) (s.iscale r) v
        (l ++ elemCells r (idx + i) p, fl ||| f)
      | none => (l, fl)) ([], 0)

/-- The values of `n` elements of one row from `idx`, cut at block boundaries and encoded. `val` gives the value of the
`i`-th. -/
def State.encodeRow (s : State) (r idx n : Nat) (ftz : Bool) (rm : Nat → Rm) (val : Nat → Option Val) :
    List (Nat × Nat) × Nat :=
  (List.range (cdiv n 32)).foldl (fun (l, fl) b =>
    let k := min 32 (n - 32 * b)
    let (c, f) := s.encodeRun r (idx + 32 * b) ftz (fun i => rm (idx + 32 * b + i))
      ((List.range k).map fun i => val (32 * b + i))
    (l ++ c, fl ||| f)) ([], 0)

end Sys2Proof.Machine
end

