-- ==== Sys2Proof/Machine/Control.lean ====
section
/-! DEFINITION. Control, token, mode and scalar instructions of a gathering (R202 to R206, R220 to R225). -/

namespace Sys2Proof.Machine

/-- A plan that does nothing but go on. -/
def plain (s : State) (d g : Nat) : Plan :=
  let k := (s.gath d g).core
  { core := k, next := k.ip + 1 }

/-! ## NOP, END, LOOP, WAITB -/

/-- NOP. -/
def execNop (d g : Fin 8) (s : State) : Host.Outcome State Fault Refusal :=
  .next (s.issue d g 0x00 0 (fun _ s _ => plain s d g) noPost)

/-- END has issued (R232). -/
def markEnded (d g : Nat) (_ : QCmd) (_ _ : Nat) (s : State) : State := s.setGath d g { s.gath d g with ended := true }

/-- END. -/
def execEnd (d g : Fin 8) (s : State) : Host.Outcome State Fault Refusal :=
  .next (s.issue d g 0x01 0 (fun _ s _ => plain s d g) (markEnded d g))

/-- LOOP (R202 to R204): the count is read at issue; a count of 0 skips the body. -/
def planLoop (d g w : Nat) (s : State) (_ : Nat) : Plan :=
  let k := (s.gath d g).core
  let n := Tab.get 0 k.ct (ct1Ctl w)
  let body := ct1Body w
  let p : Plan := { core := k, next := k.ip + 1 + body, reads := [.count (ct1Ctl w)] }
  if n = 0 then p
  else { p with
    core := { k with loops := ⟨k.ip + 1, body, n, 0⟩ :: k.loops }
    next := k.ip + 1 }

/-- LOOP. -/
def execLoop (d g : Fin 8) (s : State) : Host.Outcome State Fault Refusal :=
  .next (s.issue d g 0x02 0 (planLoop d g) noPost)

/-- WAITB (R227): at least 1 beat. -/
def planWaitb (d g w : Nat) (s : State) (_ : Nat) : Plan := { plain s d g with span := max 1 (ct1Beats w) }

/-- WAITB. -/
def execWaitb (d g : Fin 8) (s : State) : Host.Outcome State Fault Refusal :=
  .next (s.issue d g 0x03 0 (planWaitb d g) noPost)

/-! ## MODE -/

/-- R156: the bucking length that a value stands for. -/
def buckOf (v : Nat) : Nat := if 16 ≤ v ∧ v ≤ 1024 ∧ v % 16 = 0 then v else 64

/-- Whether a MODE changes configuration or shape (R142). -/
def modeChanges (k : GCore) (w : Nat) : Bool :=
  ct1Setcfg w == 1 && (ct1Config w != k.config || (ct1Config w == 0 && ct1Shape w != k.shape))

/-- MODE (R142, R143, R221, R227): a change takes 8 beats plus the drain that remains. A change of CONFIG drops the
accumulator file and the stationary sets, so that a later CONT finds +0 there (log 148). A change of SHAPE drops nothing, and
neither hides the MMA that R164 looks back to. -/
def planMode (d g w : Nat) (s : State) (t : Nat) : Plan :=
  let x := s.gath d g
  let k := x.core
  let ch := modeChanges k w
  let k1 : GCore := if ct1Setcfg w = 1 then { k with
      config := ct1Config w
      shape := if ct1Config w = 0 then ct1Shape w else k.shape } else k
  let k2 : GCore := if ct1Setbuck w = 1 then { k1 with buck := buckOf (ct1Buck w) } else k1
  let k3 : GCore := if ct1Setftz w = 1 then { k2 with ftz := ct1Ftz w == 1 } else k2
  let k4 : GCore := if k3.config = k.config then k3 else k3.dropCells
  { core := k4, next := k.ip + 1, span := if ch then 8 + (x.drainEnd - t) else 1 }

/-- MODE. -/
def execMode (d g : Fin 8) (s : State) : Host.Outcome State Fault Refusal :=
  .next (s.issue d g 0x04 0 (planMode d g) fun _ _ _ s => s.mirrorMode d g)

/-! ## Scalars -/

/-- 2^64. -/
def w64 : Nat := 2 ^ 64

/-- SMOVI: latency 1. -/
def planSmovi (d g w : Nat) (s : State) (_ : Nat) : Plan :=
  { plain s d g with writes := [(1, .scalar (scSd w) (scImm64 w), false)] }

/-- SMOVI. -/
def execSmovi (d g : Fin 8) (s : State) : Host.Outcome State Fault Refusal :=
  .next (s.issue d g 0x08 0 (planSmovi d g) noPost)

/-- SALU functions (R223, R224): 64-bit, modulo 2^64; shifts by the low 6 bits; MIN and MAX signed. -/
def salu (f a b : Nat) : Nat :=
  let sh := b % 64
  match f with
  | 0 => (a + b) % w64
  | 1 => (a + w64 - b % w64) % w64
  | 2 => (a * b) % w64
  | 3 => a &&& b
  | 4 => a ||| b
  | 5 => a ^^^ b
  | 6 => (a <<< sh) % w64
  | 7 => a >>> sh
  | 8 => ofInt 64 (sext 64 a / (2 ^ sh : Nat))
  | 9 => if sext 64 a ≤ sext 64 b then a else b
  | _ => if sext 64 a ≥ sext 64 b then a else b

/-- SALU: latency 2, MUL 4. -/
def planSalu (d g w : Nat) (s : State) (_ : Nat) : Plan :=
  let k := (s.gath d g).core
  let a := Tab.get 0 k.s (scSa w)
  let b := if scImm w = 1 then scImm64 w else Tab.get 0 k.s (scSb w)
  { plain s d g with
    reads := .scalar (scSa w) :: if scImm w = 1 then [] else [.scalar (scSb w)]
    writes := [(if scFunc w = 2 then 4 else 2, .scalar (scSd w) (salu (scFunc w) a b), false)] }

/-- SALU. -/
def execSalu (d g : Fin 8) (s : State) : Host.Outcome State Fault Refusal :=
  .next (s.issue d g 0x09 0 (planSalu d g) noPost)

/-- Whether a byte address belongs to an element of a tensor (R225). -/
def byteOwned (r a : Nat) : Bool :=
  (List.range (tdRows r)).any fun row =>
    let p := tdBase r + tdRowOff r (row * tdExt r 0)
    p ≤ a && a < p + cdiv (tdExt r 0 * (tdFm r).planeBits) 8

/-- Stops of SLD and SST on descriptor `r` at offset `o` (R170, R201, R225, R242), and the byte address. -/
def State.word8 (s : State) (d g r : Nat) (o : Int) : List Nat × Nat :=
  let a := (tdPlace 0 r o.toNat).1
  let fmt := tdBlocked r == 1 || (tdFm r).planeBits % 8 != 0
  let inside := decide (0 ≤ o) && decide (o.toNat < tdCount r) && (List.range 8).all fun j => byteOwned r (a + j)
  ((if s.ownScratch d g r && inside then [] else [1]) ++
    (if tdBlocked r = 1 ∧ (o % (tdExt r 0 : Int)) % 32 ≠ 0 then [2] else []) ++ (if fmt then [3] else []) ++
    (if decide (0 ≤ o) && a % 8 != 0 then [6] else []), a)

/-- SLD: latency 12. -/
def planSld (d g w : Nat) (s : State) (_ : Nat) : Plan :=
  let x := s.gath d g
  let r := x.desc (scH w)
  let (st, a) := s.word8 d g r (x.core.offset (scAgs w))
  { plain s d g with
    stops := st
    reads := x.core.offReads (scAgs w) ++ [.line (a / 64)]
    writes := [(12, .scalar (scSd w) (s.rd a 8), false)] }

/-- SLD. -/
def execSld (d g : Fin 8) (s : State) : Host.Outcome State Fault Refusal :=
  .next (s.issue d g 0x0A 0 (planSld d g) noPost)

/-- SST: latency 8. -/
def planSst (d g w : Nat) (s : State) (_ : Nat) : Plan :=
  let x := s.gath d g
  let r := x.desc (scH w)
  let (st, a) := s.word8 d g r (x.core.offset (scAgs w))
  { plain s d g with
    stops := st
    reads := .scalar (scSd w) :: x.core.offReads (scAgs w)
    writes := [(8, .mem (maskCells a 0 64 (Tab.get 0 x.core.s (scSd w))), false)] }

/-- SST. -/
def execSst (d g : Fin 8) (s : State) : Host.Outcome State Fault Refusal :=
  .next (s.issue d g 0x0B 0 (planSst d g) noPost)

/-- The value of a CTSET or AGSET, and what it reads (R224). -/
def GCore.setValue (k : GCore) (w : Nat) : Int × List Res :=
  if scImm w = 1 then (sext 64 (scImm64 w), []) else (sext 64 (Tab.get 0 k.s (scSa w)), [.scalar (scSa w)])

/-- CTSET: latency 2; 0 to 16,777,215 or VALUE_RANGE (R224). -/
def planCtset (d g w : Nat) (s : State) (_ : Nat) : Plan :=
  let (v, rs) := (s.gath d g).core.setValue w
  { plain s d g with
    stops := if 0 ≤ v ∧ v ≤ 16777215 then [] else [5]
    reads := rs
    writes := [(2, .count (scCtd w) v.toNat, false)] }

/-- CTSET. -/
def execCtset (d g : Fin 8) (s : State) : Host.Outcome State Fault Refusal :=
  .next (s.issue d g 0x0C 0 (planCtset d g) noPost)

/-- AGSET: latency 2; BASE is 48 bits signed, INC0 to INC3 32 bits signed, else VALUE_RANGE (R224). -/
def planAgset (d g w : Nat) (s : State) (_ : Nat) : Plan :=
  let (v, rs) := (s.gath d g).core.setValue w
  let m : Int := if scAgf w = 0 then 2 ^ 47 else 2 ^ 31
  { plain s d g with
    stops := if -m ≤ v ∧ v ≤ m - 1 then [] else [5]
    reads := rs
    writes := [(2, .gen (5 * scAgd w + scAgf w) v, false)] }

/-- AGSET. -/
def execAgset (d g : Fin 8) (s : State) : Host.Outcome State Fault Refusal :=
  .next (s.issue d g 0x0D 0 (planAgset d g) noPost)

/-! ## Tokens -/

/-- A descriptor with its scale fields as another copy holds them (R194): SCALE_MODE, DSCALE and ISCALE. -/
def withScale (old new : Nat) : Nat :=
  old - tdScaleMode old * 2 ^ 145 + tdScaleMode new * 2 ^ 145 - tdDscale old * 2 ^ 376 + tdDscale new * 2 ^ 376 -
    tdIscale old * 2 ^ 408 + tdIscale new * 2 ^ 408

/-- The scale fields of the cached descriptors read again (R194). -/
def State.refreshDescs (s : State) (d g : Nat) : State :=
  let x := s.gath d g
  let s := (x.descs.foldl (fun s p => s.counted (s.job.descTable + 64 * p.1) 64) s).c0Read d x.descs.length
  s.setGath d g { x with descs := x.descs.map fun (h, r) => (h, ⟨withScale r.raw (s.desc h)⟩) }

/-- A TOKW that begins to wait: WAITING reads 1 and the gathering joins the order of R272. -/
def State.tokwWaits (s : State) (d g : Nat) : State :=
  if s.flag .gthSeqstat_waiting (gi d g) then s else (s.setFlag .gthSeqstat_waiting (gi d g) true).enrol

/-- The first cached descriptor that lies in an uncorrectable granule. -/
def State.descPoison (s : State) (d g : Nat) : Option Nat :=
  (s.gath d g).descs.findSome? fun p => s.firstPoison (s.job.descTable + 64 * p.1) 64

/-- What follows a TOKW that issued: the wait is over, scale fields are refreshed, and a boundary is made (R194,
R233). -/
def postTokw (d g : Nat) (_ : QCmd) (_ _ : Nat) (s : State) : State :=
  let s := (s.setGath d g { s.gath d g with tokGranted := false }).setFlag .gthSeqstat_waiting (gi d g) false
  ((s.refreshDescs d g).passBoundary d g).enrol

/-- TOKW (R222, R230, R271): issues when its count is 0 or its wait has been granted, in a replay too (R553). A wait that
can be met in its turn is granted now. -/
def doTokw (d g : Fin 8) (s : State) : State :=
  match s.issuable d g 0x10 with
  | none => s
  | some (c, w) =>
    let go (s : State) : State := match s.descPoison d g with
      | some n => s.progMemFail d g c (64 * n)
      | none => s.issue d g 0x10 0 (fun _ s _ => plain s d g) (postTokw d g)
    if ct1Count w = 0 ∨ (s.gath d g).tokGranted ∨ (s.gath d g).order < (s.gath d g).replayTo then go s
    else
      let s := s.tokwWaits d g
      if s.grantable (.tokw d g) then
        let l := [(ct1Token w, ct1Count w)]
        go (((s.takeTokens c.maint d l).hostConsume c.maint c.step d l).granted (.tokw d g))
      else s

/-- TOKW. -/
def execTokw (d g : Fin 8) (s : State) : Host.Outcome State Fault Refusal := .next (doTokw d g s)

/-- A TOKS that issued: its signal waits for the instructions before it, and a boundary is made (R231, R233). A count
of 0 signals nothing (R234). -/
def postToks (d g : Nat) (_ : QCmd) (w t : Nat) (s : State) : State :=
  let x := s.gath d g
  let toks := if ct1Count24 w = 0 then x.toks
    else x.toks ++ [⟨ct1Die w % 8, ct1Token w, ct1Count24 w, x.order, t⟩]
  (s.setGath d g { x with toks := toks }).passBoundary d g

/-- TOKS. -/
def execToks (d g : Fin 8) (s : State) : Host.Outcome State Fault Refusal :=
  .next (s.issue d g 0x11 0 (fun _ s _ => plain s d g) (postToks d g))

/-- TOKS_SIGNAL (R231): the oldest TOKS whose earlier instructions have all completed. -/
def doToksSignal (d g : Nat) (s : State) : State :=
  let x := s.gath d g
  match x.cmd, x.toks with
  | some c, t :: r =>
    if x.tokReady t && !x.dropDue then (s.setGath d g { x with toks := r }).tokSignal c.maint t.die t.token t.count
        (listArg c.listId c.index) else s
  | _, _ => s

/-- TOKS_SIGNAL. -/
def execToksSignal (d g : Fin 8) (s : State) : Host.Outcome State Fault Refusal := .next (doToksSignal d g s)

end Sys2Proof.Machine
end

