-- ==== Sys2Proof/Machine/Matrix.lean ====
section
/-! DEFINITION. MATRIX configuration (R147 to R174, R208 to R211, R228): shapes, the order of summation, output tiles,
HOLD and CONT, the MMA instruction, and the cruise sample of R498 and R499. -/

namespace Sys2Proof.Machine

/-! ## Shapes and classes -/

/-- Tile grid or position grid, and K split, of a shape (R165). -/
def shapeGrid : Nat → Nat × Nat × Nat
  | 0 => (4, 8, 1) | 1 => (8, 4, 1) | 2 => (2, 16, 1) | 3 => (16, 2, 1) | 4 => (1, 32, 1) | 5 => (32, 1, 1)
  | 6 => (4, 4, 2) | 7 => (2, 4, 4) | 8 => (2, 2, 8) | 9 => (1, 2, 16) | _ => (1, 1, 32)

/-- FM, FN and s of a shape. -/
def shapeFace (sh : Nat) : Nat × Nat × Nat :=
  let g := shapeGrid sh
  (32 * g.1, 32 * g.2.1, g.2.2)

/-- Width class of an operand (R100); 5: none. -/
def widthClass : Fm → Nat
  | .f4 | .i4 | .u4 => 0
  | .f8e | .f8r | .f6 | .i8 | .u8 => 1
  | .fp16 | .f16w => 2
  | .fp32 => 3
  | .fp64 => 4
  | _ => 5

/-- Elements per group (R147). -/
def groupElems : Nat → Nat
  | 0 => 8 | 1 => 4 | 2 => 2 | _ => 1

/-- Beats per group (R147). -/
def groupBeats : Nat → Nat
  | 3 => 2 | 4 => 8 | _ => 1

/-- Slice length Ks (R167). -/
def sliceLen (k s : Nat) : Nat := 32 * cdiv k (32 * s)

/-- D of R160: 128 + 8·log2 s. -/
def drainBeats (s : Nat) : Nat := 128 + 8 * Nat.log2 s

/-! ## Summation -/

/-- Flags and value of a running sum. -/
structure Sum where
  landing : Val
  run : Val := .zero
  n : Nat := 0
  fl : Nat := 0

/-- The exact sum of a group's products (R153). -/
def groupSum (ps : List (Val × Val)) : Val × Nat :=
  ps.foldl (fun (v, fl) (a, b) =>
    let (i1, p) := a.mul b
    let (i2, q) := v.add p
    (q, fl ||| flagIf (i1 || i2) flInvalid)) (.zero, 0)

/-- A run promoted into its landing register (R154). -/
def Sum.promote (x : Sum) : Sum :=
  let (i, v) := x.landing.add x.run
  let (w, f) := rnTo .fp64 v
  { x with
    landing := w
    run := .zero
    n := 0
    fl := x.fl ||| f ||| flagIf i flInvalid }

/-- A group added to its run, and the promotion after L groups (R153, R154). -/
def Sum.group (L : Nat) (x : Sum) (ps : List (Val × Val)) : Sum :=
  let (g, f1) := groupSum ps
  let (i, v) := x.run.add g
  let (w, f2) := rnTo .fp32 v
  let y : Sum := { x with
    run := w
    n := x.n + 1
    fl := x.fl ||| f1 ||| f2 ||| flagIf i flInvalid }
  if y.n = L then y.promote else y

/-- Groups of `g` consecutive elements; the last may be short (R155, R167). -/
def groups {α : Type} (g : Nat) : Nat → List α → List (List α)
  | 0, _ => []
  | fuel + 1, l => if l.isEmpty then [] else l.take g :: groups g fuel (l.drop g)

/-- One slice in the float path, from a landing value (R153 to R155). -/
def sliceFloat (L g : Nat) (land0 : Val) (ps : List (Val × Val)) : Sum :=
  ((groups g ps.length ps).foldl (Sum.group L) { landing := land0 }).promote

/-- One level of the tree of R168. -/
def treeLevel {α : Type} (f : α → α → α) : List α → List α
  | a :: b :: r => f a b :: treeLevel f r
  | l => l

/-- The tree of R168 over `2^n` values. -/
def treeFold {α : Type} (f : α → α → α) : Nat → List α → List α
  | 0, l => l
  | n + 1, l => treeFold f n (treeLevel f l)

/-- A node of R168 in the float path, with flags. -/
def node64 (a b : Val × Nat) : Val × Nat :=
  let (i, v) := a.1.add b.1
  let (w, f) := rnTo .fp64 v
  (w, a.2 ||| b.2 ||| f ||| flagIf i flInvalid)

/-- binary64 pattern of a landing value. -/
def pat64 (v : Val) : Nat := (encodeT .fp64 false .rne v).1

/-! ## One instruction -/

/-- The operands of an MMA as they stand at its issue. -/
structure Mma where
  ra : Nat
  rb : Nat
  rc : Nat
  oa : Int
  ob : Int
  oc : Int
  m : Nat
  n : Nat
  k : Nat
  sa : Bool
  sb : Bool
  /-- Continue from held landing values. -/
  cont : Bool
  /-- The held values were made in the other path (integer or float), so what they read as is not stated (log 46). -/
  alien : Bool

/-- R157: the integer path. -/
def Mma.int (x : Mma) : Bool :=
  (tdFm x.ra).isInt && (tdFm x.rb).isInt && tdBlocked x.ra == 0 && tdBlocked x.rb == 0 && tdScaleMode x.ra == 0 &&
    tdScaleMode x.rb == 0

/-- Signedness of an unblocked integer operand (R211); a blocked one is signed. -/
def mmaSigned (r : Nat) (sg : Bool) : Bool := if tdBlocked r = 1 then true else sg

/-- The products of output element (i, j) over slice q, K elements at or beyond K masked (R167, R173), and the flags of
reading them. -/
def Mma.pairs (x : Mma) (s : State) (ftz : Bool) (ks i j q : Nat) : List (Val × Val) × Nat :=
  let cnt := min ks (x.k - q * ks)
  (List.range cnt).foldl (fun (l, fl) t =>
    let kk := q * ks + t
    let (a, f1) := s.opVal x.ra (regionIdx x.ra x.oa i kk) ftz (some (mmaSigned x.ra x.sa))
    let (b, f2) := s.opVal x.rb (regionIdx x.rb x.ob j kk) ftz (some (mmaSigned x.rb x.sb))
    (l ++ [(a, b)], fl ||| f1 ||| f2)) ([], 0)

/-- Key of an accumulator entry: face, row, column, slice. -/
def accKey (f r c q : Nat) : Nat := ((f * 2048 + r) * 2048 + c) * 32 + q

/-- The landing pattern from which element (i, j) of an output tile starts (R159, R163). A CONT with a K extent of 0 starts
there too, so that it writes the held values and not the +0 of R174 (DEDUCED, log 193). -/
def Mma.start (x : Mma) (s : State) (k : GCore) (fm i j q : Nat) : Nat :=
  if x.cont then
    (if x.alien then Config.free (s.fresh + accKey (i / fm) (i % fm) j q) % 2 ^ 64
     else (Tab.get {} k.acc (accKey (i / fm) (i % fm) j q)).landing)
  else 0

/-- An integer value of a slice: 64-bit two's complement (R157). -/
def sliceInt (l0 : Nat) (ps : List (Val × Val)) : Nat :=
  ofInt 64 (ps.foldl (fun a (p, q) => match p, q with
    | .fin n1 m1 _, .fin n2 m2 _ => a + scaled n1 m1 0 0 * scaled n2 m2 0 0
    | _, _ => a) (sext 64 l0))

/-- The result and flag that R139 gives a sum with special terms, from its products and the landing values it starts
from; the earliest row that holds decides. -/
def specialSum (ls : List Val) (ps : List (Val × Val)) : Option (Val × Nat) :=
  let ts := ls ++ ps.map fun (a, b) => (a.mul b).2
  let has (n : Bool) := ts.any fun v => v == .inf n
  if ls.any Val.isNan || ps.any fun (a, b) => a.isNan || b.isNan then some (.nan, 0)
  else if ps.any fun (a, b) => (a.mul b).1 then some (.nan, flInvalid)
  else if has false && has true then some (.nan, flInvalid)
  else if has false then some (.inf false, 0)
  else if has true then some (.inf true, 0)
  else none

/-- What an MMA makes of one element: the landing patterns of its slices with the flags of forming them, and the value
after the tree with all its flags. -/
structure ElemSum where
  land : List Nat
  made : Nat
  val : Val
  fl : Nat

/-- One element of an output (R153 to R159, R167, R168, R139). -/
def Mma.element (x : Mma) (s : State) (k : GCore) (i j : Nat) : ElemSum :=
  let (fm, fn, sp) := shapeFace k.shape
  let ks := sliceLen x.k sp
  let g := groupElems (widthClass (opFm x.ra))
  let ti := i % (4 * fm)
  let tj := j % fn
  let qs := List.range sp
  if x.int then
    let ls := qs.map fun q => sliceInt (x.start s k fm ti tj q) (x.pairs s k.ftz ks i j q).1
    let tot := treeFold (fun a b => ofInt 64 (sext 64 a + sext 64 b)) (Nat.log2 sp) ls
    ⟨ls, 0, .ofInt (sext 64 (tot.headD 0)), 0⟩
  else
    let terms := qs.map fun q => (decodeFloat .fp64 (x.start s k fm ti tj q), x.pairs s k.ftz ks i j q)
    let inFl := terms.foldl (fun a t => a ||| t.2.2) 0
    let rs : List (Val × Nat) := terms.map fun (l0, ps, _) =>
      match specialSum [l0] ps with
      | some r => r
      | none =>
        let r := sliceFloat k.buck g l0 ps
        (r.landing, r.fl)
    let out := match specialSum (terms.map (·.1)) (terms.flatMap fun t => t.2.1) with
      | some r => r
      | none => (treeFold node64 (Nat.log2 sp) rs).headD (.zero, 0)
    ⟨rs.map fun r => pat64 r.1, rs.foldl (fun a r => a ||| r.2) inFl, out.1, inFl ||| out.2⟩

/-- Output tiles as row and column origins, the N index fastest (R210). -/
def Mma.tiles (x : Mma) (sh : Nat) : List (Nat × Nat) :=
  let (fm, fn, _) := shapeFace sh
  (List.range (cdiv x.m (4 * fm))).flatMap fun a => (List.range (cdiv x.n fn)).map fun b => (a * (4 * fm), b * fn)

/-- Rows and columns of an output tile that are not masked (R172). -/
def Mma.live (x : Mma) (sh : Nat) (o : Nat × Nat) : List (Nat × Nat) :=
  let (fm, fn, _) := shapeFace sh
  (List.range (min (4 * fm) (x.m - o.1))).flatMap fun i =>
    (List.range (min fn (x.n - o.2))).map fun j => (o.1 + i, o.2 + j)

/-- The cells and flags of one output tile: each row of the tile rounded and encoded once (R158, R162). -/
def Mma.drainTile (x : Mma) (s : State) (k : GCore) (dr : Draw) (rmode : Nat) (o : Nat × Nat) : List (Nat × Nat) × Nat :=
  let (fm, fn, _) := shapeFace k.shape
  let nc := min fn (x.n - o.2)
  (List.range (min (4 * fm) (x.m - o.1))).foldl (fun (l, fl) i =>
    let es := (List.range nc).map fun j => x.element s k (o.1 + i) (o.2 + j)
    let (c, f) := s.encodeRow x.rc (regionIdx x.rc x.oc (o.1 + i) o.2) nc k.ftz (rmTensor dr rmode)
      fun j => (es[j]?).map (·.val)
    (l ++ c, es.foldl (fun a e => a ||| e.fl) (fl ||| f))) ([], 0)

/-- The entries of one output tile (R150), as the accumulator file or its shadow holds them. -/
def Mma.entries (x : Mma) (s : State) (k : GCore) (o : Nat × Nat) : Tab Acc2 :=
  let (fm, fn, _) := shapeFace k.shape
  (x.live k.shape o).foldl (fun t (i, j) =>
    ((x.element s k i j).land.zipIdx).foldl (fun t (p, q) =>
      Tab.put {} t (accKey (i % (4 * fm) / fm) (i % fm) (j % fn) q) ⟨0, p⟩) t) []

/-- Group number `h` of every slice as a stationary set of the last output tile holds it (R149). A group lies in set
`h` mod 2 (log 48). -/
def Mma.stationary (x : Mma) (s : State) (k : GCore) (o : Nat × Nat) (h : Nat) : Tab Nat :=
  let (_, fn, sp) := shapeFace k.shape
  let ks := sliceLen x.k sp
  let g := groupElems (widthClass (opFm x.ra))
  (List.range (min fn (x.n - o.2))).foldl (fun t j => (List.range sp).foldl (fun t q => (List.range g).foldl (fun t e =>
    let kk := q * ks + h * g + e
    if kk < x.k then Tab.upd t ((j * 32 + q) * 8 + e) (s.opPat x.rb (regionIdx x.rb x.ob (o.2 + j) kk)) else t) t) t) []

/-! ## Cruise check -/

/-- The larger of two magnitudes with sticky bits. -/
def magMax (a b : Mag) : Mag :=
  if (Val.fin false a.m a.e).lt (.fin false b.m b.e) then b
  else if (Val.fin false a.m a.e).eqv (.fin false b.m b.e) && b.st then b else a

/-- A difference beyond every limit, for a comparison with an infinity. -/
def magHuge : Mag := ⟨1, 2000, false⟩

/-- Reference, sum of magnitudes and their flags in FP32 (R499). -/
def refSum (ps : List (Val × Val)) : Val × Val :=
  ps.foldl (fun (v, m) (a, b) =>
    let p := (rnTo .fp32 (a.mul b).2).1
    ((rnTo .fp32 (v.add p).2).1, (rnTo .fp32 (m.add p.abs).2).1)) (.zero, .zero)

/-- The relative difference of one element and whether it disagrees (R499), from its landing value, the value it started
from (log 47), and its products. -/
def cruiseElem (int : Bool) (thr : Nat) (land held : Val) (ps : List (Val × Val)) : Option Mag × Bool :=
  let (r, sm) : Val × Val := if int then
      (ps.foldl (fun v (a, b) => (v.add (a.mul b).2).2) .zero, ps.foldl (fun v (a, b) => (v.add (a.mul b).2.abs).2) .zero)
    else refSum ps
  let ref := (r.add held).2
  if land.isNan || ref.isNan then (none, land.isNan != ref.isNan)
  else
    match (land.add ref.negate).2 with
    | .fin _ m e =>
      let tiny : Val := .fin false 1 (-126)
      let den := if sm.lt tiny then tiny else sm
      match den with
      | .fin _ dm de =>
        let beyond := (Val.fin false dm (de - thr)).lt (.fin false m e)
        ((if m = 0 then some ⟨0, 0, false⟩ else some (divMag m e dm de)), if int then m != 0 else beyond)
      | _ => (some ⟨0, 0, false⟩, false)
    | .inf _ => (some magHuge, true)
    | .nan => (some ⟨0, 0, false⟩, false)

/-- The sample of output tile number `t` at origin `o`, if R498 chooses it: flat shapes alone. A sample whose every
difference is a NaN is a NaN one (R672; DEDUCED, log 194). -/
def Mma.sample (x : Mma) (s : State) (k : GCore) (d g prob thr t : Nat) (o : Nat × Nat) : List CruiseRec :=
  let (fm, fn, sp) := shapeFace k.shape
  if sp ≠ 1 then []
  else
    let z := (s.gathDraw d g 65535).z (k.ip * 2 ^ 24 + t)
    if z % 65536 < prob then
      let lt := bits z 16 5
      let cols := (shapeGrid k.shape).2.1
      let r0 := 32 * (lt / cols)
      let c0 := 32 * (lt % cols)
      let mine := (x.live k.shape o).filter fun (i, j) =>
        r0 ≤ i % fm && i % fm < r0 + 32 && c0 ≤ j % fn && j % fn < c0 + 32
      let res := mine.map fun (i, j) =>
        let ti := i % (4 * fm)
        let ps := (x.pairs s k.ftz (sliceLen x.k 1) i j 0).1
        let l0 := x.start s k fm ti (j % fn) 0
        let l1 := (x.element s k i j).land.headD 0
        if x.int then cruiseElem true thr (.ofInt (sext 64 l1)) (.ofInt (sext 64 l0)) ps
        else cruiseElem false thr (decodeFloat .fp64 l1) (decodeFloat .fp64 l0) ps
      let worst := res.foldl (fun a (m, _) => match m with
        | some y => magMax a y
        | none => a) (⟨0, 0, false⟩ : Mag)
      [⟨k.ip, worst.m, worst.e, worst.st, res.any (·.2), !res.isEmpty && res.all fun r => r.1.isNone, 0⟩]
    else []

/-! ## MMA -/

/-- Format stops of an MMA (R98, R100, R242). -/
def mmaFormat (ra rb rc : Nat) : List Nat :=
  let ca := widthClass (opFm ra)
  if ca ≠ widthClass (opFm rb) ∨ ca = 5 ∨ (tdFm ra).isInt ≠ (tdFm rb).isInt ∨ tdFm rc = .x48 ∨ tdFm rc = .i32 then [3]
  else []

/-- Beat, from issue, of the swap that ends each output tile, and of the end of its drain (R161, R188, R228). `r` is what
remains of an earlier drain. With a K extent of 0 it gives every one of several output tiles its drain, where R174 speaks of
one (DEDUCED, log 193). -/
def mmaTimes (debug : Bool) (c dr r : Nat) : Nat → List (Nat × Nat)
  | 0 => []
  | n + 1 =>
    match (mmaTimes debug c dr r n).getLast? with
    | none => [(max (4 + c) r, max (4 + c) r + dr)]
    | some (a, b) =>
      let sw := if debug then b + c else a + max c dr
      mmaTimes debug c dr r n ++ [(sw, sw + dr)]

/-- MMA (R208 to R211, R228): the plan at its issue beat. Two MMAs have the same output tile when their handles and output
offsets agree (R163; DEDUCED, log 195). A gathering in debug mode is not sampled (R677). -/
def planMma (d g w : Nat) (s : State) (t : Nat) : Plan :=
  let x := s.gath d g
  let k := x.core
  let ra := x.desc (mmaHa w)
  let rb := x.desc (mmaHb w)
  let rc := x.desc (mmaHc w)
  let oa := k.offset (mmaAga w)
  let ob := k.offset (mmaAgb w)
  let oc := k.offset (mmaAgc w)
  let m := Tab.get 0 k.ct (mmaCtm w)
  let n := Tab.get 0 k.ct (mmaCtn w)
  let kk := Tab.get 0 k.ct (mmaCtk w)
  let some? := m != 0 && n != 0
  let hold := mmaHold w == 1
  let contBit := mmaCont w == 1
  let lastOk := match k.last with
    | some l => l.hold && l.shape == k.shape && l.m == m && l.n == n && l.hc == mmaHc w && decide (l.oc = oc)
    | none => false
  let a : Mma := ⟨ra, rb, rc, oa, ob, oc, m, n, kk, mmaSgna w == 1, mmaSgnb w == 1, contBit && lastOk, false⟩
  let a := { a with alien := match k.last with
    | some l => l.int != a.int
    | none => false }
  let rows (v : Nat) := if some? then v else 0
  let stops := s.regionStops d g ra oa (rows m) kk ++ s.regionStops d g rb ob (rows n) kk ++
    s.regionStops d g rc oc (rows m) n ++ mmaFormat ra rb rc ++ k.cfgStop [0]
  let reads := [.count (mmaCtm w), .count (mmaCtn w), .count (mmaCtk w)] ++ k.offReads (mmaAga w) ++
    k.offReads (mmaAgb w) ++ k.offReads (mmaAgc w)
  let base : Plan := { core := k, next := k.ip + 1, stops := stops, reads := reads }
  if !some? then { base with hold := hold }
  else if !stops.isEmpty then base
  else
    let (_, _, sp) := shapeFace k.shape
    let cls := widthClass (opFm ra)
    let gr := groupElems cls
    let c := 4 * groupBeats cls * cdiv (sliceLen kk sp) gr
    let dr := drainBeats sp
    let tiles := a.tiles k.shape
    let nt := tiles.length
    let held := hold && nt == 1
    let dbg := s.flag .gthCfg_debug (gi d g)
    let times := mmaTimes dbg c dr (x.drainEnd - t) nt
    let reads := reads ++ regionLines ra oa m kk false ++ regionLines rb ob n kk false
    let hz := (hold && nt != 1) || (contBit && !lastOk)
    let lastO := tiles.getLastD (0, 0)
    let ngroups := cdiv (sliceLen kk sp) gr
    let core : GCore := { k with
      last := some ⟨held, k.shape, m, n, mmaHc w, oc, a.int⟩
      elems := gr
      accGone := false
      acc := if held then a.entries s k lastO else []
      shadow := if held then k.shadow else a.entries s k lastO
      stat0 := a.stationary s k lastO (ngroups - 1 - (ngroups - 1) % 2)
      stat1 := if ngroups < 2 then k.stat1 else a.stationary s k lastO (ngroups - 1 - ngroups % 2) }
    let samples := if dbg then [] else tiles.zipIdx.flatMap fun (o, i) => a.sample s k d g x.crzProb x.crzThr i o
    if held then
      let fl := (a.live k.shape lastO).foldl (fun f (i, j) => f ||| (a.element s k i j).made) 0
      { base with
        reads := reads
        span := 4 + c
        flags := fl
        hold := hz
        core := core
        samples := samples }
    else
      let draw := s.gathDraw d g (mmaSite w)
      let outs := tiles.map fun o => a.drainTile s k draw (mmaRmode w) o
      let last := times.getLastD (0, 0)
      { base with
        reads := reads
        writes := (outs.zip times).map fun (o, tm) => (tm.2, .mem o.1, true)
        span := if dbg then last.2 else last.1
        drain := some last.2
        flags := outs.foldl (fun f o => f ||| o.2) 0
        hold := hz
        core := core
        samples := samples }

/-- After an MMA that continued from values of the other path, the free values it drew are used up. -/
def postMma (_ : QCmd) (_ _ : Nat) (s : State) : State := { s with fresh := s.fresh + 2 ^ 30 }

/-- MMA. `bad` is a line of scratch in which its read finds an uncorrectable error (R550). -/
def execMma (d g : Fin 8) (bad : Option Nat) (s : State) : Host.Outcome State Fault Refusal :=
  .next (s.issue d g 0x20 0 (fun w s t => { planMma d g w s t with bad := bad }) postMma)

end Sys2Proof.Machine
end

