-- ==== Sys2Proof/Machine/Lane.lean ====
section
/-! DEFINITION. One lane of a vector operation (R131 to R140, R177 to R183, R213): tensor operations, conforming
operations, and integer and bit operations. A result is a pattern and its flags. -/

namespace Sys2Proof.Machine

/-! ## Tensor operations -/

/-- A magnitude with a sticky bit written as a tensor-operation result. -/
def encodeMagT (f : Fm) (ftz : Bool) (rm : Rm) (neg : Bool) (x : Mag) : Nat × Nat :=
  if ftz && tiny f x.m x.e then (0, flFlushed)
  else
    let (p, fl) := encodeMag f rm neg x
    (if p % 2 ^ (f.eb + f.fb) = 0 then 0 else p, fl &&& 0xE7)

/-- A result with an INVALID of its own. -/
def resT (f : Fm) (ftz : Bool) (rm : Rm) (r : Bool × Val) : Nat × Nat :=
  if r.1 then (f.qnan, flInvalid) else encodeT f ftz rm r.2

/-- ±∞ of a floating-point format. -/
def infPat (f : Fm) (neg : Bool) : Nat := (2 ^ f.eb - 1) * 2 ^ f.fb + at_ (b2n neg) (f.eb + f.fb)

/-- DIV as a tensor operation (R139). -/
def divT (f : Fm) (ftz : Bool) (rm : Rm) (a b : Val) : Nat × Nat :=
  match a, b with
  | .nan, _ => (f.qnan, 0)
  | _, .nan => (f.qnan, 0)
  | .inf _, .inf _ => (f.qnan, flInvalid)
  | .inf n, .fin n2 m2 _ => (infPat f (if m2 = 0 then n else n != n2), 0)
  | .fin _ _ _, .inf _ => (0, 0)
  | .fin n1 m1 e1, .fin n2 m2 e2 =>
    if m2 = 0 then (if m1 = 0 then (f.qnan, flInvalid) else (infPat f n1, flDivZero))
    else if m1 = 0 then (0, 0)
    else encodeMagT f ftz rm (n1 != n2) (divMag m1 e1 m2 e2)

/-- SQRT as a tensor operation (R139). -/
def sqrtT (f : Fm) (ftz : Bool) (rm : Rm) : Val → Nat × Nat
  | .nan => (f.qnan, 0)
  | .inf n => if n then (f.qnan, flInvalid) else (infPat f false, 0)
  | .fin n m e =>
    if m = 0 then (0, 0)
    else if n then (f.qnan, flInvalid)
    else encodeMagT f ftz rm false (sqrtMag m e)

/-- MAX and MIN of values (R139): a NaN operand gives a NaN. -/
def maxVal (a b : Val) : Val := if a.isNan || b.isNan then .nan else if a.lt b then b else a
/-- MIN. -/
def minVal (a b : Val) : Val := if a.isNan || b.isNan then .nan else if b.lt a then b else a

/-- SCALE by 2^n, the exponent held where every result has long overflowed or vanished. -/
def scaleBy (v : Val) (n : Nat) : Val := v.scale (max (-8000) (min 8000 (sext 32 n)))

/-- SIGN. -/
def signVal (v : Val) : Val :=
  match v with
  | .nan => .nan
  | .inf n => .fin n 1 0
  | .fin n m _ => if m = 0 then .zero else .fin n 1 0

/-- Value of a tensor op on its operand values, by op code of R213: ops that end in one encode. -/
def opTensor (op : Nat) (a b c : Val) (bPat : Nat) : Bool × Val :=
  match op with
  | 0x00 => a.add b
  | 0x01 => a.add b.negate
  | 0x02 => a.mul b
  | 0x03 =>
    if a.isNan || b.isNan || c.isNan then (false, .nan)
    else
      let (i, p) := a.mul b
      if i then (true, .nan) else p.add c
  | 0x06 => (false, maxVal a b)
  | 0x07 => (false, minVal a b)
  | 0x0A => (false, scaleBy a bPat)
  | 0x0B => (false, a.abs)
  | 0x0C => (false, a.negate)
  | 0x0D => (false, minVal (maxVal a b) c)
  | 0x0E => (false, signVal a)
  | _ => (false, a)

/-- Whether an op reads VB as a value of its lane type. -/
def readsB (op : Nat) : Bool :=
  match op with
  | 0x00 | 0x01 | 0x02 | 0x03 | 0x04 | 0x06 | 0x07 | 0x08 | 0x0D | 0x0F => true
  | _ => false

/-- Whether an op reads VC as a register (R212). -/
def readsC (op : Nat) : Bool := op == 0x03 || op == 0x0D || op == 0x0F

/-- A tensor operation on FP32 or FP64 lanes, its result in the same format. -/
def laneTensor (f : Fm) (op : Nat) (ftz : Bool) (rm : Rm) (pa pb pc : Nat) : Nat × Nat :=
  let (a, f1) := inputT f ftz pa
  let (b, f2) := if readsB op then inputT f ftz pb else (.zero, 0)
  let (c, f3) := if readsC op then inputT f ftz pc else (.zero, 0)
  let (p, fl) := match op with
    | 0x04 => divT f ftz rm a b
    | 0x05 => sqrtT f ftz rm a
    | 0x10 => recip32 ftz a
    | 0x11 => rsqrt32 ftz a
    | 0x12 => exp2_32 ftz a
    | 0x13 => log2_32 ftz a
    | _ => resT f ftz rm (opTensor op a b c pb)
  (p, fl ||| f1 ||| f2 ||| f3)

/-! ## Conforming operations -/

/-- Most significant fraction bit: set in a quiet NaN (R96). -/
def quietBit (f : Fm) : Nat := 2 ^ (f.fb - 1)

/-- Whether a pattern is a signalling NaN. -/
def isSnan (f : Fm) (p : Nat) : Bool := (decodeFloat f p).isNan && !bit p (f.fb - 1)

/-- R131: the first NaN among the operands, made quiet, and INVALID when any is signalling. -/
def nanResult (f : Fm) (ps : List Nat) : Option (Nat × Nat) :=
  (ps.find? fun p => (decodeFloat f p).isNan).map fun p =>
    (p ||| quietBit f, flagIf (ps.any (isSnan f)) flInvalid)

/-- A signed zero. -/
def zeroPat (f : Fm) (neg : Bool) : Nat := at_ (b2n neg) (f.eb + f.fb)

/-- Whether a magnitude rounded with an unbounded exponent range lies below the smallest normal: tininess after
rounding. -/
def tinyAfter (f : Fm) (rm : Rm) (neg : Bool) (x : Mag) : Bool :=
  let (n, q, _) := roundMag rm neg (f.fb + 1) (-100000) x
  tiny f n q

/-- R130, R133: an exact non-zero magnitude rounded with the five flags; which of the two tests of tininess IEEE 754
allows the device makes is free. -/
def encodeC (f : Fm) (ftz : Bool) (rm : Rm) (neg : Bool) (x : Mag) : Nat × Nat :=
  if ftz && tiny f x.m x.e then (zeroPat f neg, flFlushed)
  else
    let (p, fl) := encodeMag f rm neg x
    let small := if Config.tinyAfterRounding then tinyAfter f rm neg x else tiny f x.m x.e
    (p, fl ||| flagIf (small && fl &&& flInexact != 0) flUnderflow)

/-- A finite value or an infinity written by a conforming operation. -/
def encodeCV (f : Fm) (ftz : Bool) (rm : Rm) : Val → Nat × Nat
  | .nan => (f.qnan, flInvalid)
  | .inf n => (infPat f n, 0)
  | .fin n m e => if m = 0 then (zeroPat f n, 0) else encodeC f ftz rm n ⟨m, e, false⟩

/-- An input of a conforming operation (R127, R128): under FTZ a subnormal reads as a zero of its sign. -/
def inputC (f : Fm) (ftz : Bool) (p : Nat) : Val × Nat :=
  match decodeFloat f p with
  | .fin n m e => if ftz && tiny f m e then (.fin n 0 0, flFlushed) else (.fin n m e, 0)
  | v => (v, 0)

/-- Sum with IEEE signs of zero. -/
def addC (rm : Rm) (a b : Val) : Val :=
  match a, b with
  | .fin n1 m1 e1, .fin n2 m2 e2 =>
    if m1 = 0 ∧ m2 = 0 then .fin (if n1 = n2 then n1 else decide (rm = .down)) 0 0
    else
      match addFin n1 m1 e1 n2 m2 e2 with
      | .fin n m e => if m = 0 then .fin (decide (rm = .down)) 0 0 else .fin n m e
      | v => v
  | _, _ => (a.add b).2

/-- DIV, conforming, on operands that are no NaN. -/
def divC (f : Fm) (ftz : Bool) (rm : Rm) (a b : Val) : Nat × Nat :=
  let sg := a.neg != b.neg
  match a, b with
  | .inf _, .inf _ => (f.qnan, flInvalid)
  | .inf _, _ => (infPat f sg, 0)
  | _, .inf _ => (zeroPat f sg, 0)
  | .fin _ m1 e1, .fin _ m2 e2 =>
    if m2 = 0 then (if m1 = 0 then (f.qnan, flInvalid) else (infPat f sg, flDivZero))
    else if m1 = 0 then (zeroPat f sg, 0)
    else encodeC f ftz rm sg (divMag m1 e1 m2 e2)
  | _, _ => (f.qnan, 0)

/-- SQRT, conforming. -/
def sqrtC (f : Fm) (ftz : Bool) (rm : Rm) : Val → Nat × Nat
  | .nan => (f.qnan, 0)
  | .inf n => if n then (f.qnan, flInvalid) else (infPat f false, 0)
  | .fin n m e =>
    if m = 0 then (zeroPat f n, 0)
    else if n then (f.qnan, flInvalid)
    else encodeC f ftz rm false (sqrtMag m e)

/-- IEEE maximum and minimum: −0 lies below +0. -/
def maxC (hi : Bool) (a b : Val) : Val :=
  let less := a.lt b || (a.isZero && b.isZero && a.neg && !b.neg)
  if hi then (if less then b else a) else (if less then a else b)

/-- A conforming operation on FP32 or FP64 lanes, its result in the same format (R130 to R132, R179). ABS and NEG treat a
NaN as every other one does (R131). -/
def laneConf (f : Fm) (op : Nat) (ftz : Bool) (rm : Rm) (pa pb pc : Nat) : Nat × Nat :=
  let ps := pa :: (if readsB op then [pb] else []) ++ if readsC op then [pc] else []
  let (a, f1) := inputC f ftz pa
  let (b, f2) := if readsB op then inputC f ftz pb else (.zero, 0)
  let (c, f3) := if readsC op then inputC f ftz pc else (.zero, 0)
  let fin := f1 ||| f2 ||| f3
  let sgn := 2 ^ (f.eb + f.fb)
  let bitsOf (v : Val) (q : Nat) : Nat := match v with
    | .fin n m _ => if m = 0 then zeroPat f n else q
    | _ => q
  match nanResult f ps with
    | some (p, fl) => (p, fl ||| fin)
    | none =>
      let (p, fl) := match op with
        | 0x0B => (bitsOf a pa % sgn, 0)
        | 0x0C => (bitsOf a pa ^^^ sgn, 0)
        | 0x04 => divC f ftz rm a b
        | 0x05 => sqrtC f ftz rm a
        | 0x00 => if (a.add b).1 then (f.qnan, flInvalid) else encodeCV f ftz rm (addC rm a b)
        | 0x01 => if (a.add b.negate).1 then (f.qnan, flInvalid) else encodeCV f ftz rm (addC rm a b.negate)
        | 0x02 => if (a.mul b).1 then (f.qnan, flInvalid) else encodeCV f ftz rm (a.mul b).2
        | 0x03 =>
          let (i, q) := a.mul b
          if i || (q.add c).1 then (f.qnan, flInvalid) else encodeCV f ftz rm (addC rm q c)
        | 0x06 => encodeCV f ftz rm (maxC true a b)
        | 0x07 => encodeCV f ftz rm (maxC false a b)
        | _ => encodeCV f ftz rm (scaleBy a pb)
      (p, fl ||| fin)

/-! ## Compare and convert -/

/-- CMP (R183, R213): the condition on two values. -/
def cmpVals (cond : Nat) (a b : Val) : Bool :=
  match cond with
  | 0 => a.eqv b
  | 1 => a.lt b
  | 2 => a.lt b || a.eqv b
  | _ => a.isNan || b.isNan

/-- Format of a TYPE or of a CVT target. -/
def typeFm : Nat → Fm
  | 0 => .fp32 | 1 => .fp64 | 2 => .i32 | _ => .x48

/-- Payload of a NaN carried to another format: the fraction's leading bits stay the leading bits (R131; DEDUCED,
log 49). -/
def nanTo (f t : Fm) (p : Nat) : Nat :=
  let fr := p % 2 ^ f.fb
  let fr' := if t.fb ≥ f.fb then fr <<< (t.fb - f.fb) else fr >>> (f.fb - t.fb)
  let fr' := if t == .x48 then fr' / 65536 * 65536 else fr'
  ((2 ^ t.eb - 1) * 2 ^ t.fb + (fr' ||| quietBit t)) + at_ (b2n (bit p (f.eb + f.fb))) (t.eb + t.fb)

/-- CVT of one lane (R213). An X48 NaN or infinity has EXT 0 (R103). A CVT to X48 that is not conforming, which R104 does
not provide for and R213 accepts, rounds to X48 as a tensor operation (DEDUCED, log 192). -/
def cvtLane (conf : Bool) (f t : Fm) (ftz : Bool) (rm : Rm) (pat : Nat) : Nat × Nat :=
  let p := if f == .x48 then canonX48 pat else pat
  if f.isInt then
    let v := decode f p
    if t.isInt then (p % 2 ^ 32, 0) else if conf then encodeCV t ftz rm v else encodeT t ftz rm v
  else if t.isInt then
    let (v, f1) := if conf then inputC f ftz p else inputT f ftz p
    let (i, fl) := toIntRange t.imin t.imax rm v
    (ofInt 32 i, (if conf then fl else fl &&& 0xE7) ||| f1)
  else if conf then
    let (v, f1) := inputC f ftz p
    match v with
    | .nan => (nanTo f t p, flagIf (isSnan f p) flInvalid ||| f1)
    | v =>
      let (q, fl) := encodeCV t ftz rm v
      (q, fl ||| f1)
  else
    let (v, f1) := inputT f ftz p
    let (q, fl) := encodeT t ftz rm v
    (q, fl ||| f1)

/-! ## Integers and bits -/

/-- 32-bit operations 0x18 to 0x1D. -/
def laneBits (op a b : Nat) : Nat :=
  match op with
  | 0x18 => (a + b) % 2 ^ 32
  | 0x19 => a &&& b
  | 0x1A => a ||| b
  | 0x1B => a ^^^ b
  | 0x1C => (a <<< (b % 32)) % 2 ^ 32
  | _ => a >>> (b % 32)

/-- Integer forms of the other ops with TYPE 2 (R213). -/
def laneInt (op a b c : Nat) : Nat :=
  let x := sext 32 a
  let y := sext 32 b
  let z := sext 32 c
  ofInt 32 (match op with
    | 0x00 => x + y
    | 0x01 => x - y
    | 0x02 => x * y
    | 0x03 => x * y + z
    | 0x06 => max x y
    | 0x07 => min x y
    | 0x0B => x.natAbs
    | 0x0C => -x
    | 0x0D => min (max x y) z
    | _ => if x < 0 then -1 else if x = 0 then 0 else 1)

/-- Condition of an integer CMP; unordered never holds. -/
def cmpInt (cond a b : Nat) : Bool :=
  let x := sext 32 a
  let y := sext 32 b
  match cond with
  | 0 => decide (x = y)
  | 1 => decide (x < y)
  | 2 => decide (x ≤ y)
  | _ => false

/-- Ops that R181 marks as conforming, beside CVT and CMP. -/
def conforming (op : Nat) : Bool := op ≤ 0x0C

end Sys2Proof.Machine
end

