-- ==== Sys2Proof/Machine/Vector.lean ====
section
/-! DEFINITION. VECTOR configuration (R176 to R183, R212 to R216): VOP, VLD and VST. -/

namespace Sys2Proof.Machine

/-- Lanes of a gathering. -/
def lanes : Nat := 32768

/-! ## VOP -/

/-- Latency of an op by TYPE (R181). FP64 timing holds for a pair among its operands. -/
def vopLatency (op : Nat) (wide : Bool) : Nat :=
  match op with
  | 0x00 | 0x01 | 0x02 => if wide then 8 else 4
  | 0x03 => if wide then 12 else 6
  | 0x04 | 0x05 => if wide then 40 else 20
  | 0x06 | 0x07 | 0x08 | 0x0A | 0x0D | 0x0E => if wide then 4 else 2
  | 0x09 => if wide then 6 else 4
  | 0x0B | 0x0C => 1
  | 0x10 | 0x11 => 8
  | 0x12 | 0x13 => 12
  | _ => 2

/-- Issue interval of an op by TYPE (R181). -/
def vopInterval (op : Nat) (wide : Bool) : Nat :=
  match op with
  | 0x00 | 0x01 | 0x06 | 0x07 | 0x08 | 0x09 | 0x0A | 0x0D | 0x0E => if wide then 2 else 1
  | 0x02 | 0x03 => if wide then 8 else 2
  | 0x04 | 0x05 => if wide then 32 else 8
  | 0x10 | 0x11 => 2
  | 0x12 | 0x13 => 4
  | _ => 1

/-- Whether a VOP has FP64 timing: an FP64 lane type, or a CVT to or from a pair (DEDUCED, log 50). -/
def vopWide (w : Nat) : Bool :=
  let op := vopOp w
  if op ≥ 0x18 then false
  else if op = 0x09 then
    vopType w == 1 || vopType w == 3 || vopVc w % 4 == 1 || vopVc w % 4 == 3
  else vopType w == 1

/-- Whether the VA field names a pair (R212). -/
def vopPairA (w : Nat) : Bool :=
  let op := vopOp w
  op < 0x18 && (vopType w == 1 || (op == 0x09 && vopType w == 3))

/-- Whether the VD field names a pair (R212). -/
def vopPairD (w : Nat) : Bool :=
  let op := vopOp w
  if op ≥ 0x18 then false
  else if op = 0x09 then vopVc w % 4 == 1 || vopVc w % 4 == 3
  else vopType w == 1

/-- Whether VB is read as a register: by ops of two or more operands, by SCALE and by bit operations, unless BSC. -/
def vopUsesB (w : Nat) : Bool :=
  let op := vopOp w
  (readsB op || op == 0x0A || op ≥ 0x18) && vopBsc w == 0

/-- Whether VB names a pair (R212). -/
def vopPairB (w : Nat) : Bool := readsB (vopOp w) && vopType w == 1

/-- Registers that a field names. -/
def regPair (v : Nat) (pair : Bool) : List Nat := if pair then [v, v + 1] else [v]

/-- Source registers of a VOP. -/
def vopSources (w : Nat) : List Nat :=
  regPair (vopVa w) (vopPairA w) ++ (if vopUsesB w then regPair (vopVb w) (vopPairB w) else []) ++
    (if readsC (vopOp w) then regPair (vopVc w) (vopType w == 1) else [])

/-- Pattern of a lane of a register or pair (R176); `x48`: P in [47:16] and EXT in [15:0]. -/
def GCore.lane (k : GCore) (v : Nat) (pair x48 : Bool) (l : Nat) : Nat :=
  let a := Tab.get 0 (Tab.get {} k.v v).pat l
  if pair then
    let b := Tab.get 0 (Tab.get {} k.v (v + 1)).pat l
    if x48 then a * 65536 + b % 65536 else a + b * 2 ^ 32
  else a

/-- One lane of a VOP: result pattern and flags (R177 to R183, R213). CMP reads a subnormal as zero under FTZ (R127) and,
as a tensor operation, sets no flag (R183). -/
def vopLane (w : Nat) (ftz : Bool) (dr : Draw) (index : Nat) (pa pb pc : Nat) : Nat × Nat :=
  let op := vopOp w
  let ty := vopType w
  if op ≥ 0x18 then (laneBits op (pa % 2 ^ 32) (pb % 2 ^ 32), 0)
  else if op = 0x0F then ((pa &&& pc) ||| (pb &&& ((2 ^ 64 - 1) ^^^ pc)), 0)
  else
    let conf := vopConf w == 1 && ty ≤ 1 && conforming op
    let rm := if conf then rmConf (vopRmode w) else rmTensor dr (vopRmode w) index
    let f := typeFm ty
    if op = 0x08 then
      let cond := vopVc w % 4
      let (a, f1) := inputC f ftz pa
      let (b, f2) := inputC f ftz pb
      let hit := if ty = 2 then cmpInt cond pa pb else cmpVals cond a b
      let fl := if conf then f1 ||| f2 ||| flagIf (isSnan f pa || isSnan f pb) flInvalid else 0
      (if hit then 2 ^ 64 - 1 else 0, fl)
    else if op = 0x09 then cvtLane conf f (typeFm (vopVc w % 4)) ftz rm pa
    else if ty = 2 then (laneInt op pa pb pc, 0)
    else if conf then laneConf f op ftz rm pa pb pc
    else laneTensor f op ftz rm pa pb pc

/-- The registers a lane result fills: a single register, an FP64 pair, or an X48 pair. -/
def splitLane (pair x48 : Bool) (p : Nat) : Nat × Nat :=
  if x48 then (p / 65536, p % 65536) else if pair then (p % 2 ^ 32, p / 2 ^ 32) else (p % 2 ^ 32, 0)

/-- VOP at its issue beat (R212 to R214). -/
def planVop (d g w : Nat) (s : State) (_ : Nat) : Plan :=
  let x := s.gath d g
  let k := x.core
  let op := vopOp w
  let srcs := vopSources w
  let valid := srcs.foldl (fun a v => min a (Tab.get {} k.v v).valid) lanes
  let origin := (Tab.get {} k.v (vopVa w)).origin
  let dr := s.gathDraw d g (vopSite w)
  let sb := Tab.get 0 k.s (vopSb w)
  let bOf (l : Nat) : Nat :=
    if vopBsc w = 1 then (if vopPairB w then sb else sb % 2 ^ 32) else k.lane (vopVb w) (vopPairB w) false l
  let cOf (l : Nat) : Nat := if readsC op then k.lane (vopVc w) (vopType w == 1) false l else 0
  let x48a := op == 0x09 && vopType w == 3
  let pairD := vopPairD w
  let x48d := op == 0x09 && vopVc w % 4 == 3
  let res := (List.range valid).map fun l =>
    (l, vopLane w k.ftz dr ((origin + l) % 2 ^ 48) (k.lane (vopVa w) (vopPairA w) x48a l) (bOf l) (cOf l))
  let lo := res.map fun (l, p, _) => (l, (splitLane pairD x48d p).1)
  let hi := res.map fun (l, p, _) => (l, (splitLane pairD x48d p).2)
  let lat := vopLatency op (vopWide w)
  let reg (t : Tab Nat) : VReg := { pat := t.filter (·.2 != 0), valid := valid, origin := origin }
  { core := k
    next := k.ip + 1
    stops := k.cfgStop [1]
    reads := srcs.map .vector ++
      if vopBsc w = 1 ∧ (readsB op ∨ op = 0x0A ∨ op ≥ 0x18) then [.scalar (vopSb w)] else []
    writes := (lat, .vector (vopVd w) (reg lo), false) ::
      if pairD then [(lat, .vector (vopVd w + 1) (reg hi), false)] else []
    flags := res.foldl (fun a r => a ||| r.2.2) 0 }

/-- R229: the lanes of an op are busy for its issue interval. -/
def postVop (d g : Nat) (_ : QCmd) (w t : Nat) (s : State) : State :=
  let x := s.gath d g
  s.setGath d g { x with opFree := Tab.upd x.opFree (vopOp w) (t + vopInterval (vopOp w) (vopWide w)) }

/-- Beat before which the VOP at the instruction address may not issue (R229; one operation code is one kind, log 51). -/
def State.vopWait (s : State) (d g : Nat) : Nat :=
  let x := s.gath d g
  match x.word with
  | some w => Tab.get 0 x.opFree (vopOp w)
  | none => 0

/-- VOP. -/
def execVop (d g : Fin 8) (s : State) : Host.Outcome State Fault Refusal :=
  .next (s.issue d g 0x30 (s.vopWait d g) (planVop d g) (postVop d g))

/-! ## VLD and VST -/

/-- Whether LANE fits a tensor (R215). -/
def laneFits (store : Bool) (lane r : Nat) : Bool :=
  let f := tdFm r
  let b := tdBlocked r == 1
  match lane with
  | 0 => f != .fp64 && f != .i32 && !(store && f == .x48)
  | 1 => f == .fp64
  | 2 => f == .x48
  | _ => f == .i32 || (!b && (f == .i8 || f == .u8 || f == .i4 || f == .u4))

/-- A window of VLD or VST from element `i` with `left` elements to go, cut at row ends: first element, count, first
lane. -/
def windowRows (r o : Nat) : Nat → Nat → Nat → List (Nat × Nat × Nat)
  | 0, _, _ => []
  | f + 1, i, left =>
    if left = 0 then []
    else
      let c := min left (tdExt r 0 - i % tdExt r 0)
      (i, c, i - o) :: windowRows r o f (i + c) (left - c)

/-- Stretches of a window of `n` elements from `o`. -/
def window (r o n : Nat) : List (Nat × Nat × Nat) := windowRows r o (n / max 1 (tdExt r 0) + 2) o n

/-- Stops of VLD and VST (R216, R201, R215, R242), and the number of elements of the window inside the tensor. -/
def State.vlsStops (s : State) (d g : Nat) (store : Bool) (w r : Nat) (o : Int) (k : GCore) : List Nat × Nat :=
  let inside := decide (0 ≤ o) && decide (o.toNat < tdCount r)
  ((if s.ownScratch d g r && inside then [] else [1]) ++
    (if tdBlocked r = 1 ∧ (o % (tdExt r 0 : Int)) % 32 ≠ 0 then [2] else []) ++
    (if laneFits store (vlsLane w) r then [] else [3]) ++ k.cfgStop [1, 3],
   min lanes (tdCount r - o.toNat))

/-- What one VLD lane receives (R177, R183, R215): a pattern and flags. VLD is a tensor operation: a stored −0 reads as +0
(R137), a NaN becomes the quiet NaN of R94 (R138), and a product with DSCALE that the lane's format does not hold is rounded
once, to nearest (DEDUCED, log 52); past the format's range it sets OVERFLOW (DEDUCED, log 233). -/
def State.loadLane (s : State) (lane r idx : Nat) (ftz : Bool) : Nat × Nat :=
  if lane = 3 then (ofInt 32 (match decode (tdFm r) (s.opPat r idx) with
    | .fin n m e => scaled n m e 0
    | _ => 0), 0)
  else
    let f : Fm := if lane = 0 then opFm r else tdFm r
    let p := if lane = 0 then s.opPat r idx else s.rdElem 0 r idx
    let t : Fm := match lane with
      | 0 => .fp32
      | 1 => .fp64
      | _ => .x48
    let (v, f1) := elemIn f ftz (s.e8Of 0 r idx) p
    let (q, f2) := encodeT t ftz .rne (v.mul (s.opDscale r)).2
    (q, f1 ||| (f2 &&& (flFlushed ||| flOverflow)))

/-- VLD at its issue beat (R214 to R216): latency 8. -/
def planVld (d g w : Nat) (s : State) (_ : Nat) : Plan :=
  let x := s.gath d g
  let k := x.core
  let r := x.desc (vlsH w)
  let o := k.offset (vlsAg w)
  let (st, n) := s.vlsStops d g false w r o k
  let base : Plan := { core := k, next := k.ip + 1, stops := st, reads := k.offReads (vlsAg w) }
  if !st.isEmpty then base
  else
    let lane := vlsLane w
    let pair := lane == 1 || lane == 2
    let res := (List.range n).map fun l => (l, s.loadLane lane r (o.toNat + l) k.ftz)
    let lo := res.map fun (l, p, _) => (l, (splitLane pair (lane == 2) p).1)
    let hi := res.map fun (l, p, _) => (l, (splitLane pair (lane == 2) p).2)
    let reg (t : Tab Nat) : VReg := { pat := t.filter (·.2 != 0), valid := n, origin := o.toNat % 2 ^ 48 }
    { base with
      reads := k.offReads (vlsAg w) ++
        (nubNat ((window r o.toNat n).flatMap fun (i, c, _) => rowLines r i c (lane == 2))).map .line
      writes := (8, .vector (vlsVr w) (reg lo), false) ::
        if pair then [(8, .vector (vlsVr w + 1) (reg hi), false)] else []
      flags := res.foldl (fun a q => a ||| q.2.2) 0 }

/-- VLD. `bad` is a line of scratch in which its read finds an uncorrectable error (R550). -/
def execVld (d g : Fin 8) (bad : Option Nat) (s : State) : Host.Outcome State Fault Refusal :=
  .next (s.issue d g 0x31 0 (fun w s t => { planVld d g w s t with bad := bad }) noPost)

/-- The value of a lane that VST encodes with LANE 0 to 2 (R127, R137, R177): with FLUSHED. -/
def storeLane (lane pat : Nat) (ftz : Bool) : Val × Nat :=
  inputT (match lane with
    | 0 => .fp32
    | 1 => .fp64
    | _ => .x48) ftz pat

/-- VST at its issue beat (R214 to R216): latency 10. Only valid lanes are written; each block's E8 is chosen from
them. -/
def planVst (d g w : Nat) (s : State) (_ : Nat) : Plan :=
  let x := s.gath d g
  let k := x.core
  let r := x.desc (vlsH w)
  let o := k.offset (vlsAg w)
  let (st, n) := s.vlsStops d g true w r o k
  let lane := vlsLane w
  let pair := lane == 1 || lane == 2
  let regs := regPair (vlsVr w) pair
  let base : Plan := { core := k, next := k.ip + 1, stops := st
                       reads := k.offReads (vlsAg w) ++ regs.map .vector }
  if !st.isEmpty then base
  else
    let valid := regs.foldl (fun a v => min a (Tab.get {} k.v v).valid) n
    let dr := s.gathDraw d g (vlsSite w)
    let rm := rmTensor dr (vlsRmode w)
    let rows := window r o.toNat valid
    if lane = 3 then
      let out := (List.range valid).map fun l =>
        let v := Val.ofInt (sext 32 (k.lane (vlsVr w) false false l))
        let (i, fl) := toIntRange (tdFm r).imin (tdFm r).imax .rne v
        (elemCells r (o.toNat + l) (ofInt (tdFm r).width i), fl &&& flSaturated)
      { base with
        writes := [(10, .mem (out.flatMap (·.1)), false)]
        flags := out.foldl (fun a q => a ||| q.2) 0 }
    else
      let val (l : Nat) : Val × Nat := storeLane lane (k.lane (vlsVr w) pair (lane == 2) l) k.ftz
      let outs := rows.map fun (i, c, l0) => s.encodeRow r i c k.ftz rm fun j => some (val (l0 + j)).1
      let inFl := (List.range valid).foldl (fun a l => a ||| (val l).2) 0
      { base with
        writes := [(10, .mem (outs.flatMap (·.1)), false)]
        flags := outs.foldl (fun a q => a ||| q.2) inFl }

/-- VST. -/
def execVst (d g : Fin 8) (s : State) : Host.Outcome State Fault Refusal :=
  .next (s.issue d g 0x32 0 (planVst d g) noPost)

end Sys2Proof.Machine
end

