-- ==== Sys2Proof/Machine/Move.lean ====
section
/-! DEFINITION. TRANSPOSE and REDUCTION configurations (R184 to R186, R217 to R219): XMOV and RED. -/

namespace Sys2Proof.Machine

/-! ## XMOV -/

/-- Whether a move keeps an unblocked format, and so copies patterns (R184). -/
def moveKeeps (rs rd : Nat) : Bool := tdFormat rs == tdFormat rd && tdBlocked rs == 0 && tdBlocked rd == 0

/-- An element that a converting move reads: exactly, an X48 element with its extension (R103, R184). -/
def State.moveVal (s : State) (r idx : Nat) (ftz : Bool) : Val × Nat :=
  if tdFm r = .x48 then s.rdIn 0 r idx ftz else s.opVal r idx ftz none

/-- XMOV at its issue beat (R217, R227): 4 beats a round of 32 blocks, and 8 more to the last block in scratch, when all
of it lands (DEDUCED, log 54). A converting move into an X48 tensor rounds to X48 (DESIGN CHOICE, log 247). -/
def planXmov (d g w : Nat) (s : State) (_ : Nat) : Plan :=
  let x := s.gath d g
  let k := x.core
  let rs := x.desc (xmHs w)
  let rd := x.desc (xmHd w)
  let os := k.offset (xmAgs w)
  let od := k.offset (xmAgd w)
  let rows := Tab.get 0 k.ct (xmCtr w)
  let cols := Tab.get 0 k.ct (xmCtc w)
  let tr := xmTrans w == 1
  let drows := if tr then cols else rows
  let dcols := if tr then rows else cols
  let nb := cdiv rows 32 * cdiv cols 32
  let st := s.regionStops d g rs os rows cols ++ s.regionStops d g rd od drows dcols ++ k.cfgStop [2]
  let reads := [.count (xmCtr w), .count (xmCtc w)] ++ k.offReads (xmAgs w) ++ k.offReads (xmAgd w)
  let base : Plan := { core := k, next := k.ip + 1, stops := st, reads := reads }
  if nb = 0 ∨ !st.isEmpty then base
  else
    let src (i j : Nat) : Nat := if tr then regionIdx rs os j i else regionIdx rs os i j
    let beats := 4 * cdiv nb 32
    let (cells, fl) : List (Nat × Nat) × Nat := if moveKeeps rs rd then
        ((List.range drows).flatMap fun i => (List.range dcols).flatMap fun j =>
          elemCells rd (regionIdx rd od i j) (s.rdElem 0 rs (src i j)), 0)
      else
        let dr := s.gathDraw d g (xmSite w)
        (List.range drows).foldl (fun (l, fl) i =>
          let vs := (List.range dcols).map fun j => s.moveVal rs (src i j) k.ftz
          let (c, f) := s.encodeRow rd (regionIdx rd od i 0) dcols k.ftz (rmTensor dr (xmRmode w))
            fun j => (vs[j]?).map (·.1)
          (l ++ c, vs.foldl (fun a v => a ||| v.2) (fl ||| f))) ([], 0)
    { base with
      reads := reads ++ regionLines rs os rows cols true
      writes := [(beats + 8, .mem cells, false)]
      span := beats
      flags := fl }

/-- XMOV. -/
def execXmov (d g : Fin 8) (s : State) : Host.Outcome State Fault Refusal :=
  .next (s.issue d g 0x40 0 (planXmov d g) noPost)

/-! ## RED -/

/-- A value in a reduction tree: exact, and whether a node has rounded it (R185), with the flags so far. -/
abbrev RedVal := Option (Val × Bool × Nat)

/-- A node of R185. -/
def redNode (op : Nat) (a b : RedVal) : RedVal :=
  match a, b with
  | none, x => x
  | x, none => x
  | some (u, _, f), some (v, _, h) =>
    match op with
    | 0 | 1 =>
      let (i, w) := u.add v
      let (r, fo) := rnTo .fp32 w
      some (r, true, f ||| h ||| fo ||| flagIf i flInvalid)
    | 3 => some (minVal u v, false, f ||| h)
    | _ => some (maxVal u v, false, f ||| h)

/-- The leaf of a lane value (R185). -/
def redLeaf (op : Nat) (v : Val × Nat) : RedVal :=
  match op with
  | 1 => some ((v.1.mul v.1).2, false, v.2)
  | 4 => some (v.1.abs, false, v.2)
  | _ => some (v.1, false, v.2)

/-- The final root as FP32 (R185, R219): rounded once where no node has rounded it, flushed under FTZ. -/
def redRoot (op : Nat) (ftz : Bool) (r : RedVal) : Nat × Nat :=
  match r with
  | none => (if op = 2 ∨ op = 3 then Fm.qnan .fp32 else 0, 0)
  | some (v, _, fl) =>
    let nan := v.isNan
    let (p, f) := encodeT .fp32 ftz .rne v
    (p, fl ||| if nan then 0 else f)

/-- The leaf of lane l of logical tile t. -/
def GCore.redLane (k : GCore) (op v t l : Nat) : RedVal :=
  let r : VReg := Tab.get {} k.v v
  let i := 1024 * t + l
  if i < r.valid then redLeaf op (inputT .fp32 k.ftz (Tab.get 0 r.pat i)) else none

/-- What rules over the nodes of a reduction (R139): a NaN among the lanes, for sums infinities of both signs, then
infinities of one sign. -/
inductive RedRule where
  | none
  | nan
  | clash
  | inf (neg : Bool)
  deriving DecidableEq, Repr

/-- The rule that the valid lanes of some tiles bring about. -/
def GCore.redRule (k : GCore) (op v : Nat) (tiles : List Nat) : RedRule :=
  let r : VReg := Tab.get {} k.v v
  let vals := tiles.flatMap fun t => (List.range (min 1024 (r.valid - 1024 * t))).map fun l =>
    decodeFloat .fp32 (Tab.get 0 r.pat (1024 * t + l))
  let vals := if op = 1 then vals.map fun x => (x.mul x).2 else vals
  let has (n : Bool) := vals.any fun x => x == .inf n
  if vals.any Val.isNan then .nan
  else if op ≠ 0 ∧ op ≠ 1 then .none
  else if has false && has true then .clash
  else if has false then .inf false
  else if has true then .inf true
  else .none

/-- A reduced value under the rule: an earlier row of R139 takes precedence over an overflow within the reduction. -/
def redUnder (q : RedRule) (x : RedVal) : RedVal :=
  x.map fun (v, b, f) => match q with
    | .none => (v, b, f)
    | .nan => (.nan, b, f &&& flFlushed)
    | .clash => (.nan, b, (f &&& flFlushed) ||| flInvalid)
    | .inf n => (.inf n, b, f &&& flFlushed)

/-- Root of one tile: 10 levels over its lanes (R185). -/
def GCore.redTile (k : GCore) (op v t : Nat) : RedVal :=
  let r : VReg := Tab.get {} k.v v
  if r.valid ≤ 1024 * t then none
  else redUnder (k.redRule op v [t]) ((treeFold (redNode op) 10 ((List.range 1024).map (k.redLane op v t))).headD none)

/-- Root across the gathering: 5 levels over the tiles. -/
def GCore.redAll (k : GCore) (op v : Nat) : RedVal :=
  redUnder (k.redRule op v (List.range 32))
    ((treeFold (redNode op) 5 ((List.range 32).map (k.redTile op v))).headD none)

/-- RED at its issue beat (R218, R219, R227). -/
def planRed (d g w : Nat) (s : State) (_ : Nat) : Plan :=
  let x := s.gath d g
  let k := x.core
  let op := rdOp w
  let across := rdAcross w == 1
  let mem := rdDest w == 1
  let r := x.desc (rdHd w)
  let o := k.offset (rdAgd w)
  let fmt := decide (tdFm r ≠ .fp32) || tdBlocked r == 1
  let st := (if mem then s.regionStops d g r o 1 (if across then 1 else 32) ++ (if fmt then [3] else []) else []) ++
    k.cfgStop [3]
  let roots := if across then [redRoot op k.ftz (k.redAll op (rdVs w))]
    else (List.range 32).map fun t => redRoot op k.ftz (k.redTile op (rdVs w) t)
  let lat := if across then 44 else 24
  let out := roots.zipIdx.map fun (p, t) =>
    let (q, fl) := encOne .fp32 k.ftz .rne (s.iscale r) (decodeFloat .fp32 p.1)
    (elemCells r (o.toNat + t) q, p.2 ||| fl)
  { core := k
    next := k.ip + 1
    stops := st
    reads := .vector (rdVs w) :: if mem then k.offReads (rdAgd w) else []
    writes := if mem then [(lat, .mem (out.flatMap (·.1)), false)]
      else [(lat, .scalar (rdSd w) (roots.headD (0, 0)).1, false)]
    flags := if mem then out.foldl (fun a p => a ||| p.2) 0 else roots.foldl (fun a p => a ||| p.2) 0 }

/-- R229: the next RED issues no earlier than 4 beats later. -/
def postRed (d g : Nat) (_ : QCmd) (_ t : Nat) (s : State) : State :=
  let x := s.gath d g
  s.setGath d g { x with opFree := Tab.upd x.opFree 64 (t + 4) }

/-- RED. -/
def execRed (d g : Fin 8) (s : State) : Host.Outcome State Fault Refusal :=
  .next (s.issue d g 0x48 (Tab.get 0 (s.gath d g).opFree 64) (planRed d g) (postRed d g))

end Sys2Proof.Machine
end

