-- ==== Sys2Proof/Machine/Program.lean ====
section
/-! DEFINITION. Gathering programs: validation (R205, R206, R212 to R223, R244, R713), load and start (R190 to R197),
landing, completion (R231, R232) and debug mode (R245 to R249). -/

namespace Sys2Proof.Machine

/-! ## Validation of one instruction -/

/-- Op codes of R213. -/
def vopKnown (op : Nat) : Bool := op ≤ 0x13 || (0x18 ≤ op && op ≤ 0x1D)

/-- Opcodes of R207, with the op code of a VOP. -/
def opcodeKnown (w : Nat) : Bool :=
  let o := ct1Opcode w
  if o = 0x30 then vopKnown (vopOp w)
  else o ≤ 4 || (0x08 ≤ o && o ≤ 0x0D) || o == 0x10 || o == 0x11 || o == 0x20 || o == 0x31 || o == 0x32 || o == 0x40 ||
    o == 0x48

/-- Whether a register number is even. -/
def even (v : Nat) : Bool := v % 2 == 0

/-- VOP fields (R212, R213). -/
def vopFields (w : Nat) : Bool :=
  let op := vopOp w
  let ty := vopType w
  vopClean w && (ty != 3 || op == 0x09) &&
  !((op == 0x10 || op == 0x11 || op == 0x12 || op == 0x13) && (ty == 1 || ty == 2)) &&
  !((op == 0x04 || op == 0x05 || op == 0x0A) && ty == 2) &&
  !((op == 0x08 || op == 0x09) && vopVc w / 4 != 0) &&
  (!vopPairA w || even (vopVa w)) && (!vopPairD w || even (vopVd w)) &&
  (!(vopUsesB w && vopPairB w) || even (vopVb w)) &&
  (!(readsC op && ty == 1) || even (vopVc w))

/-- MODE fields (R220, R221). -/
def modeFields (w : Nat) : Bool :=
  w / 2 ^ 29 == 0 &&
  (if ct1Setcfg w = 1 then (if ct1Config w = 0 then ct1Shape w ≤ 10 else ct1Shape w == 0)
   else ct1Config w == 0 && ct1Shape w == 0) &&
  (ct1Setbuck w == 1 || ct1Buck w == 0) && (ct1Setftz w == 1 || ct1Ftz w == 0)

/-- Fields of SMOVI, SALU, SLD, SST, CTSET and AGSET (R223, R713). -/
def scalarFields (w : Nat) : Bool :=
  let imm := scImm w == 1
  scClean w &&
  match scOpcode w with
  | 0x08 => bits w 13 51 == 0
  | 0x09 => bits w 28 36 == 0 && scFunc w ≤ 10 && (if imm then scSb w == 0 else scImm64 w == 0)
  | 0x0C => scSd w == 0 && scSb w == 0 && scFunc w == 0 && bits w 32 32 == 0 &&
    (if imm then scSa w == 0 else scImm64 w == 0)
  | 0x0D => scSd w == 0 && scSb w == 0 && scFunc w == 0 && scCtd w == 0 && bits w 38 26 == 0 && scAgf w ≤ 4 &&
    (if imm then scSa w == 0 else scImm64 w == 0)
  | _ => bits w 13 25 == 0 && scImm64 w == 0

/-- Whether an instruction's fields are valid (R206). `maint`: tokens of the maintenance bank (R278). A TOKS of the main
job names no host token (R645). -/
def fieldsOk (maint : Bool) (w : Nat) : Bool :=
  match ct1Opcode w with
  | 0x00 => w / 256 == 0
  | 0x01 => w / 256 == 0
  | 0x02 => w / 2 ^ 24 == 0
  | 0x03 => w / 2 ^ 32 == 0
  | 0x04 => modeFields w
  | 0x10 => w / 2 ^ 36 == 0 && (!maint || ct1Token w ≤ 255)
  | 0x11 => w / 2 ^ 40 == 0 && (if maint then ct1Token w ≤ 255 else ct1Token w < 4032)
  | 0x20 => mmaClean w
  | 0x30 => vopFields w
  | 0x31 => vlsClean w && vlsRmode w == 0 && vlsSite w == 0 &&
    (!(vlsLane w == 1 || vlsLane w == 2) || even (vlsVr w))
  | 0x32 => vlsClean w && (!(vlsLane w == 1 || vlsLane w == 2) || even (vlsVr w))
  | 0x40 => xmClean w
  | 0x48 => rdClean w && rdOp w ≤ 4 && !(rdAcross w == 0 && rdDest w == 0)
  | _ => scalarFields w

/-- Handles that an instruction names. A RED names HD with DEST 1 alone, and a field that its DEST does not use is not judged
(DESIGN CHOICE, log 231). -/
def handlesOf (w : Nat) : List Nat :=
  match ct1Opcode w with
  | 0x0A => [scH w]
  | 0x0B => [scH w]
  | 0x20 => [mmaHa w, mmaHb w, mmaHc w]
  | 0x31 => [vlsH w]
  | 0x32 => [vlsH w]
  | 0x40 => [xmHs w, xmHd w]
  | 0x48 => if rdDest w = 1 then [rdHd w] else []
  | _ => []

/-- Handles of a program, without repeats. -/
def progHandles (ws : List Nat) : List Nat := nubNat (ws.flatMap handlesOf)

/-! ## Validation of a program -/

/-- R205: the first LOOP that breaks the rules. `stack` holds the last addresses of the bodies open at `ip`, and
`last` is the address of the program's END: its last instruction (DESIGN CHOICE, log 232). -/
def loopErr (last : Nat) : Nat → List Nat → List Nat → Option Nat
  | _, _, [] => none
  | ip, stack, w :: r =>
    let open' := stack.filter fun e => ip ≤ e
    if ct1Opcode w = 0x02 then
      let b := ct1Body w
      let e := ip + b
      if b = 0 ∨ open'.length ≥ 4 ∨ e ≥ last ∨ open'.any (fun x => x < e) then some ip
      else loopErr last (ip + 1) (e :: open') r
    else loopErr last (ip + 1) open' r

/-- The first instruction at which more than 256 distinct handles are named (R193, R244). -/
def handleLimit : Nat → List Nat → List Nat → Option Nat
  | _, _, [] => none
  | ip, seen, w :: r =>
    let seen := nubNat (seen ++ handlesOf w)
    if seen.length > 256 then some ip else handleLimit (ip + 1) seen r

/-- Address of the first instruction that satisfies a test. -/
def firstAt (p : Nat → Bool) (ws : List Nat) : Option Nat := ws.findIdx? p

/-- R244: the error of a program: which, at which instruction address, and for ENGINE_ABSENT the ENGINE_ID of R261. -/
def State.progErr (s : State) (maint : Bool) (ws : List Nat) : Option (Err × Nat × Nat) :=
  let n := ws.length
  match firstAt (fun w => !opcodeKnown w) ws with
  | some i => some (.illegalOpcode, i, 0xFF)
  | none =>
  match firstAt (fun w => !fieldsOk maint w) ws with
  | some i => some (.fieldInvalid, i, 0xFF)
  | none =>
  match loopErr (n - 1) 0 [] ws with
  | some i => some (.loopNest, i, 0xFF)
  | none =>
  if ct1Opcode (ws.getLastD 0) ≠ 1 then some (.noEnd, n - 1, 0xFF)
  else
  match firstAt (fun w => (handlesOf w).any fun h => (s.descOf h).isNone) ws with
  | some i => some (.badHandle, i, 0xFF)
  | none =>
  match handleLimit 0 [] ws with
  | some i => some (.handleLimit, i, 0xFF)
  | none =>
  match ws.zipIdx.find? fun p => ct1Opcode p.1 == 0x11 && (ct1Die p.1 ≥ 8 || s.absent (ct1Die p.1)) with
  | some (w, i) => some (.engineAbsent, i, ct1Die w * 16 + 15)
  | none => none

/-! ## Load and start -/

/-- The words of the program a RUN names, as memory holds them (R191, R192). -/
def State.progWords (s : State) (w : Nat) : List Nat :=
  (List.range (cbLength w)).map fun i => s.rd (cbProg w + 16 * i) 16

/-- Descriptors of a program as the table holds them (R193). -/
def State.progDescs (s : State) (ws : List Nat) : Tab Desc :=
  (progHandles ws).foldl (fun t h => Tab.upd t h ⟨s.desc h⟩) []

/-- The first uncorrectable granule that a load reads: program, then descriptors. -/
def State.loadPoison (s : State) (w : Nat) (ws : List Nat) : Option Nat :=
  match s.firstPoison (cbProg w) (16 * cbLength w) with
  | some n => some n
  | none => (progHandles ws).findSome? fun h => s.firstPoison (s.job.descTable + 64 * h) 64

/-- The corrections of a load counted (R302). -/
def State.loadCounted (s : State) (w : Nat) (ws : List Nat) : State :=
  if s.clean then s
  else (progHandles ws).foldl (fun s h => s.counted (s.job.descTable + 64 * h) 64) (s.counted (cbProg w) (16 * cbLength w))

/-- What a load on die d reads, in class C0 (R326): the program's granules and its descriptors. -/
def State.loadRead (s : State) (d w : Nat) (ws : List Nat) : State :=
  (s.loadCounted w ws).c0Read d (cdiv (16 * cbLength w) 64 + (progHandles ws).length)

/-- A program starts: its step number by R123, state of R197, debug mode by R246, cruise settings by R501, and the first checkpoint (R233). Without FEATURES bit 9 nothing is sampled (R542). -/
def State.startProgram (s : State) (d g : Nat) (c : QCmd) (ws : List Nat) (ds : Tab Desc) : State :=
  let i := gi d g
  let x := s.gath d g
  let core : GCore := { x.core with
    ip := 0
    s := []
    ct := []
    ag := []
    loops := [] }
  let s := s.setGath d g { x with
    core := core
    prog := ws
    cmd := some c
    nextProg := none
    nextDescs := []
    descs := ds
    beat := 0
    order := 0
    pend := []
    toks := []
    opFree := []
    drainEnd := 0
    wrote := false
    badWrite := none
    ended := false
    tokGranted := false
    haltWanted := false
    stepOnce := false
    passBreak := false
    halted := false
    ckpt := none
    older := []
    replayTo := 0
    dropDue := false
    replays := []
    stepK := s.stepNo c
    crzProb := if bit (s.fld .irlLevel_features 0) 9 then s.fld .crzCfg_prob d else 0
    crzThr := s.fld .crzCfg_threshold d }
  let s := ((s.setFld .gthSeqstat_ip i 0).setFlag .gthSeqstat_running i true).setFlag .gthSeqstat_waiting i false
  ((s.setFlag .gthCfg_debug i (s.flag .gthDbgctl_enable i)).refreshDescs d g).passBoundary d g

/-- Whether a loaded next program is the one of command `c`. -/
def sameCmd (a b : QCmd) : Bool :=
  a.word == b.word && a.listId == b.listId && a.step == b.step && a.index == b.index && a.maint == b.maint

/-- RUN (R192 to R197, R251): the command at the head starts when the sequencer is free. A program changed since its
validation so that it would fail it ends its command with that error (DEDUCED, log 55). So does an uncorrectable word
of the list store or the program store (R550). -/
def doRun (d g : Nat) (f : Finding) (s : State) : State :=
  let s := s.struck f
  let x := s.gath d g
  match x.cmd, s.startable d g 1 with
  | none, some c =>
    if f = .buffer then ((s.popQueue d g).errCmd c .bufferUncorrectable 0 0 0).enrol
    else
    let ready := match x.nextProg with
      | some (c', ws) => if sameCmd c' c then some ws else none
      | none => none
    let ws := ready.getD (s.progWords c.word)
    match s.loadPoison c.word ws with
    | some n => ((s.popQueue d g).memFail c (64 * n)).enrol
    | none =>
      match s.progErr c.maint ws with
      | some (e, ip, _) => ((s.popQueue d g).errCmd c e ip 0 ip).enrol
      | none =>
        let ds := if ready.isSome then x.nextDescs else s.progDescs ws
        let s := if ready.isSome then s else s.loadRead d c.word ws
        ((s.popQueue d g).startProgram d g c ws ds).enrol
  | _, _ => s

/-- RUN. -/
def execRun (d g : Fin 8) (f : Finding) (s : State) : Host.Outcome State Fault Refusal := .next (doRun d g f s)

/-- PROGRAM_LOAD (R195): while a program runs, the next one queued is loaded if both fit in the buffer of 4,096
instructions. -/
def doProgramLoad (d g : Nat) (s : State) : State :=
  let x := s.gath d g
  match x.cmd, s.queue d g with
  | some _, c :: _ =>
    if cmKind c.word = 1 ∧ x.prog.length + cbLength c.word ≤ 4096 then
      let ws := s.progWords c.word
      if (s.loadPoison c.word ws).isSome || (s.progErr c.maint ws).isSome then s
      else (s.loadRead d c.word ws).setGath d g { x with
        nextProg := some (c, ws)
        nextDescs := s.progDescs ws }
    else s
  | _, _ => s

/-- PROGRAM_LOAD. -/
def execProgramLoad (d g : Fin 8) (s : State) : Host.Outcome State Fault Refusal := .next (doProgramLoad d g s)

/-! ## Landing and completion -/

/-- Whether the sequencer is not issuing (R230, R232). -/
def State.resting (s : State) (d g : Nat) : Bool :=
  let x := s.gath d g
  x.ended || x.halted || s.flag .gthSeqstat_waiting (gi d g) || s.haltDue d g

/-- The first write in landing order. -/
def Gath.firstPend (x : Gath) : Option Pend := (x.pend.foldl (fun l p => pendInsert p l) []).head?

/-- The first pending write lands if its beat has come: at or before the beat of the next issue, or while the sequencer
does not issue, when the gathering keeps beating (R230). `drain` says which kind is asked for. -/
def doLand (d g : Nat) (drain : Bool) (s : State) : State :=
  let x := s.gath d g
  match x.firstPend with
  | some p =>
    if p.drain = drain ∧ (p.beat ≤ x.beat ∨ s.resting d g) then
      let s := s.setGath d g { x with
        pend := x.pend.erase p
        beat := max x.beat p.beat }
      s.landOne d g p.wr
    else s
  | none => s

/-- WRITE_LAND (R235 to R237). -/
def execWriteLand (d g : Fin 8) (s : State) : Host.Outcome State Fault Refusal := .next (doLand d g false s)

/-- DRAIN_COMPLETE (R159 to R161). -/
def execDrainComplete (d g : Fin 8) (s : State) : Host.Outcome State Fault Refusal := .next (doLand d g true s)

/-- PROGRAM_COMPLETE (R232, R253): END has issued and everything issued before it completes; the RUN command ends. It has
written on its own die, if it wrote scratch (R36, R274). -/
def doProgramComplete (d g : Nat) (s : State) : State :=
  let x := s.gath d g
  match x.cmd with
  | some c =>
    if x.ended then
      let s := s.landAll d g
      match (s.gath d g).badWrite with
      | some l => s.progMemFail d g c (64 * l)
      | none =>
        let offs := if (s.gath d g).wrote then [d] else []
        let s := (s.sendToks d g).passBoundary d g
        ((s.endProgram d g).completeCmd c offs).enrol
    else s
  | none => s

/-- PROGRAM_COMPLETE. -/
def execProgramComplete (d g : Fin 8) (s : State) : Host.Outcome State Fault Refusal := .next (doProgramComplete d g s)

/-! ## Debug mode -/

/-- DEBUG_HALT (R247): issue stops at a boundary; issued work completes, and HALTED reads 1. -/
def doDebugHalt (d g : Nat) (s : State) : State :=
  let x := s.gath d g
  match x.cmd with
  | some _ =>
    if !x.ended && !x.halted && s.haltDue d g then
      let s := s.landAll d g
      let s := s.setGath d g { s.gath d g with
        halted := true
        haltWanted := false }
      (s.setFlag .gthSeqstat_halted (gi d g) true).raise .debugHalt d 0xFF 0 x.core.ip 0
    else s
  | none => s

/-- DEBUG_HALT. -/
def execDebugHalt (d g : Fin 8) (s : State) : Host.Outcome State Fault Refusal := .next (doDebugHalt d g s)

/-- A halted sequencer goes on; `step` halts it again after one instruction. -/
def State.unhalt (s : State) (d g : Nat) (step : Bool) : State :=
  let x := s.gath d g
  if x.halted then
    (s.setGath d g { x with
      halted := false
      passBreak := true
      stepOnce := step }).setFlag .gthSeqstat_halted (gi d g) false
  else s

/-- R245: CLEAR_LOG. -/
def State.clearStalls (s : State) (i : Nat) : State :=
  (List.range 16).foldl (fun s k =>
    let j := 16 * i + k
    (((s.resetFld .gthStalllog_ip j).resetFld .gthStalllog_res j).resetFld .gthStalllog_valid j).resetFld
      .gthStalllog_beats j) (s.resetFld .gthStallcnt_stalls i)

/-- A write of GTH.DBGCTL (R245). HALT_REQ counts in debug mode while a program runs (R230, R240; log 56).
ENABLE takes no write without FEATURES bit 12 (R542), and a fused die's gathering is not there (R3). Of RESUME and STEP
together RESUME acts (DESIGN CHOICE, log 243). HALT_REQ of a halted sequencer that this write lets go on halts it after one
instruction, at the next boundary, as STEP does. -/
def doDbgctl (d g v : Nat) (s : State) : State :=
  if !s.ready || s.absent d then s
  else
    let i := gi d g
    let en := if bit (s.fld .irlLevel_features 0) 12 then bit v 0 else s.flag .gthDbgctl_enable i
    let s := ((s.setFlag .gthDbgctl_enable i en).setFlag .gthDbgctl_breakEn i (bit v 4)).setFld
      .gthDbgctl_breakIp i (bits v 16 12)
    let s := if bit v 5 then s.clearStalls i else s
    let was := (s.gath d g).halted
    let s := if bit v 3 then s.unhalt d g (bit v 1) else if bit v 2 then s.unhalt d g true else s
    let x := s.gath d g
    if bit v 1 && x.cmd.isSome && s.flag .gthCfg_debug i && !was && !x.stepOnce then s.setGath d g { x with haltWanted := true } else s

/-- HALT_REQ. -/
def execHaltReq (d g : Fin 8) (value : Nat) (s : State) : Host.Outcome State Fault Refusal :=
  .next (doDbgctl d g (value ||| 2) s)
/-- DEBUG_STEP. -/
def execDebugStep (d g : Fin 8) (value : Nat) (s : State) : Host.Outcome State Fault Refusal :=
  .next (doDbgctl d g (value ||| 4) s)
/-- RESUME. -/
def execResume (d g : Fin 8) (value : Nat) (s : State) : Host.Outcome State Fault Refusal :=
  .next (doDbgctl d g (value ||| 8) s)
/-- CLEAR_LOG. -/
def execClearLog (d g : Fin 8) (value : Nat) (s : State) : Host.Outcome State Fault Refusal :=
  .next (doDbgctl d g (value ||| 32) s)

/-- A value of a gathering's cells (R149, R150, R189): `reg` 0 and 1 the run and landing register of an accumulator entry, 2
and 3 of a shadow entry, 4 and 5 element `elem` of the two stationary sets. What a change of configuration has dropped and
nothing has written since is a free value (R143, log 57). Values stand by the output position that they had when they were
written, also after a MODE that changes SHAPE alone (DESIGN CHOICE, log 242). -/
def State.cellState (s : State) (k : GCore) (face row col q reg elem : Nat) : Nat :=
  let a := accKey face row col q
  let e := (col * 32 + q) * 8 + elem
  let free (w : Nat) : Nat := Config.free (s.fresh + ((8 * a + reg) * 8 + elem)) % 2 ^ w
  match reg with
  | 0 => if k.accGone && !k.acc.any (·.1 == a) then free 32 else (Tab.get {} k.acc a).run
  | 1 => if k.accGone && !k.acc.any (·.1 == a) then free 64 else (Tab.get {} k.acc a).landing
  | 2 => (Tab.get {} k.shadow a).run
  | 3 => (Tab.get {} k.shadow a).landing
  | 4 => if k.statGone && !k.stat0.any (·.1 == e) then free 64 else Tab.get 0 k.stat0 e
  | _ => if k.statGone && !k.stat1.any (·.1 == e) then free 64 else Tab.get 0 k.stat1 e

/-- Cell state that GTH.DBGSEL selects (R189). -/
def State.dbgData (s : State) (d g : Nat) : Nat :=
  let i := gi d g
  let x := s.gath d g
  let k := x.core
  let row := s.fld .gthDbgsel_row i
  let col := s.fld .gthDbgsel_col i
  let face := s.fld .gthDbgsel_face i
  let reg := s.fld .gthDbgsel_reg i
  let elem := s.fld .gthDbgsel_elem i
  let (fm, fn, sp) := shapeFace k.shape
  let q := if sp = 1 then 0 else s.fld .gthDbgsel_slice i
  if !x.halted || row ≥ fm || col ≥ fn || q ≥ sp || reg ≥ 6 || (reg ≥ 4 && elem ≥ max 1 k.elems) then 0
  else s.cellState k face row col q reg elem

/-- DEBUG_STATE_READ: a read of GTH.DBGDATA. -/
def doDebugRead (d g : Nat) (s : State) : State :=
  if !s.ready then s
  else { s with hif := { s.hif with resp := .data (s.dbgData d g) }, fresh := s.fresh + 2 ^ 36 }

/-- DEBUG_STATE_READ. -/
def execDebugStateRead (d g : Fin 8) (s : State) : Host.Outcome State Fault Refusal := .next (doDebugRead d g s)

end Sys2Proof.Machine
end

