-- ==== Sys2Proof/Machine/CollDesc.lean ====
section
/-! DEFINITION. Collective descriptors and update programs as validation judges them (R420 to R425, R428, R467 to R481,
R484, R494): members, chunks, the device's result, and the checks. -/

namespace Sys2Proof.Machine

/-! ## Members and chunks -/

/-- Blocks of the chunk at ring position `j` of `e` of a range of `nb` blocks. -/
def chunk (nb e j : Nat) : Nat × Nat := (j * nb / e, (j + 1) * nb / e)

/-- R421: the types that reduce. -/
def cdReduces (cd : Nat) : Bool := cdType cd ≤ 1

/-- Elements of the tensor that the chunks divide: DST of an ALL_GATHER, else SRC (R423). -/
def State.cdElems (s : State) (cd : Nat) : Nat := tdCount (s.desc (if cdType cd = 2 then cdDst cd else cdSrc cd))

/-- R428: the pieces of blocks that ring position `j` of `e` owns on an axis, in slot order. -/
def ownedPieces (axis nb e j : Nat) : List (Nat × Nat) :=
  if axis = 1 ∨ axis = 2 then
    let h := cdiv nb 2
    let a := chunk h e j
    let b := chunk (nb - h) e j
    [a, (h + b.1, h + b.2)]
  else [chunk nb e j]

/-- R479: the block pieces of the device's result. -/
def State.resultPieces (s : State) (cd : Nat) : List (Nat × Nat) :=
  let nb := cdiv (s.cdElems cd) 32
  if cdType cd = 0 then [(0, nb)]
  else
    let eff := s.effective cd
    match eff.idxOf? (s.ownOn (cdAxis cd)) with
    | some j => ownedPieces (cdAxis cd) nb eff.length j
    | none => []

/-- Elements of pieces of blocks of a tensor of `n` elements. -/
def pieceElems (n : Nat) (l : List (Nat × Nat)) : Nat := (l.map fun p => min n (32 * p.2) - 32 * p.1).sum

/-- R446: rows of one part of a tensor: its outermost extent over the effective members. -/
def partRows (r e : Nat) : Nat := tdExt r (tdRank r) / e

/-! ## Descriptor checks -/

/-- FIELD_INVALID of R423. -/
def cdFieldsOk (cd : Nat) (bound : Bool) : Bool :=
  let t := cdType cd
  cdClean cd && t ≤ 5 && cdAxis cd ≤ 4 &&
  (cdRoot cd == 0 || t == 3) && (cdA2aCnt cd == 0 || t == 4) &&
  (!bound || (cdGrad cd == 1 && t ≤ 1)) &&
  (if t = 5 then cdKq cd == 0
   else
    (if t ≤ 1 then 1 ≤ cdMode cd && cdMode cd ≤ 5 else cdMode cd == 0) &&
    (cdGrad cd == 0 || t ≤ 1) && (cdDstEn cd == 1 || bound) &&
    (if cdMode cd = 4 then inRange 1 16 (cdKq cd) else cdKq cd == 0))

/-- A handle that a collective, or an update program (`upd`), of die d may name: valid, and in the places that R36 gives
its engine: the die's own stack, the tier, and for a collective the die's own scratch (the error is DEDUCED, log 63). -/
def State.nearHandle (s : State) (d : Nat) (upd : Bool) (h : Nat) : Bool :=
  match s.descOf h with
  | some r => !s.tdRemote r && (match s.home r with
    | .stack k => k == d
    | .tier => true
    | .scratch k _ => !upd && k == d
    | _ => false)
  | none => false

/-- Whether a handle names a valid state tensor. Where it lies is judged apart, with STATE_PLACEMENT (R37, R260, R481). -/
def State.stateHandle (s : State) (h : Nat) : Bool := (s.descOf h).any fun r => tdState r == 1

/-- Handles that a descriptor names. -/
def cdHandles (cd : Nat) : List Nat :=
  if cdType cd = 5 then []
  else [cdSrc cd] ++ (if cdDstEn cd = 1 then [cdDst cd] else []) ++ (if cdResidEn cd = 1 then [cdResid cd] else []) ++
    (if cdType cd = 4 then [cdA2aCnt cd] else [])

/-- An unblocked I32 tensor. -/
def isI32 (r : Nat) : Bool := decide (tdFm r = .i32) && tdBlocked r == 0

/-- FORMAT_MISMATCH of R423 and R446. -/
def State.cdFormatsOk (s : State) (cd : Nat) : Bool :=
  let t := cdType cd
  let src := s.desc (cdSrc cd)
  let dst := s.desc (cdDst cd)
  let en := cdDstEn cd == 1
  let e := max 1 (s.effective cd).length
  if t = 5 then true
  else
    (!cdReduces cd || (!(tdFm src).isInt && !(en && (tdFm dst).isInt))) &&
    (!(t == 0 || t == 3) || !en || tdCount src == tdCount dst) &&
    (cdReduces cd || !en || (tdFormat src == tdFormat dst && tdBlocked src == tdBlocked dst)) &&
    (t != 4 || (tdExt src (tdRank src) % e == 0 && tdExt dst (tdRank dst) % e == 0 &&
      isI32 (s.desc (cdA2aCnt cd)) &&
      tdCount (s.desc (cdA2aCnt cd)) == 2 * e))

/-- STATE_PLACEMENT of R434. -/
def State.residOk (s : State) (d cd : Nat) : Bool :=
  let r := s.desc (cdResid cd)
  cdType cd == 5 || cdResidEn cd == 0 ||
    (decide (tdFm r = .fp32) && tdBlocked r == 0 && tdCount r == tdCount (s.desc (cdSrc cd)) && tdState r == 1 &&
      s.homeOk d r)

/-- RESID of a descriptor: a valid one of the wrong kind or in the wrong place is STATE_PLACEMENT (R434). -/
def isResid (cd h : Nat) : Bool := cdResidEn cd == 1 && cdResid cd == h

/-- COLL_MEMBERS of R424. -/
def State.membersOk (s : State) (cd : Nat) : Bool :=
  cdMembers cd < 2 ^ s.extent (cdAxis cd) && bit (cdMembers cd) (s.ownOn (cdAxis cd)) &&
    (cdType cd != 3 || bit (cdMembers cd) (cdRoot cd))

/-- CONTEXT_INVALID of R425 against the context entries of the manifest. -/
def State.contextsOk (s : State) (ctxs : List Nat) (cd : Nat) : Bool :=
  let a := cdAxis cd
  cdCtxBase cd + s.extent a - 1 ≤ 4094 &&
    (List.range 32).all fun c => !bit (cdMembers cd) c || c == s.ownOn a ||
      ctxs.any fun e => ceContext e == cdCtxBase cd + c && cePeer e == setCoordOn s.coord a c

/-- R423 to R425 and R434 on a descriptor of a COLLECTIVE of die d, in the order in which the chapter gives them
(DEDUCED, log 64). R423 puts no check on the RECORD of a BARRIER; one that lies nowhere is not written (log 157). -/
def State.collErr (s : State) (d : Nat) (ctxs : List Nat) (cd : Nat) (bound : Bool) : Err :=
  if !cdFieldsOk cd bound then .fieldInvalid
  else if cdType cd ≠ 5 ∧ (cdRecord cd % 64 ≠ 0 ∨ !s.dram (cdRecord cd) 64) then .addressInvalid
  else if (cdHandles cd).any fun h => !s.nearHandle d false h && !(isResid cd h && (s.descOf h).isSome) then .badHandle
  else if !s.cdFormatsOk cd then .formatMismatch
  else if !s.residOk d cd then .statePlacement
  else if !s.membersOk cd then .collMembers
  else if !s.contextsOk ctxs cd then .contextInvalid
  else .ok

/-! ## Update programs -/

/-- The program at an address (R467): header, slot record, auxiliary record, operations, learning-rate table. -/
def State.readUprog (s : State) (d a : Nat) : UProg :=
  let h := s.rd a 64
  { die := d
    addr := a
    recs := (List.range (3 + cdiv (uhNops h) 8)).map fun i => s.rd (a + 64 * i) 64
    lr := (List.range (uhLrn h)).map fun i => (s.rd (uhLrtab h + 8 * i) 4, s.rd (uhLrtab h + 8 * i + 4) 4) }

/-- Header. -/
def UProg.hdr (p : UProg) : Nat := p.record 0

/-- Auxiliary record. -/
def UProg.aux (p : UProg) : Nat := p.record 2

/-- Slots in use: LOAD or STORE is set. -/
def UProg.used (p : UProg) : List Nat := (List.range 8).filter fun k => usLoad (p.slot k) == 1 || usStore (p.slot k) == 1

/-- Operation i (R471). -/
def UProg.op (p : UProg) (i : Nat) : Nat := bits (p.record (3 + i / 8)) (64 * (i % 8)) 64

/-- The operations in order. -/
def UProg.ops (p : UProg) : List Nat := (List.range (uhNops p.hdr)).map p.op

/-- Bytes that a program and its table take in the program store (R467). -/
def UProg.size (p : UProg) : Nat := 64 * p.recs.length + 8 * p.lr.length

/-- Ones in `w` bits from bit `lo`. -/
def ones (lo w : Nat) : Nat := (2 ^ w - 1) * 2 ^ lo

/-- Bits of DST, SA, SB, SC and the rounding pair RMODE and SITE. -/
def mDst : Nat := ones 5 4
/-- SA. -/
def mSa : Nat := ones 9 5
/-- SB. -/
def mSb : Nat := ones 14 5
/-- SC. -/
def mSc : Nat := ones 19 5
/-- RMODE and SITE. -/
def mRnd : Nat := ones 24 2 + ones 41 16
/-- SLOT. -/
def mSlot : Nat := ones 26 3

/-- The bits that an operation uses besides OP (R471, R472, R477); none for an unknown code. -/
def uopMask : Nat → Option Nat
  | 0x01 => some (mDst + mSlot)
  | 0x02 => some (mSa + mSlot + mRnd)
  | 0x03 => some (mDst + mSa + mSb + mRnd)
  | 0x04 => some (mDst + mSa + mSb + mRnd)
  | 0x05 => some (mDst + mSa + mSb + mSc + mRnd)
  | 0x06 => some (mDst + mSa)
  | 0x07 => some (mDst + mSa)
  | 0x08 => some (mDst + mSa + mSb)
  | 0x09 => some (mDst + mSa + mSb)
  | 0x0A => some (mDst + mSa + mSb + mSc)
  | 0x0B => some (mDst + mSa + mSb + mSc)
  | 0x0C => some (mDst + mSa)
  | 0x0D => some (mDst + mSa)
  | 0x0E => some (mDst + mSa)
  | 0x0F => some (mDst + mSa + mRnd + ones 33 8)
  | 0x10 => some (mDst + mSa + mRnd + ones 29 4)
  | _ => none

/-- Whether an operation's code is known and its unused fields are 0. -/
def uopOk (w : Nat) : Bool :=
  match uopMask (uoOp w) with
  | none => false
  | some m => w &&& (m + 31) == w && (uoOp w != 0x10 || inRange 1 7 (uoFmt w))

/-- Fields of the auxiliary record that PRESS and ROWS enable (R470). -/
def auxOk (h x : Nat) : Bool :=
  uaClean x && (uhPress h == 1 || bits x 0 200 == 0) && (uhRows h == 1 || bits x 200 101 == 0) &&
    (uhRows h == 0 || inRange 1 1048576 (uaLogcap x))

/-- The first group of R481: the program's own records. -/
def UProg.recordsOk (p : UProg) (cd : Nat) : Bool :=
  let h := p.hdr
  let ls (o : Nat) := (p.ops.filter fun w => uoOp w == o).map uoSlot
  uhKind h == 0xE1 && inRange 1 32 (uhNops h) && uhClean h && 1 ≤ uhLrn h &&
  !(uhPress h == 1 && uhRows h == 1) && ((uhPress h == 0 && uhRows h == 0) || cdType cd == 0) &&
  (List.range 8).all (fun k => usClean (p.slot k) && (usHandle (p.slot k) == 0 || p.used.contains k)) &&
  (nub (p.used.map fun k => usHandle (p.slot k))).length == p.used.length &&
  auxOk h p.aux &&
  (List.range (8 * (p.recs.length - 3))).all (fun i => if i < uhNops h then uopOk (p.op i) else p.op i == 0) &&
  (nub (ls 1)).length == (ls 1).length && (nub (ls 2)).length == (ls 2).length &&
  (ls 1).all (fun k => usLoad (p.slot k) == 1) && (ls 2).all fun k => usStore (p.slot k) == 1

/-- Press tensors: left statistics and roots, new left roots; the same on the right. -/
def pressLeft (x : Nat) : List Nat := [uaLstat x, uaLroot x, uaLnew x]
/-- Right ones. -/
def pressRight (x : Nat) : List Nat := [uaRstat x, uaRroot x, uaRnew x]

/-- Every handle a program names. -/
def UProg.handles (p : UProg) : List Nat :=
  (p.used.map fun k => usHandle (p.slot k)) ++
    (if uhPress p.hdr = 1 then pressLeft p.aux ++ pressRight p.aux else []) ++
    if uhRows p.hdr = 1 then [uaRowidx p.aux, uaRowhdr p.aux] else []

/-- The third group of R481: STATE, SCALE_MODE and EXT0 of the slots and of SRC. -/
def State.slotsOk (s : State) (p : UProg) (cd : Nat) : Bool :=
  p.used.all (fun k =>
    let r := s.desc (usHandle (p.slot k))
    tdState r == usStore (p.slot k) &&
      !((decide (tdFm r = .fp32) || decide (tdFm r = .x48)) && tdScaleMode r != 0) && tdExt r 0 % 32 == 0) &&
    tdExt (s.desc (cdSrc cd)) 0 % 32 == 0

/-- Whether `n` bytes from `a` lie in the stack of die d. -/
def State.ownStack (s : State) (d a n : Nat) : Bool :=
  s.oneDram a n && (match s.region a with
    | .stack k => k == d
    | _ => false)

/-- Whether `n` bytes from `a` lie in the stack of die d or in the tier. -/
def State.ownDram (s : State) (d a n : Nat) : Bool :=
  s.oneDram a n && (match s.region a with
    | .stack k => k == d
    | .tier => true
    | _ => false)

/-- ADDRESS_INVALID of R481. -/
def State.uprogAddrs (s : State) (d : Nat) (p : UProg) (cd : Nat) : Bool :=
  let x := p.aux
  let src := s.desc (cdSrc cd)
  (uhPress p.hdr == 0 ||
    (uaPwork x % 64 == 0 && s.ownStack d (uaPwork x) (16384 * (tdExt src 3 + tdExt src 2)))) &&
  (uhRows p.hdr == 0 || (uaRowlog x % 64 == 0 && s.ownDram d (uaRowlog x) (4 * uaLogcap x))) &&
  uhLrtab p.hdr % 64 == 0 && s.dram (uhLrtab p.hdr) (8 * uhLrn p.hdr)

/-- Strictly rising numbers. -/
def strictlyUp : List Nat → Bool
  | a :: b :: r => a < b && strictlyUp (b :: r)
  | _ => true

/-- An unblocked FP32 tensor of 32 × 32 × n with the given STATE (R484). -/
def rootShape (r n st : Nat) : Bool :=
  decide (tdFm r = .fp32) && tdBlocked r == 0 && tdExt r 0 == 32 && tdExt r 1 == 32 && tdExt r 2 == n &&
    tdExt r 3 == 1 && tdState r == st

/-- Block-tiled layout of R484. -/
def tiled (r : Nat) : Bool := tdRank r == 3 && tdExt r 0 == 32 && tdExt r 1 == 32

/-- Shape rules of R484. -/
def State.pressOk (s : State) (p : UProg) (cd : Nat) : Bool :=
  let x := p.aux
  let src := s.desc (cdSrc cd)
  tiled src && p.used.all (fun k => tiled (s.desc (usHandle (p.slot k)))) &&
    rootShape (s.desc (uaLstat x)) (tdExt src 3) 1 && rootShape (s.desc (uaLroot x)) (tdExt src 3) 1 &&
    rootShape (s.desc (uaLnew x)) (tdExt src 3) 0 && rootShape (s.desc (uaRstat x)) (tdExt src 2) 1 &&
    rootShape (s.desc (uaRroot x)) (tdExt src 2) 1 && rootShape (s.desc (uaRnew x)) (tdExt src 2) 0

/-- Shape rules of R494. -/
def State.rowsOk (s : State) (p : UProg) (cd : Nat) : Bool :=
  let src := s.desc (cdSrc cd)
  let ix := s.desc (uaRowidx p.aux)
  let hd := s.desc (uaRowhdr p.aux)
  let w := tdExt src 0
  let rows := tdExt hd 1
  tdExt src 2 == 1 && tdExt src 3 == 1 && tdExt src 1 == tdCount ix &&
    p.used.all (fun k =>
      let r := s.desc (usHandle (p.slot k))
      tdRank r == 1 && tdExt r 0 == w && tdExt r 1 == rows) &&
    isI32 ix && tdState ix == 0 && isI32 hd && tdState hd == 1 && tdExt hd 0 == 2 && tdExt hd 2 == 1 && tdExt hd 3 == 1

/-- UPDATE_EXTENT of R481 on the dense slots: judged again when the collective starts. -/
def State.extentOk (s : State) (p : UProg) (cd : Nat) : Bool :=
  uhRows p.hdr == 1 ||
    (let n := pieceElems (s.cdElems cd) (s.resultPieces cd)
     p.used.all fun k => tdCount (s.desc (usHandle (p.slot k))) == n)

/-- R481 on the program of a COLLECTIVE of die d, in its order; a valid tensor that the engine does not reach is judged after
the STATE of the slots (DEDUCED, log 63). -/
def State.uprogErr (s : State) (d : Nat) (p : UProg) (cd : Nat) : Err :=
  if !p.recordsOk cd then .uprogInvalid
  else if p.handles.any fun h => (s.descOf h).isNone then .badHandle
  else if !s.slotsOk p cd then .uprogInvalid
  else if p.handles.any fun h => !s.stateHandle h && !s.nearHandle d true h then .badHandle
  else if p.handles.any fun h => tdState (s.desc h) == 1 && !s.homeOk d (s.desc h) then .statePlacement
  else if !s.uprogAddrs d p cd then .addressInvalid
  else if !strictlyUp (p.lr.map (·.1)) then .uprogInvalid
  else if !s.extentOk p cd || (uhPress p.hdr == 1 && !s.pressOk p cd) || (uhRows p.hdr == 1 && !s.rowsOk p cd) then
    .updateExtent
  else .ok

end Sys2Proof.Machine
end

