-- ==== Sys2Proof/Machine/Wire.lean ====
section
/-! DEFINITION. Values on the wire of a collective (R422, R430, R432, R433, R439): the wire formats, the additions of
R430, and the compressed modes. A payload is one number: the 64 bytes, SCALE0 above them, SCALE1 above that. -/

namespace Sys2Proof.Machine

/-! ## Dense modes -/

/-- Wire format of a reducing mode; the compressed modes gather in W16 (R422, R432, R433). -/
def wireFm : Nat → Fm
  | 1 => .fp32
  | 2 => .fp16
  | _ => .f16w

/-- Elements of one bolt in a reducing mode (R422). -/
def wireElems (mode : Nat) : Nat := if mode = 1 then 16 else 32

/-- Fields of `w` bits side by side. -/
def packFields (w : Nat) (l : List Nat) : Nat := l.zipIdx.foldl (fun a p => a + p.1 % 2 ^ w * 2 ^ (w * p.2)) 0

/-- wire(v) of R430: payload and flags. -/
def wireEnc (mode : Nat) (rm : Nat → Rm) (vs : List Val) : Nat × Nat :=
  if mode = 1 then
    let out := vs.zipIdx.map fun (v, i) => encodeT .fp32 false (rm i) v
    (packFields 32 (out.map (·.1)), out.foldl (fun a p => a ||| p.2) 0)
  else
    let f := wireFm mode
    if vs.any fun v => !v.isFin then (255 * 2 ^ 512, flNanBlock)
    else
      let e8 := chooseE8 f vs
      let out := vs.zipIdx.map fun (v, i) => encodeBlkElem f false (rm i) e8 v
      (packFields 16 (out.map (·.1)) + e8 * 2 ^ 512, out.foldl (fun a p => a ||| p.2) 0)

/-- The `n` values of a payload. -/
def wireDec (mode n p : Nat) : List Val :=
  (List.range n).map fun i =>
    if mode = 1 then (decodeFloat .fp32 (bits p (32 * i) 32)).noNegZero
    else (decodeBlk (wireFm mode) (bits p 512 8) (bits p (16 * i) 16)).noNegZero

/-- rn32(a + b), with flags. -/
def add32 (a b : Val) : Val × Nat :=
  let (i, v) := a.add b
  let (w, f) := rnTo .fp32 v
  (w, f ||| flagIf i flInvalid)

/-- Element by element rn32 sums, with flags. -/
def addVals (xs ys : List Val) : List Val × Nat :=
  let out := (xs.zip ys).map fun p => add32 p.1 p.2
  (out.map (·.1), out.foldl (fun a p => a ||| p.2) 0)

/-- add(p, x) of R430. -/
def wireAdd (mode : Nat) (rm : Nat → Rm) (p : Nat) (xs : List Val) : Nat × Nat :=
  let (v, f1) := addVals (wireDec mode xs.length p) xs
  let (q, f2) := wireEnc mode rm v
  (q, f1 ||| f2)

/-- The sum of contributions in the order given: v = x[m0]; v = rn32(v + x[m]) (R430). -/
def sumVals : List (List Val) → List Val × Nat
  | [] => ([], 0)
  | x :: xs => xs.foldl (fun (v, fl) y => let (w, f) := addVals v y; (w, fl ||| f)) (x, 0)

/-- Whether some value is an infinity or a NaN (R437). -/
def nonfinite (vs : List Val) : Bool := vs.any fun v => !v.isFin

/-- rn64(a + v²) on an FP64 pattern (R439). -/
def addSquare (a : Nat) (v : Val) : Nat :=
  (encodeT .fp64 false .rne ((decodeFloat .fp64 a).add (v.mul v).2).2).1

/-! ## Quotients -/

/-- v / n for a count n > 0. A quotient that is not dyadic keeps 200 bits more than `v` and one bit that stands for the
rest: every rounding of R117 of it is that of the exact quotient. -/
def quotVal (v : Val) (n : Nat) : Val :=
  match v with
  | .fin neg m e =>
    let x := m <<< 200
    let q := x / n
    if x % n = 0 then .fin neg q (e - 200) else .fin neg (2 * q + 1) (e - 201)
  | v => v

/-! ## TOPK -/

/-- Whether |a| counts as larger than |b|; a NaN is larger than any number (R432). -/
def largerMag (a b : Val) : Bool := (a.isNan && !b.isNan) || (!a.isNan && b.abs.lt a.abs)

/-- Whether element `j` goes before element `i` in R432's choice. -/
def topkBefore (a : Val) (j : Nat) (b : Val) (i : Nat) : Bool :=
  largerMag a b || (!largerMag b a && decide (j < i))

/-- Indexes of the `k` elements that R432 chooses, rising. -/
def topkPick (k : Nat) (vs : List Val) : List Nat :=
  (vs.zipIdx.filter fun (v, i) => (vs.zipIdx.filter fun (w, j) => topkBefore w j v i).length < k).map (·.2)

/-- The bolts of a group: `kq` payloads of 16 entries, from indexes and F16W patterns. -/
def topkBolts (kq : Nat) (es : List (Nat × Nat)) : List Nat :=
  (List.range kq).map fun b =>
    packFields 32 (((es.drop (16 * b)).take 16).map fun e => e.1 % 1024 + e.2 * 65536)

/-- Value of element `x` of a group from its bolts: +0 where nothing was sent. -/
def topkVal (ps : List Nat) (x : Nat) : Val :=
  match (ps.flatMap fun p => (List.range 16).map fun i => bits p (32 * i) 32).find? fun e =>
      e % 1024 == x && e / 65536 != 0 with
  | some e => (decodeFloat .f16w (e / 65536)).noNegZero
  | none => .zero

/-! ## SIGN -/

/-- Whether an element counts as negative, NaN included (R433). -/
def signNeg (v : Val) : Bool := v.isNan || (v.neg && !v.isZero)

/-- The sign word of a block. -/
def signWord (vs : List Val) : Nat := packFields 1 (vs.map fun v => b2n (signNeg v))

/-- The magnitude of a block before its encode, and the flags of the sums (R433). -/
def signMean (vs : List Val) : Val × Nat :=
  let (t, fl) := vs.foldl (fun (t, fl) v => let (w, f) := add32 t v.abs; (w, fl ||| f)) (Val.zero, 0)
  (quotVal t (max 1 vs.length), fl)

/-- One bolt of 8 blocks: sign words and magnitudes. -/
def signBolt (bs : List (Nat × Nat)) : Nat :=
  packFields 32 (bs.map (·.1)) + packFields 16 (bs.map (·.2)) * 2 ^ 256

/-- Sign of element `i` of block `b` of a bolt. -/
def signOf (p b i : Nat) : Bool := bit p (32 * b + i)

/-- Magnitude of block `b` of a bolt. -/
def signMag (p b : Nat) : Val := (decodeFloat .f16w (bits p (256 + 16 * b) 16)).noNegZero

/-- The reduced value of one element from the members' signs and magnitudes: c × M / E before its encode, with the flags
of M's sums (R433). -/
def signResult (signs : List Bool) (mags : List Val) : Val × Nat :=
  let c : Int := signs.foldl (fun a s => if s then a - 1 else a + 1) 0
  let (m, fl) := match mags with
    | [] => (Val.zero, 0)
    | x :: xs => xs.foldl (fun (t, fl) y => let (w, f) := add32 t y; (w, fl ||| f)) (x, 0)
  let (i, v) := (Val.ofInt c).mul m
  (quotVal v (max 1 mags.length), fl ||| flagIf i flInvalid)

end Sys2Proof.Machine
end

