-- ==== Sys2Proof/Machine/Exchange.lean ====
section
/-! DEFINITION. What the members of a collective send one another, and in which order (R421, R425, R428, R429, R432,
R433, R436, R442 to R446): rings, owned chunks, and the bolts of every pair of members. -/

namespace Sys2Proof.Machine

/-! ## Fields -/

/-- TYPE. -/
def Coll.ty (c : Coll) : Nat := cdType c.desc
/-- AXIS. -/
def Coll.axis (c : Coll) : Nat := cdAxis c.desc
/-- MODE. -/
def Coll.mode (c : Coll) : Nat := cdMode c.desc
/-- Whether the collective carries a tail (R436). -/
def Coll.tailed (c : Coll) : Bool := cdGrad c.desc == 1 && c.ty ≤ 1
/-- Types that reduce. -/
def Coll.reduces (c : Coll) : Bool := c.ty ≤ 1
/-- Types that gather. -/
def Coll.gathers (c : Coll) : Bool := c.ty == 0 || c.ty == 2
/-- Whether contributions go straight to the owner: pairwise exchange, TOPK and SIGN (R428, R432, R433). -/
def Coll.direct (c : Coll) : Bool := c.reduces && (c.axis == 3 || c.mode ≥ 4)

/-- The update program bound to a collective. -/
def State.boundProg (s : State) (c : Coll) : Option UProg :=
  if cbUprog c.cmd.word = 0 then none else s.uprog c.cmd.die (cbUprog c.cmd.word)

/-- The effective members after the device itself, in ring order, wrapping (R428). -/
def State.peersOf (s : State) (c : Coll) : List Nat :=
  let own := s.ownOn c.axis
  if c.eff.contains own then (c.eff.filter fun m => m > own) ++ c.eff.filter fun m => m < own else []

/-! ## Units -/

/-- The tensor whose elements the bolts of a copy carry (R423). -/
def State.shapeOf (s : State) (c : Coll) : Nat := s.desc (if c.ty = 2 then cdDst c.desc else cdSrc c.desc)

/-- Elements in one bolt: by the wire format, or for RAW as many as R380 puts into 64 bytes (log 94). -/
def State.boltElems (s : State) (c : Coll) : Nat :=
  if c.mode ≥ 1 then wireElems c.mode
  else
    let r := s.shapeOf c
    if tdBlocked r = 1 then (if (tdFm r).width ≤ 8 then 64 else 32) else 2 ^ Nat.log2 (512 / (tdFm r).width)

/-- Elements `a` to `e` − 1 cut into bolts: first element and count. A bolt of a blocked tensor holds one block, or two
whole 8-bit ones. -/
def cutUnits (blocked : Bool) (ext kp : Nat) : Nat → Nat → Nat → List (Nat × Nat)
  | 0, _, _ => []
  | fuel + 1, a, e =>
    if a ≥ e then []
    else
      let o := a % ext
      let one := min (32 - o % 32) (ext - o)
      let n := if blocked then (if kp = 64 ∧ one = 32 then min 64 (ext - o) else one) else kp
      let n := max 1 (min n (e - a))
      (a, n) :: cutUnits blocked ext kp fuel (a + n) e

/-- A range of elements cut. -/
def State.unitsIn (s : State) (c : Coll) (a e : Nat) : List (Nat × Nat) :=
  let r := s.shapeOf c
  cutUnits (c.mode == 0 && tdBlocked r == 1) (tdExt r 0) (s.boltElems c) (e - a) a e

/-- The bolts of a range of blocks. -/
def State.pieceUnits (s : State) (c : Coll) (p : Nat × Nat) : List (Nat × Nat) :=
  s.unitsIn c (32 * p.1) (min (s.cdElems c.desc) (32 * p.2))

/-! ## Rings -/

/-- A ring of R428 or R429: its coordinates in position order, whether it runs in the − direction, its blocks, and
whether its owners exchange with a partner. -/
structure Ring where
  pos : List Nat
  down : Bool
  lo : Nat
  hi : Nat
  pair : Bool
  deriving DecidableEq, Repr

/-- Members of a ring. -/
def Ring.len (r : Ring) : Nat := r.pos.length

/-- Position `t` places back from `q` in the ring's direction. -/
def Ring.back (r : Ring) (q t : Nat) : Nat := (if r.down then q + t else q + t * (r.len - 1)) % max 1 r.len

/-- The next position. -/
def Ring.next (r : Ring) (q : Nat) : Nat := (if r.down then q + (r.len - 1) else q + 1) % max 1 r.len

/-- Blocks of the chunk at position `j`. -/
def Ring.piece (r : Ring) (j : Nat) : Nat × Nat :=
  let p := chunk (r.hi - r.lo) r.len j
  (r.lo + p.1, r.lo + p.2)

/-- The rings of a collective as member `w` sees them (R428, R429). An odd skip ring begins at coordinate 0 (DEDUCED,
log 95). -/
def State.ringsOf (s : State) (c : Coll) (w : Nat) : List Ring :=
  let nb := cdiv (s.cdElems c.desc) 32
  let h := cdiv nb 2
  if c.skip then
    let e := s.extent 4
    [⟨List.range e, false, 0, h, false⟩,
     if e % 2 = 1 then ⟨(List.range e).map fun i => 2 * i % e, false, h, nb, false⟩
     else ⟨(List.range e).filter fun x => x % 2 == w % 2, false, h, nb, true⟩]
  else if c.axis = 1 ∨ c.axis = 2 then [⟨c.eff, false, 0, h, false⟩, ⟨c.eff, true, h, nb, false⟩]
  else [⟨c.eff, false, 0, nb, false⟩]

/-- The pieces of blocks that member `w` owns, in order. -/
def State.piecesOf (s : State) (c : Coll) (w : Nat) : List (Nat × Nat) :=
  (s.ringsOf c w).filterMap fun r => (r.pos.idxOf? w).map r.piece

/-- The bolts of the chunk that member `w` owns. -/
def State.ownedUnits (s : State) (c : Coll) (w : Nat) : List (Nat × Nat) := (s.piecesOf c w).flatMap (s.pieceUnits c)

/-! ## Contributions -/

/-- Groups of 1,024 elements that a member's chunk touches (R432; each owner of a part gets the group, log 96). An empty
piece touches none. -/
def State.groupsOf (s : State) (c : Coll) (w : Nat) : List Nat :=
  nub (((s.piecesOf c w).filter fun p => p.1 < p.2).flatMap fun p =>
    (List.range (cdiv p.2 32 - p.1 / 32)).map fun i => p.1 / 32 + i)

/-- Runs of up to 8 blocks of a member's chunk, one SIGN bolt each (R433). -/
def State.signRuns (s : State) (c : Coll) (w : Nat) : List (Nat × Nat) :=
  (s.piecesOf c w).flatMap fun p => (List.range (cdiv (p.2 - p.1) 8)).map fun i =>
    (p.1 + 8 * i, min p.2 (p.1 + 8 * i + 8))

/-- Contribution bolts that each member sends to the owner `w`. -/
def State.conCount (s : State) (c : Coll) (w : Nat) : Nat :=
  match c.mode with
  | 4 => (s.groupsOf c w).length * cdKq c.desc
  | 5 => (s.signRuns c w).length
  | _ => (s.ownedUnits c w).length

/-! ## Broadcast -/

/-- Distance from the root in the + direction (R443). -/
def State.upFrom (s : State) (c : Coll) (m : Nat) : Nat :=
  let e := max 1 (s.extent c.axis)
  (m + e - cdRoot c.desc) % e

/-- Whether a coordinate lies in the + branch. -/
def State.onUp (s : State) (c : Coll) (m : Nat) : Bool :=
  decide (1 ≤ s.upFrom c m) && decide (s.upFrom c m ≤ s.extent c.axis / 2)

/-- Whether a coordinate lies in a branch. -/
def State.onBranch (s : State) (c : Coll) (up : Bool) (m : Nat) : Bool :=
  m != cdRoot c.desc && s.onUp c m == up

/-- Distance along a branch. -/
def State.branchDist (s : State) (c : Coll) (up : Bool) (m : Nat) : Nat :=
  if up then s.upFrom c m else s.extent c.axis - s.upFrom c m

/-- The farthest of some coordinates along a branch. -/
def State.farthest (s : State) (c : Coll) (up : Bool) (l : List Nat) : Option Nat :=
  (l.filter (s.onBranch c up)).foldl (fun a m => match a with
    | none => some m
    | some x => if s.branchDist c up m > s.branchDist c up x then some m else some x) none

/-- DEST of a branch: its farthest destination in MEMBERS, fenced or not (R443). -/
def State.branchEnd (s : State) (c : Coll) (up : Bool) : Option Nat :=
  s.farthest c up ((List.range 32).filter (bit (cdMembers c.desc)))

/-- The last effective destination of a branch: it returns the credits of the bolts (log 91). -/
def State.branchLast (s : State) (c : Coll) (up : Bool) : Option Nat := s.farthest c up c.eff

/-- The coordinates to which the root sends. -/
def State.branchEnds (s : State) (c : Coll) : List Nat :=
  ([true, false].filterMap fun up => s.branchEnd c up).filter fun m => m != cdRoot c.desc

/-! ## All-to-all -/

/-- Elements of one row of the outermost dimension. -/
def rowElems (r : Nat) : Nat := tdCount r / max 1 (tdExt r (tdRank r))

/-- Ring position of a coordinate. -/
def Coll.posOf (c : Coll) (m : Nat) : Nat := (c.eff.idxOf? m).getD 0

/-- Row 0 of A2A_CNT: the rows for ring position `j` (R446). -/
def State.sendRows (s : State) (c : Coll) (j : Nat) : Int :=
  sext 32 (s.rdElem (s.readCopy c.cmd) (s.desc (cdA2aCnt c.desc)) j)

/-- The bolts of one row at element `base`. -/
def State.rowUnits (s : State) (c : Coll) (r base : Nat) : List (Nat × Nat) :=
  cutUnits (tdBlocked r == 1) (tdExt r 0) (s.boltElems c) (rowElems r) base (base + rowElems r)

/-- First element of the part of ring position `j`. -/
def Coll.partBase (c : Coll) (r j : Nat) : Nat := j * partRows r c.eff.length * rowElems r

/-! ## Bolts between two members -/

/-- What a bolt carries: a partial sum of a ring (the ring, the chunk, the unit), a pair's sum, a final value, the
number of a contribution, a broadcast or copied stretch, or control. -/
inductive Role where
  | part (ring chunk a n : Nat)
  | pair (a n : Nat)
  | final (a n : Nat)
  | con (i : Nat)
  | copy (a n : Nat)
  | row (a n : Nat)
  | tail | done | vote | counts
  deriving DecidableEq, Repr

/-- Kinds of delivered bolts: 0 DATA, 1 A2A, 2 TAIL, 3 DONE, 4 BARRIER, 5 COUNTS. -/
def Role.kind : Role → Nat
  | .row _ _ => 1
  | .tail => 2
  | .done => 3
  | .vote => 4
  | .counts => 5
  | _ => 0

/-- What position `q` of a ring sends to the next one: the reduce-scatter's steps, then the all-gather's (R428). -/
def State.ringRoles (s : State) (c : Coll) (i : Nat) (r : Ring) (q : Nat) : List Role :=
  (if c.reduces && !c.direct then
    (List.range (r.len - 1)).flatMap fun t =>
      (s.pieceUnits c (r.piece (r.back q (t + 1)))).map fun u => Role.part i (r.back q (t + 1)) u.1 u.2
   else []) ++
  if c.gathers then
    (List.range (r.len - 1)).flatMap fun t => (s.pieceUnits c (r.piece (r.back q t))).map fun u => Role.final u.1 u.2
  else []

/-- The data that member `f` sends to member `t`, in order: contributions, then ring by ring, a pair's sums before the
ring whose owners exchange them (the order among rings is DESIGN CHOICE, log 90). TOPK and SIGN contributions go to both
owners of a pair's chunk, which each form the whole sum and exchange nothing (DEDUCED, log 186). -/
def State.dataRoles (s : State) (c : Coll) (f t : Nat) : List Role :=
  (if c.direct then (List.range (s.conCount c t)).map Role.con else []) ++
  if c.axis = 3 then
    (if c.gathers then (s.ownedUnits c f).map fun u => Role.final u.1 u.2 else [])
  else
    (s.ringsOf c f).zipIdx.flatMap fun (r, i) =>
      match r.pos.idxOf? f with
      | none => []
      | some q =>
        (if r.pair && !c.direct && t == f ^^^ 1 then (s.pieceUnits c (r.piece q)).map fun u => Role.pair u.1 u.2 else []) ++
        if r.len > 1 ∧ r.pos.getD (r.next q) f = t then s.ringRoles c i r q else []

/-- Everything that this device sends to coordinate `t`. -/
def State.outRoles (s : State) (c : Coll) (t : Nat) : List Role :=
  let own := s.ownOn c.axis
  match c.ty with
  | 5 => [.vote]
  | 3 =>
    if own = cdRoot c.desc then
      (if (s.branchEnds c).contains t then (s.unitsIn c 0 (s.cdElems c.desc)).map fun u => Role.copy u.1 u.2 else [])
    else if t = cdRoot c.desc then [.done] else []
  | 4 =>
    let r := s.desc (cdSrc c.desc)
    let j := c.posOf t
    ((List.range (s.sendRows c j).toNat).flatMap fun k =>
      (s.rowUnits c r (c.partBase r j + k * rowElems r)).map fun u => Role.row u.1 u.2) ++ [.counts]
  | _ => s.dataRoles c own t ++ if c.tailed then [.tail] else []

/-- Everything that coordinate `f` sends to this device, but for the rows of an ALL_TO_ALL, whose number only its COUNTS
bolt tells. -/
def State.inRoles (s : State) (c : Coll) (f : Nat) : List Role :=
  let own := s.ownOn c.axis
  match c.ty with
  | 5 => [.vote]
  | 3 =>
    if own = cdRoot c.desc then [.done]
    else if f = cdRoot c.desc then (s.unitsIn c 0 (s.cdElems c.desc)).map fun u => Role.copy u.1 u.2 else []
  | 4 => [.counts]
  | _ => s.dataRoles c f own ++ if c.tailed then [.tail] else []

/-- The part of row bolt number `i` in this device's DST, sent by coordinate `f`. -/
def State.rowPlaceOf (s : State) (c : Coll) (f i : Nat) : Nat × Nat :=
  let r := s.desc (cdDst c.desc)
  let base := c.partBase r (c.posOf f)
  let us := s.rowUnits c r base
  let n := max 1 us.length
  let u := us.getD (i % n) (base, 0)
  (u.1 + i / n * rowElems r, u.2)

/-- What the next bolt from coordinate `f` is, if one is expected, for an arriving bolt of kind `k`. -/
def State.nextRole (s : State) (c : Coll) (f k : Nat) : Option Role :=
  if !(s.peersOf c).contains f then none
  else if c.ty = 4 then
    if c.ctrl.any (·.1 == f) then none
    else if k = 5 then some .counts
    else
      let p := s.rowPlaceOf c f (Tab.get 0 c.rx f)
      some (.row p.1 p.2)
  else (s.inRoles c f)[Tab.get 0 c.rx f]?

/-- Whether coordinate `m` ends a branch of this root that no effective destination lies on: its bolts are absorbed
(R445), and nobody can return their credits (log 91). -/
def State.deadBranch (s : State) (c : Coll) (m : Nat) : Bool :=
  c.ty == 3 && s.ownOn c.axis == cdRoot c.desc && (s.branchLast c (s.onUp c m)).isNone

/-- Where this device sends, in order: the effective members after it, or a broadcast's branch ends. -/
def State.targets (s : State) (c : Coll) : List Nat :=
  if c.ty = 3 then
    if s.ownOn c.axis = cdRoot c.desc then (if c.eff.contains (cdRoot c.desc) then s.branchEnds c else [])
    else (s.peersOf c).filter (· == cdRoot c.desc)
  else s.peersOf c

/-- The local context toward a coordinate (R425). -/
def Coll.ctx (c : Coll) (m : Nat) : Nat := cdCtxBase c.desc + m

end Sys2Proof.Machine
end

