-- ==== Sys2Proof/Machine/Collective.lean ====
section
/-! DEFINITION. Collectives (R420 to R451): start, the bolts they send and receive, landing of results, and completion. -/

namespace Sys2Proof.Machine

/-! ## Values -/

/-- The inputs of R123 for a rounding of the collective (R430, R504). -/
def State.collDraw (s : State) (c : Coll) (site : Nat) : Draw :=
  ⟨s.job.seed, s.stepNo c.cmd, 16 * c.cmd.die + 12, site, s.roundCoord⟩

/-- Rounding of element `i` of a unit that begins at SRC's element `a`. -/
def State.collRm (s : State) (c : Coll) (a i : Nat) : Rm :=
  rmTensor (s.collDraw c (cdSite c.desc)) (cdRmode c.desc) (a + i)

/-- Decoded elements of SRC, in the copy of R454. -/
def State.srcVals (s : State) (c : Coll) (a n : Nat) : List Val :=
  (List.range n).map fun i => (s.rdVal (s.readCopy c.cmd) (s.desc (cdSrc c.desc)) (a + i)).noNegZero

/-- A descriptor seen at copy `cur`: its two planes moved by COPY_OFFSET. -/
def copyDesc (cur r : Nat) : Nat :=
  let o := tdCopy cur r
  r + o + if tdPlane2 r = 0 then 0 else o * 2 ^ 48

/-- The descriptor of a tensor that is written (R453). -/
def State.writtenDesc (s : State) (r : Nat) : Nat := copyDesc s.writtenCopy r

/-- First uncorrectable granule among the `n` elements of one row from `idx`, and their scale or extension plane. -/
def State.elemsPoison (s : State) (cur r idx n : Nat) : Option Nat :=
  let a := (tdPlace cur r idx).1
  match s.firstPoison a (cdiv (n * (tdFm r).planeBits + (tdPlace cur r idx).2) 8) with
  | some g => some g
  | none =>
    if tdBlocked r = 1 then s.firstPoison (tdScalePlace cur r idx) (cdiv (idx % tdExt r 0 % 32 + n) 32)
    else if tdFm r = .x48 then s.firstPoison (tdExtPlace cur r idx) (2 * n)
    else none

/-- Corrections of a read of those elements counted (R302). -/
def State.elemsCounted (s : State) (cur r idx n : Nat) : State :=
  if s.clean then s
  else
    let s := s.counted (tdPlace cur r idx).1 (cdiv (n * (tdFm r).planeBits + (tdPlace cur r idx).2) 8)
    if tdBlocked r = 1 then s.counted (tdScalePlace cur r idx) (cdiv (idx % tdExt r 0 % 32 + n) 32)
    else if tdFm r = .x48 then s.counted (tdExtPlace cur r idx) (2 * n)
    else s

/-- Corrections of a read of a whole tensor counted. -/
def State.tensorCounted (s : State) (cur r : Nat) : State :=
  if s.clean then s
  else (List.range (tdRows r)).foldl (fun s i => s.elemsCounted cur r (i * tdExt r 0) (tdExt r 0)) s

/-- First uncorrectable granule of a whole tensor. -/
def State.tensorPoison (s : State) (cur r : Nat) : Option Nat :=
  if s.poison.isEmpty then none
  else (List.range (tdRows r)).findSome? fun i => s.elemsPoison cur r (i * tdExt r 0) (tdExt r 0)

/-! ## Copies -/

/-- Byte-aligned place of element `i` of a RAW bolt: blocks lie at bytes 0 and 32. -/
def rawBit (r i : Nat) : Nat :=
  let w := (tdFm r).width
  if tdBlocked r = 1 ∧ w ≤ 8 then 256 * (i / 32) + i % 32 * w else i * w

/-- The payload of `n` elements of a tensor copied unchanged (R380, R422). -/
def State.rawPayload (s : State) (cur r a n : Nat) : Nat :=
  let body := (List.range n).foldl (fun v i => v + s.rdElem cur r (a + i) * 2 ^ rawBit r i) 0
  if tdBlocked r = 1 then
    body + s.rdE8 cur r a * 2 ^ 512 + if n > 32 then s.rdE8 cur r (a + 32) * 2 ^ 520 else 0
  else body

/-- The cells of `n` elements taken from a RAW payload; `r` is the descriptor at the written copy. -/
def rawCells (r a n p : Nat) : List (Nat × Nat) :=
  ((List.range n).flatMap fun i => elemCells r (a + i) (bits p (rawBit r i) (tdFm r).width)) ++
    if tdBlocked r = 1 then
      e8Cells r a (bits p 512 8) ++ if n > 32 then e8Cells r (a + 32) (bits p 520 8) else []
    else []

/-! ## Ends -/

/-- The NONFINITE of the collective: its own and those heard (R437). -/
def Coll.anyNf (c : Coll) : Bool := c.nonfinite || c.heardNf

/-- A collective's record in error, and its slot free (R448). -/
def State.collError (s : State) (d k : Nat) (c : Coll) (err : Nat) : State :=
  (s.dropColl d k).wrRecord (cdRecord c.desc)
    (collRec stError (b2n c.anyNf) 0 (b2n c.skip) err c.cmd.step (s.fencedOf c.desc) 0 0 0 0 0 0 c.tStart (s.timeAt d))

/-- A collective ends in error (R268, R448): ARG1 and ARG2 of its event, and what the list's record names. One that has
completed and only sends stops sending. -/
def State.collFail (s : State) (d k : Nat) (c : Coll) (e : Err) (a1 a2 detail : Nat) : State :=
  if c.done then s.dropColl d k
  else ((s.collError d k c e.code).errCmd c.cmd e a1 a2 detail).enrol

/-- A collective meets an uncorrectable granule (R302). -/
def State.collMemFail (s : State) (d k : Nat) (c : Coll) (a : Nat) : State :=
  ((s.collError d k c (s.readErr a).code).memFail c.cmd a).enrol

/-- Cells written for a collective: one that meets an uncorrectable granule in part ends it. -/
def State.collPut (s : State) (d k : Nat) (c : Coll) (cells : List (Nat × Nat)) : State :=
  if (s.coll d k).isNone then s
  else
    let t := joinCells cells
    let (s, bad) := s.landCells t.length t
    match bad with
    | none => s
    | some a => s.collMemFail d k c a

/-- Flags and finiteness of values formed (R133, R437; the flags join UPD.NUMSTAT, DEDUCED, log 97). -/
def State.collFlags (s : State) (d fl : Nat) : State := s.setUpdFlags d fl

/-! ## Landing -/

/-- Element of the device's result that element `i` of SRC is (R479), by the pieces of the result. -/
def slotIndex (ps : List (Nat × Nat)) (i : Nat) : Nat :=
  match ps with
  | p :: r => if 32 * p.1 ≤ i ∧ i < 32 * p.2 then i - 32 * p.1 else 32 * (p.2 - p.1) + slotIndex r i
  | [] => 0

/-- Element of SRC that element `x` of the device's result is. -/
def srcIndex (ps : List (Nat × Nat)) (x : Nat) : Nat :=
  match ps with
  | p :: r => if x < 32 * (p.2 - p.1) then 32 * p.1 + x else srcIndex r (x - 32 * (p.2 - p.1))
  | [] => x

/-- The pieces of blocks that are the device's result. -/
def State.resultOf (s : State) (c : Coll) : List (Nat × Nat) :=
  if c.ty = 1 then s.piecesOf c (s.ownOn c.axis) else [(0, cdiv (s.cdElems c.desc) 32)]

/-- The landed value of SRC's element `i` in a reducing collective. -/
def Coll.landedVal (c : Coll) (i : Nat) : Option Val :=
  let kp := wireElems c.mode
  (c.landed.find? fun p => p.1 == i / kp * kp).map fun p => (wireDec c.mode (i % kp + 1) p.2).getD (i % kp) .zero

/-- Stretches of DST to encode now that result elements `x` to `x + n` − 1 have landed: single elements, or the blocks of
a blocked tensor that they touch. -/
def storeRuns (r x n : Nat) : List (Nat × Nat) :=
  if tdBlocked r = 1 then
    (nub ((List.range n).map fun i => x + i - (x + i) % tdExt r 0 % 32)).map fun b =>
      (b, min 32 (tdExt r 0 - b % tdExt r 0))
  else [(x, n)]

/-- DST receives decode(p), encoded once, where every element of a stretch has landed (R430); the random bits of that
rounding go by the element's index in DST (R123). An X48 DST receives X48 elements (DESIGN CHOICE, log 247). -/
def State.storeResult (s : State) (d k : Nat) (c : Coll) (a n : Nat) : State :=
  if cdDstEn c.desc = 0 then s
  else
    let ps := s.resultOf c
    let r := s.desc (cdDst c.desc)
    let w := s.writtenDesc r
    (storeRuns r (slotIndex ps a) n).foldl (fun s (x, m) =>
      let vs := (List.range m).map fun i => c.landedVal (srcIndex ps (x + i))
      if vs.all Option.isSome then
        let (cells, fl) := s.encodeRun w x false (s.collRm c x) vs
        (s.collFlags d fl).collPut d k c cells
      else s) s

/-- The 32 values of block `b` as F16W/32, as the update engine receives it (R435): payload and flags. Lanes beyond the
tensor are not there. -/
def State.updBlock (s : State) (c : Coll) (b : Nat) : Nat × Nat :=
  let n := min 32 (s.cdElems c.desc - 32 * b)
  wireEnc 3 (fun _ => .rne) ((List.range n).map fun i => (c.landedVal (32 * b + i)).getD .zero)

/-- A block whose last bolt has landed is queued for a bound update program (R435). -/
def State.queueBlock (s : State) (d k : Nat) (a : Nat) : State :=
  match s.coll d k with
  | none => s
  | some c =>
    if (s.boundProg c).isNone then s
    else
      let b := a / 32
      let kp := wireElems c.mode
      let n := min 32 (s.cdElems c.desc - 32 * b)
      if (List.range (cdiv n kp)).all fun i => c.landed.any fun p => p.1 == 32 * b + i * kp then
        (s.collFlags d (s.updBlock c b).2).setColl d k { c with queued := c.queued ++ [b] }
      else s

/-- A unit of the result lands: kept for the gather, stored in DST, queued for the update engine. -/
def State.landUnit (s : State) (d k a n p : Nat) : State :=
  match s.coll d k with
  | none => s
  | some c =>
    let c := { c with landed := Tab.upd c.landed a p }
    let s := s.setColl d k c
    if c.mode = 0 then
      if cdDstEn c.desc = 0 then s
      else s.collPut d k c (rawCells (s.writtenDesc (s.desc (cdDst c.desc))) a n p)
    else (s.storeResult d k c a n).queueBlock d k a

/-! ## Forming sums -/

/-- A partial sum or sum formed here, with its flags and whether it is finite (R430, R437). -/
def State.formUnit (s : State) (d k a n : Nat) (pf : Nat × Nat) : State :=
  match s.coll d k with
  | none => s
  | some c =>
    (s.collFlags d pf.2).setColl d k { c with
      formed := Tab.upd c.formed a pf.1
      nonfinite := c.nonfinite || nonfinite (wireDec c.mode n pf.1) }

/-- R429, R430: both partners' sums are there; the chunk's sum is formed, even first. -/
def State.tryPair (s : State) (d k a n : Nat) : State :=
  match s.coll d k with
  | none => s
  | some c =>
    match c.formed.find? (·.1 == a), c.other.find? (·.1 == a) with
    | some (_, x), some (_, y) =>
      let own := s.ownOn c.axis
      let (e, o) := if own % 2 = 0 then (x, y) else (y, x)
      let pf := wireAdd c.mode (s.collRm c a) e (wireDec c.mode n o)
      let s := (s.collFlags d pf.2).setColl d k { c with
        other := Tab.erase c.other a
        nonfinite := c.nonfinite || nonfinite (wireDec c.mode n pf.1) }
      s.landUnit d k a n pf.1
    | _, _ => s

/-- An owned unit's ring sum is complete: it lands, or goes to the partner. -/
def State.ownUnit (s : State) (d k : Nat) (pair : Bool) (a n : Nat) (pf : Nat × Nat) : State :=
  let s := s.formUnit d k a n pf
  if pair then s.tryPair d k a n else s.landUnit d k a n pf.1

/-- Contributions of member `m` to the `i`-th owned unit (R430, R432; a remote one as decoded from the wire, DEDUCED,
log 98). -/
def State.conVals (s : State) (c : Coll) (m i a n : Nat) : List Val :=
  let own := s.ownOn c.axis
  if c.mode = 4 then
    let g := ((s.groupsOf c own).idxOf? (a / 1024)).getD 0
    let ps := (List.range (cdKq c.desc)).map fun j => Tab.get 0 c.contrib (32 * (g * cdKq c.desc + j) + m)
    (List.range n).map fun x => topkVal ps (a % 1024 + x)
  else if m = own then s.srcVals c a n
  else wireDec c.mode n (Tab.get 0 c.contrib (32 * i + m))

/-- Number of the SIGN bolt that holds block `b` of the owned chunk, and the block's place in it. -/
def signPlace (runs : List (Nat × Nat)) (b : Nat) : Nat × Nat :=
  match runs.findIdx? fun p => p.1 ≤ b && b < p.2 with
  | some i => (i, b - (runs.getD i (0, 0)).1)
  | none => (0, 0)

/-- The sum of an owned unit from every member's contribution, in increasing coordinate (R430, R433). -/
def State.sumUnit (s : State) (c : Coll) (i a n : Nat) : Nat × Nat :=
  if c.mode = 5 then
    let (j, b) := signPlace (s.signRuns c (s.ownOn c.axis)) (a / 32)
    let ps := c.eff.map fun m => Tab.get 0 c.contrib (32 * j + m)
    let out := (List.range n).map fun x => signResult (ps.map fun p => signOf p b x) (ps.map fun p => signMag p b)
    let (q, fl) := wireEnc c.mode (s.collRm c a) (out.map (·.1))
    (q, out.foldl (fun f p => f ||| p.2) fl)
  else
    let (v, f1) := sumVals (c.eff.map fun m => s.conVals c m i a n)
    let (q, f2) := wireEnc c.mode (s.collRm c a) v
    (q, f1 ||| f2)

/-- Contribution bolts of each member that the `i`-th owned unit needs. -/
def State.conNeed (s : State) (c : Coll) (i a : Nat) : Nat :=
  let own := s.ownOn c.axis
  match c.mode with
  | 4 => (((s.groupsOf c own).idxOf? (a / 1024)).getD 0 + 1) * cdKq c.desc
  | 5 => (signPlace (s.signRuns c own) (a / 32)).1 + 1
  | _ => i + 1

/-- The first contribution bolt of each member that units still to be reduced need. -/
def State.conKept (s : State) (c : Coll) : Nat :=
  let own := s.ownOn c.axis
  match (s.ownedUnits c own)[c.reduced]? with
  | none => s.conCount c own
  | some (a, _) => match c.mode with
    | 4 => ((s.groupsOf c own).idxOf? (a / 1024)).getD 0 * cdKq c.desc
    | 5 => (signPlace (s.signRuns c own) (a / 32)).1
    | _ => c.reduced

/-- Another owned unit has been reduced: the contributions that it was the last to need are gone. -/
def State.unitReduced (s : State) (c : Coll) : Coll :=
  let c := { c with reduced := c.reduced + 1 }
  { c with contrib := c.contrib.filter fun p => s.conKept c ≤ p.1 / 32 }

/-- Owned units reduced as far as contributions have come. -/
def State.reduceOwned (s : State) (d k : Nat) : Nat → State
  | 0 => s
  | fuel + 1 =>
    match s.coll d k with
    | none => s
    | some c =>
      match (s.ownedUnits c (s.ownOn c.axis))[c.reduced]? with
      | none => s
      | some (a, n) =>
        if (s.peersOf c).all fun m => s.conNeed c c.reduced a ≤ Tab.get 0 c.rx m then
          let pf := s.sumUnit c c.reduced a n
          State.reduceOwned ((s.setColl d k (s.unitReduced c)).ownUnit d k false a n pf) d k fuel
        else s

/-! ## Sending -/

/-- Whether every data bolt to every target has gone, and the owned chunk has landed: the tail is then final (R436,
R437, R439). -/
def State.dataDone (s : State) (c : Coll) : Bool :=
  (s.targets c).all (fun m => (s.outRoles c m).length ≤ Tab.get 0 c.tx m + b2n c.tailed) &&
    (s.ownedUnits c (s.ownOn c.axis)).all fun u => c.landed.any (·.1 == u.1)

/-- Whether everything that this device expects of a broadcast has landed (R444). -/
def State.copyDone (s : State) (c : Coll) : Bool :=
  (s.unitsIn c 0 (s.cdElems c.desc)).all fun u => c.landed.any (·.1 == u.1)

/-- Whether the targets before `m` have had their share of what R428 and R446 send in the order of members: `n` bolts
each. -/
def State.before (s : State) (c : Coll) (m : Nat) (n : Nat → Nat) : Bool :=
  ((s.targets c).takeWhile fun x => x != m).all fun x => n x ≤ Tab.get 0 c.tx x

/-- Bolts that wait in die d's buffer for the branch that ends at `dest` (R444). -/
def State.branchBolts (s : State) (d x dest : Nat) : Nat :=
  ((Tab.get [] s.tor.inject d).filter fun b => b.ctx == x && b.op == 1 && b.dest == dest).length

/-- Whether a bolt to coordinate `m` can go as far as its contents are concerned. A root's branch buffers hold 64 bolts
each: it reads no further SRC while one is full, and neither branch runs further ahead of the other (R444). -/
def State.roleReady (s : State) (c : Coll) (m : Nat) : Role → Bool
  | .part _ _ a _ => c.formed.any (·.1 == a)
  | .pair a _ => c.formed.any (·.1 == a)
  | .final a _ =>
    c.landed.any (·.1 == a) && (c.axis != 3 || s.before c m fun x => (s.dataRoles c (s.ownOn c.axis) x).length)
  | .con _ => s.before c m (s.conCount c)
  | .copy _ _ => (s.targets c).all fun x =>
    Tab.get 0 c.tx m < Tab.get 0 c.tx x + 64 && 
      s.branchBolts c.cmd.die (s.farCtx (c.ctx x)) (s.fld .ctxEntry_peer (c.ctx x)) < 64
  | .row _ _ => s.before c m fun x => (s.outRoles c x).length
  | .tail => s.dataDone c
  | .done => s.copyDone c
  | .vote => true
  | .counts => s.before c m fun x => (s.outRoles c x).length

/-- A CTRL payload (R436). -/
def ctrlPayload (kind sender : Nat) (nf : Bool) (lo hi sq arg : Nat) : Nat :=
  kind + sender * 2 ^ 4 + b2n nf * 2 ^ 9 + lo * 2 ^ 32 + hi * 2 ^ 64 + sq * 2 ^ 96 + arg * 2 ^ 160

/-- Sum of squares of decode(p) over the owned chunk in block order (R439). Of a pair only the even partner counts the
chunk. -/
def State.ownSq (s : State) (c : Coll) : Nat :=
  let own := s.ownOn c.axis
  let us := (s.ringsOf c own).flatMap fun r =>
    if r.pair && own % 2 == 1 then []
    else match r.pos.idxOf? own with
      | some q => s.pieceUnits c (r.piece q)
      | none => []
  us.foldl (fun t (a, n) => (wireDec c.mode n (Tab.get 0 c.landed a)).foldl addSquare t) 0

/-- The step counter that tails carry (R438, R460). -/
def State.tailStep (s : State) (c : Coll) : Nat := s.stepNo c.cmd % 2 ^ 32

/-- OP and payload of a bolt to coordinate `m`; the self-delay of a broadcast's destination is a free value (log 92). -/
def State.roleBolt (s : State) (c : Coll) (m : Nat) (r : Role) : Nat × Nat × State :=
  let own := s.ownOn c.axis
  let src := s.desc (cdSrc c.desc)
  match r with
  | .part _ _ a _ => (1, Tab.get 0 c.formed a, s)
  | .pair a _ => (1, Tab.get 0 c.formed a, s)
  | .final a _ => (1, Tab.get 0 c.landed a, s)
  | .con i => (1, (Tab.get [] c.out m).getD i 0, s)
  | .copy a n => (1, s.rawPayload (s.readCopy c.cmd) src a n, s)
  | .row a n => (2, s.rawPayload (s.readCopy c.cmd) src a n, s)
  | .tail => (3, ctrlPayload 0 own c.nonfinite (s.tailStep c) (s.tailStep c) (s.ownSq c) 0, s)
  | .done =>
    let (v, s) := s.draw
    (3, ctrlPayload 1 own false 0 0 0 (v % 2 ^ 32), s)
  | .vote => (3, c.vote, s)
  | .counts => (3, ctrlPayload 3 own false 0 0 0 (s.sendRows c (c.posOf m)).toNat, s)

/-- A bolt to a branch without an effective destination is absorbed on its way, so it keeps no place at its context: its
credit is there again (DESIGN CHOICE, log 91). -/
def State.takeBack (s : State) (x : Nat) : State :=
  (s.bump .ctxEntry_credits x 1).setUnreturned x (Tab.get 0 s.tor.unreturned x - 1)

/-- Bolts to coordinate `m` sent in order while they are ready and credits last (R397). LAST marks the last one to that
member (log 90). -/
def State.sendTo (s : State) (d k m : Nat) : Nat → State
  | 0 => s
  | fuel + 1 =>
    match s.coll d k with
    | none => s
    | some c =>
      let rs := s.outRoles c m
      let i := Tab.get 0 c.tx m
      match rs[i]? with
      | none => s
      | some r =>
        if s.roleReady c m r && s.canSend (c.ctx m) then
          let (op, p, s) := s.roleBolt c m r
          let s := s.setColl d k { c with tx := Tab.put 0 c.tx m (i + 1) }
          let s := s.ctxSend d (c.ctx m) op (i + 1 == rs.length) (bits p 520 8) (bits p 512 8) (p % 2 ^ 512)
          State.sendTo (if s.deadBranch c m then s.takeBack (c.ctx m) else s) d k m fuel
        else s

/-- One round over the targets. -/
def State.sendRound (s : State) (d k : Nat) : State :=
  match s.coll d k with
  | none => s
  | some c => (s.targets c).foldl (fun s m => s.sendTo d k m (s.outRoles c m).length) s

/-- Whether every bolt to send has gone. -/
def State.sentAll (s : State) (c : Coll) : Bool :=
  (s.targets c).all fun m => (s.outRoles c m).length ≤ Tab.get 0 c.tx m

/-- A completed collective that has sent everything leaves its slot. -/
def State.reapColl (s : State) (d k : Nat) : State :=
  match s.coll d k with
  | some c => if c.done && s.sentAll c then s.dropColl d k else s
  | none => s

/-- Everything sent that can be: tails become ready once all data has gone. -/
def State.pumpColl (s : State) (d k : Nat) : State := ((s.sendRound d k).sendRound d k).reapColl d k

/-! ## Receiving -/

/-- The number of rows a COUNTS bolt reports is in range, and row 1 of A2A_CNT takes it (R446). -/
def State.takeCounts (s : State) (d k f p : Nat) : State :=
  match s.coll d k with
  | none => s
  | some c =>
    let n := bits p 160 32
    if n > partRows (s.desc (cdDst c.desc)) c.eff.length then
      s.collFail d k c .a2aCount (cbCdesc c.cmd.word) 0 (cbCdesc c.cmd.word)
    else
      let r := s.writtenDesc (s.desc (cdA2aCnt c.desc))
      s.collPut d k c (elemCells r (c.eff.length + c.posOf f) n)

/-- A bolt acted on by what it carries. -/
def State.actRole (s : State) (d k f : Nat) (r : Role) (p : Nat) : State :=
  match s.coll d k with
  | none => s
  | some c =>
    let own := s.ownOn c.axis
    match r with
    | .part i j a n =>
      let pf := wireAdd c.mode (s.collRm c a) p (s.srcVals c a n)
      let ring := (s.ringsOf c own)[i]?
      match ring with
      | some g => if g.pos.idxOf? own = some j then s.ownUnit d k g.pair a n pf else s.formUnit d k a n pf
      | none => s
    | .pair a n => (s.setColl d k { c with other := Tab.upd c.other a p }).tryPair d k a n
    | .final a n => s.landUnit d k a n p
    | .con i =>
      let s := s.setColl d k { c with contrib := Tab.upd c.contrib (32 * i + f) p }
      s.reduceOwned d k (s.ownedUnits c own).length
    | .copy a n => s.landUnit d k a n p
    | .row a n => s.collPut d k c (rawCells (s.writtenDesc (s.desc (cdDst c.desc))) a n p)
    | .tail => s.setColl d k { c with
        ctrl := Tab.upd c.ctrl f p
        heardNf := c.heardNf || bit p 9 }
    | .counts => (s.setColl d k { c with ctrl := Tab.upd c.ctrl f p }).takeCounts d k f p
    | _ => s.setColl d k { c with ctrl := Tab.upd c.ctrl f p }

/-- The branch end's context gets its credit from the last effective destination (R445, log 91). -/
def State.branchCredit (s : State) (d : Nat) (c : Coll) (b : Bolt) : State :=
  let far := coordOn b.dest c.axis
  let up := s.onUp c far
  if s.branchLast c up = some (s.ownOn c.axis) then
    let x := c.ctx (cdRoot c.desc)
    s.inject d ⟨s.fld .ctxEntry_peer x, c.ctx far, 9, s.stampOf x, 0, true, 0, 0, 1⟩
  else s

/-- R397, R443: a bolt consumed frees its place; a broadcast bolt goes into the buffer of those to be sent on. -/
def State.freeBolt (s : State) (d : Nat) (c : Coll) (b : Bolt) (r : Role) : State :=
  match r with
  | .copy _ _ =>
    let s := s.branchCredit d c b
    if b.dest = s.coord then s else s.inject d b
  | _ => s.returnCredit d b.ctx 1

/-- A bolt that the running collective expects. -/
def State.takeRole (s : State) (d k f : Nat) (b : Bolt) (r : Role) : State :=
  match s.coll d k with
  | none => s
  | some c =>
    let s := s.setColl d k { c with
      rx := Tab.put 0 c.rx f (Tab.get 0 c.rx f + 1)
      lastBolt := s.now
      fails := Tab.erase c.fails 2 }
    let s := s.actRole d k f r (b.payload + b.scale0 * 2 ^ 512 + b.scale1 * 2 ^ 520)
    if (s.coll d k).isNone then s
    else
      (s.freeBolt d c b r).pumpColl d k

/-- Bolts held for a context handed to the collective that has started on it (R427). -/
def State.drainCtx (s : State) (d k f x : Nat) : Nat → State
  | 0 => s
  | fuel + 1 =>
    match s.coll d k, Tab.get [] s.tor.held x with
    | some c, (kind, b) :: rest =>
      match s.nextRole c f kind with
      | none => s
      | some r =>
        let s := { s with tor := { s.tor with held := Tab.put [] s.tor.held x rest } }
        let s := if r.kind = kind then s.takeRole d k f b r
          else (s.bump .torDrops_op 0 1).returnCredit d x 1
        State.drainCtx s d k f x fuel
    | _, _ => s

/-- All held bolts that a collective can take. -/
def State.drainHeld (s : State) (d k : Nat) : State :=
  match s.coll d k with
  | none => s
  | some c => (s.peersOf c).foldl (fun s f =>
      let x := c.ctx f
      s.drainCtx d k f x (Tab.get [] s.tor.held x).length) s

/-- An accepted bolt of kind `kind` reaches the collective that runs on its context, or is held until one starts (R427).
One that cannot be what the peer sends next, or comes on a context of another kind, is counted in DROPS.OP (log 87). -/
def State.collBolt (s : State) (kind : Nat) (b : Bolt) : State :=
  let want := if kind = 1 ∨ kind = 5 then 1 else 0
  if s.fld .ctxEntry_kind b.ctx ≠ want then (s.returnCredit 0 b.ctx 1).bump .torDrops_op 0 1
  else
    let hold := { s with tor := { s.tor with
      held := Tab.upd s.tor.held b.ctx (Tab.get [] s.tor.held b.ctx ++ [(kind, b)]) } }
    match s.collOn b.ctx with
    | none => hold
    | some (d, k, c) =>
      let f := coordOn (s.fld .ctxEntry_peer b.ctx) c.axis
      match s.nextRole c f kind with
      | none => hold
      | some r =>
        if r.kind = kind then s.takeRole d k f b r
        else (s.returnCredit d b.ctx 1).bump .torDrops_op 0 1

/-- The buffer of 64 bolts that die d still has to send on for the branch of a broadcast bolt is full (R444). -/
def State.forkFull (s : State) (d : Nat) (b : Bolt) : Bool :=
  64 ≤ s.branchBolts d b.ctx b.dest

/-- R396, R435 on a delivered bolt of a collective: under back-pressure it is not accepted, nor is a broadcast bolt that
cannot go on (R444). A sequence fault ends the collective that uses the context. -/
def State.collArrive (s : State) (kind : Nat) (b : Bolt) : State :=
  let d := match s.collOn b.ctx with
    | some (d, _, _) => d
    | none => s.ctxDie b.ctx
  if s.collFull d || (s.forks b && s.forkFull d b) then s
  else match s.arrive b with
    | .dropped s => s
    | .fault s =>
      match s.collOn b.ctx with
      | some (d, k, c) => s.collFail d k c .contextFault b.ctx 0 0
      | none => s
    | .accepted s => s.collBolt kind b

/-- DATA (R413 to R416), with what the code of the bolt buffers finds: an uncorrectable word ends the command of the
bolt's context (R550). -/
def doData (b : Bolt) (f : Finding) (s : State) : State :=
  let s := s.struck f
  match f, s.collOn b.ctx with
  | .buffer, some (d, k, c) => s.collFail d k c .bufferUncorrectable 0 0 0
  | _, _ => s.collArrive 0 b

/-- DATA. -/
def execData (b : Bolt) (f : Finding) (s : State) : Host.Outcome State Fault Refusal := .next (doData b f s)
/-- A2A. -/
def execA2a (b : Bolt) (s : State) : Host.Outcome State Fault Refusal := .next (s.collArrive 1 b)
/-- TAIL. -/
def execTail (b : Bolt) (s : State) : Host.Outcome State Fault Refusal := .next (s.collArrive 2 b)
/-- DONE. -/
def execDone (b : Bolt) (s : State) : Host.Outcome State Fault Refusal := .next (s.collArrive 3 b)
/-- BARRIER_VOTE. -/
def execBarrierVote (b : Bolt) (s : State) : Host.Outcome State Fault Refusal := .next (s.collArrive 4 b)
/-- COUNTS. -/
def execCounts (b : Bolt) (s : State) : Host.Outcome State Fault Refusal := .next (s.collArrive 5 b)

/-- CREDIT: what waited for the credits goes, and board-wide requests for which the answers sent have left entries. -/
def execCredit (b : Bolt) (s : State) : Host.Outcome State Fault Refusal :=
  let s := (doCredit b s).serveAll
  .next (match s.collOn b.ctx with
    | some (d, k, _) => s.pumpColl d k
    | none => s)

/-! ## Compression -/

/-- v = g + r of R432 for `n` elements from `a`, with flags. -/
def State.feedback (s : State) (c : Coll) (a n : Nat) : List Val × Nat :=
  let g := s.srcVals c a n
  if cdResidEn c.desc = 0 then
    let out := g.map (rnTo .fp32)
    (out.map (·.1), out.foldl (fun f p => f ||| p.2) 0)
  else addVals g ((List.range n).map fun i =>
    (s.rdVal (s.readCopy c.cmd) (s.desc (cdResid c.desc)) (a + i)).noNegZero)

/-- Residual elements from `a` written to the written copy (R432 to R434). -/
def State.putResid (s : State) (d k : Nat) (c : Coll) (a : Nat) (vs : List Val) : State :=
  if cdResidEn c.desc = 0 then s
  else
    let r := s.writtenDesc (s.desc (cdResid c.desc))
    let (cells, fl) := s.encodeRun r a false (fun _ => .rne) (vs.map some)
    (s.collFlags d fl).collPut d k c cells

/-- r' of R432 for one element: what its sent value leaves, or the whole of it. -/
def topkRest (es : List (Nat × Nat × Nat)) (i : Nat) (x : Val) : Val × Nat :=
  match es.find? (fun e => e.1 == i) with
  | some e => add32 x (decodeFloat .f16w e.2.1).negate
  | none => (x, 0)

/-- One group of TOPK: the bolts, the residual, flags and finiteness (R432, R437). -/
def State.packGroup (s : State) (d k : Nat) (c : Coll) (g : Nat) : List Nat × State :=
  let a := 1024 * g
  let n := min 1024 (s.cdElems c.desc - a)
  let (v, f1) := s.feedback c a n
  let pick := topkPick (16 * cdKq c.desc) v
  let es : List (Nat × Nat × Nat) := pick.map fun i => (i, encodeT .f16w false (s.collRm c a i) (v.getD i .zero))
  let res := v.zipIdx.map fun (x, i) => topkRest es i x
  let fl := res.foldl (fun f p => f ||| p.2) (es.foldl (fun f p => f ||| p.2.2) f1)
  let s := (s.collFlags d fl).putResid d k c a (res.map (·.1))
  (topkBolts (cdKq c.desc) (es.map fun e => (e.1, e.2.1)), match s.coll d k with
    | some c => s.setColl d k { c with nonfinite := c.nonfinite || nonfinite v }
    | none => s)

/-- One block of SIGN: sign word, magnitude, and the residual (R433). -/
def State.packSign (s : State) (d k : Nat) (c : Coll) (b : Nat) : (Nat × Nat) × State :=
  let a := 32 * b
  let n := min 32 (s.cdElems c.desc - a)
  let (v, f1) := s.feedback c a n
  let (m, f2) := signMean v
  let (p, f3) := encodeT .f16w false (s.collRm c a 0) m
  let q := decodeFloat .f16w p
  let res := v.map fun x => add32 x (if signNeg x then q else q.negate)
  let fl := res.foldl (fun f p => f ||| p.2) (f1 ||| f2 ||| f3)
  let s := (s.collFlags d fl).putResid d k c a (res.map (·.1))
  ((signWord v, p), match s.coll d k with
    | some c => s.setColl d k { c with nonfinite := c.nonfinite || nonfinite v }
    | none => s)

/-- Contribution bolts to owner `w`, from the packed groups or blocks, or the wire form of SRC (R428, R432, R433). -/
def State.conBolts (s : State) (c : Coll) (groups : Tab (List Nat)) (signs : Tab (Nat × Nat)) (w : Nat) :
    List (Nat × Nat × Bool) :=
  match c.mode with
  | 4 => ((s.groupsOf c w).flatMap fun g => Tab.get [] groups g).map fun p => (p, 0, false)
  | 5 => (s.signRuns c w).map fun r =>
      (signBolt ((List.range (r.2 - r.1)).map fun i => Tab.get (0, 0) signs (r.1 + i)), 0, false)
  | _ => (s.ownedUnits c w).map fun (a, n) =>
      let pf := wireEnc c.mode (s.collRm c a) (s.srcVals c a n)
      (pf.1, pf.2, nonfinite (wireDec c.mode n pf.1))

/-- Contributions made ready: groups or blocks packed, then the bolts of every owner; the device's own compressed ones
join what it has received. -/
def State.contribute (s : State) (d k : Nat) : State :=
  match s.coll d k with
  | none => s
  | some c =>
    let n := s.cdElems c.desc
    let own := s.ownOn c.axis
    let (gs, s) := if c.mode = 4 then
        (List.range (cdiv n 1024)).foldl (fun (t, s) g =>
          let (l, s) := s.packGroup d k c g
          (Tab.upd t g l, s)) (([] : Tab (List Nat)), s)
      else ([], s)
    let (ss, s) := if c.mode = 5 then
        (List.range (cdiv n 32)).foldl (fun (t, s) b =>
          let (x, s) := s.packSign d k c b
          (Tab.upd t b x, s)) (([] : Tab (Nat × Nat)), s)
      else ([], s)
    let outs := (s.peersOf c).map fun m => (m, s.conBolts c gs ss m)
    let mine := if c.mode ≥ 4 then s.conBolts c gs ss own else []
    let all := outs.flatMap (·.2)
    match s.coll d k with
    | none => s
    | some c =>
      let s := s.collFlags d (all.foldl (fun f p => f ||| p.2.1) 0)
      let s := s.setColl d k { c with
        out := outs.foldl (fun t p => Tab.upd t p.1 (p.2.map (·.1))) c.out
        contrib := mine.zipIdx.foldl (fun t (p, i) => Tab.upd t (32 * i + own) p.1) c.contrib
        nonfinite := c.nonfinite || all.any (·.2.2) }
      s.reduceOwned d k (s.ownedUnits c own).length

/-! ## Start -/

/-- The first sum of each ring chunk that this position begins; a single member's chunk is its result (R430). -/
def State.beginRings (s : State) (d k : Nat) : State :=
  match s.coll d k with
  | none => s
  | some c =>
    let own := s.ownOn c.axis
    (s.ringsOf c own).foldl (fun s r =>
      match r.pos.idxOf? own with
      | none => s
      | some q =>
        (s.pieceUnits c (r.piece (r.back q 1))).foldl (fun s (a, n) =>
          let pf := wireEnc c.mode (s.collRm c a) (s.srcVals c a n)
          if r.len = 1 then s.ownUnit d k r.pair a n pf else s.formUnit d k a n pf) s) s

/-- An ALL_GATHER's own chunk lands from SRC. -/
def State.beginGather (s : State) (d k : Nat) : State :=
  match s.coll d k with
  | none => s
  | some c =>
    let own := s.ownOn c.axis
    let ps := s.piecesOf c own
    (s.ownedUnits c own).foldl (fun s (a, n) =>
      s.landUnit d k a n (s.rawPayload (s.readCopy c.cmd) (s.desc (cdSrc c.desc)) (slotIndex ps a) n)) s

/-- An ALL_TO_ALL's own part is copied, and its rows counted (R446). -/
def State.beginRows (s : State) (d k : Nat) : State :=
  match s.coll d k with
  | none => s
  | some c =>
    let own := s.ownOn c.axis
    if !c.eff.contains own then s
    else
      let j := c.posOf own
      let src := s.desc (cdSrc c.desc)
      let dst := s.writtenDesc (s.desc (cdDst c.desc))
      let rows := (s.sendRows c j).toNat
      let s := (List.range rows).foldl (fun s i =>
        let x := c.partBase src j + i * rowElems src
        let y := c.partBase dst j + i * rowElems dst
        (s.rowUnits c src x).foldl (fun s (a, n) =>
          s.collPut d k c (rawCells dst (y + (a - x)) n (s.rawPayload (s.readCopy c.cmd) src a n))) s) s
      match s.coll d k with
      | none => s
      | some c => s.collPut d k c
          (elemCells (s.writtenDesc (s.desc (cdA2aCnt c.desc))) (c.eff.length + j) rows)

/-- The vote of a BARRIER (R442): COL.VERDICT as it stands; zeros with GRAD 0. -/
def State.voteOf (s : State) (c : Coll) : Nat :=
  let own := s.ownOn c.axis
  if cdGrad c.desc = 0 then ctrlPayload 2 own false 0 0 0 0
  else ctrlPayload 2 own (s.flag .colVerdict_nonfinite 0) (s.fld .colVerdict_stepMin 0) (s.fld .colVerdict_stepMax 0) 0 0

/-- The press at a collective's start (R486, R488): PWORK is zeroed, or statistics are held. -/
def State.beginPress (s : State) (d k : Nat) : State :=
  match s.coll d k with
  | none => s
  | some c =>
    match s.boundProg c with
    | some p =>
      if uhPress p.hdr = 1 then
        let src := s.desc (cdSrc c.desc)
        let hold := uhStathold p.hdr == 1 && s.fld .perStatus_arrears 0 > 0
        let s := s.setColl d k { c with held := hold }
        let s := if hold then { s with job := { s.job with pressHeld := true } } else s
        s.store (uaPwork p.aux) (List.replicate (16384 * (tdExt src 3 + tdExt src 2)) 0)
      else s
    | none => s

/-- Whether SRC's elements are read and decoded by this member. -/
def State.readsSrc (s : State) (c : Coll) : Bool :=
  c.eff.contains (s.ownOn c.axis) && c.ty != 5 && (c.ty != 3 || s.ownOn c.axis == cdRoot c.desc)

/-- What a starting collective does first. -/
def State.kick (s : State) (d k : Nat) : State :=
  match s.coll d k with
  | none => s
  | some c =>
    let xs := if s.readsSrc c then s.srcVals c 0 (tdCount (s.desc (cdSrc c.desc))) else []
    let s := s.setColl d k { c with
      nonfinite := nonfinite xs
      lsq := if c.tailed then xs.foldl addSquare 0 else 0
      vote := if c.ty = 5 then s.voteOf c else 0 }
    let s := if !c.eff.contains (s.ownOn c.axis) then s
      else match c.ty with
      | 2 => s.beginGather d k
      | 4 => s.beginRows d k
      | 3 => s
      | 5 => s
      | _ =>
        let s := s.beginPress d k
        if c.direct then s.contribute d k else s.beginRings d k
    ((s.pumpColl d k).drainHeld d k).pumpColl d k

/-- What ends a collective as it starts: an error of R423 to R425 that has become so, an extent of R423 or R481 that the
effective members decide, a count of R446, a context that is not open (R397). -/
def State.startErr (s : State) (d : Nat) (ctxs : List Nat) (c : Coll) (bound : Option UProg) : Err × Nat :=
  let a := cbCdesc c.cmd.word
  let e := s.collErr d ctxs c.desc bound.isSome
  let own := s.ownOn c.axis
  let sum (l : List (Nat × Nat)) : Nat := (l.map fun p => p.2).foldl (· + ·) 0
  if e ≠ .ok then (e, a)
  else if c.eff.contains own && ((c.ty == 1 && cdDstEn c.desc == 1 &&
      tdCount (s.desc (cdDst c.desc)) != sum (s.ownedUnits c own)) ||
      (c.ty == 2 && tdCount (s.desc (cdSrc c.desc)) != sum (s.ownedUnits c own))) then (.formatMismatch, a)
  else if (match bound with
      | some p => c.eff.contains own && !s.extentOk p c.desc
      | none => false) then (.updateExtent, a)
  else if c.ty = 4 && ((List.range c.eff.length).any (fun j => decide (s.sendRows c j < 0) ||
      decide (s.sendRows c j > (partRows (s.desc (cdSrc c.desc)) c.eff.length : Int))) ||
      (c.eff.contains own && decide (s.sendRows c (c.posOf own) >
        (partRows (s.desc (cdDst c.desc)) c.eff.length : Int)))) then (.a2aCount, a)
  else match (s.targets c).find? fun m => !s.flag .ctxEntry_open (c.ctx m) with
    | some m => (.contextFault, c.ctx m)
    | none => (.ok, 0)

/-- The tensors that a collective reads: descriptors. -/
def State.collReads (s : State) (c : Coll) : List Nat :=
  if !s.readsSrc c then []
  else (cdSrc c.desc :: ((if cdResidEn c.desc = 1 ∧ c.direct ∧ c.mode ≥ 4 then [cdResid c.desc] else []) ++
    if c.ty = 4 then [cdA2aCnt c.desc] else [])).map s.desc

/-- Handles of a collective and of its bound update program. -/
def State.collNames (s : State) (c : Coll) : List Nat :=
  cdHandles c.desc ++ (match s.boundProg c with
    | some p => p.handles
    | none => [])

/-- First uncorrectable granule of what a collective reads: descriptors, then tensors; judged at its start (log 100). -/
def State.readPoison (s : State) (c : Coll) : Option Nat :=
  s.handlePoison (s.collNames c) <|> (s.collReads c).findSome? (s.tensorPoison (s.readCopy c.cmd))

/-- The corrections of those reads counted (R302), at the start (log 100). -/
def State.readCounted (s : State) (c : Coll) : State :=
  (s.collReads c).foldl (fun s r => s.tensorCounted (s.readCopy c.cmd) r) (s.handlesCounted (s.collNames c))

/-- A collective as it starts. -/
def State.newColl (s : State) (q : QCmd) (cd : Nat) : Coll :=
  { cmd := q
    desc := cd
    eff := s.effective cd
    skip := s.skips cd
    tStart := s.timeAt q.die
    lastBolt := s.now
    stallRaised := false
    rx := []
    tx := []
    formed := []
    landed := []
    other := []
    contrib := []
    out := []
    reduced := 0
    ctrl := []
    vote := 0
    nonfinite := false
    heardNf := false
    done := false
    lsq := 0
    queued := []
    applied := 0
    pressed := []
    press := []
    pressNan := []
    held := false
    folded := false
    rows := []
    lagThr := s.fld .colCfg_lagThreshold 0
    stallUs := s.fld .colCfg_stallUs 0 }

/-- R426: a running collective uses a context of the block. -/
def State.blockBusy (s : State) (cd : Nat) : Bool :=
  s.colls.any fun p =>
    let x := p.2.desc
    cdCtxBase x < cdCtxBase cd + s.extent (cdAxis cd) && cdCtxBase cd < cdCtxBase x + s.extent (cdAxis x)

/-- A COLLECTIVE of type `t` at the head of die d's queue starts (R251, R424 to R427), with the descriptor that validation
read (R451). -/
def doCollective (d t : Nat) (s : State) : State :=
  match s.startable d 12 3, (List.range 16).find? (fun k => (s.coll d k).isNone) with
  | some q, some k =>
    if cdType q.body ≠ t ∨ s.blockBusy q.body then s
    else
      let c := s.newColl q q.body
      let s := s.popQueue d 12
      let ctxs := match s.job.active with
        | some m => if q.maint then [] else m.ctxs
        | none => []
      match s.handlePoison (s.collNames c) with
      | some g => s.collMemFail d k c (64 * g)
      | none =>
        let (e, x) := s.startErr d ctxs c (s.boundProg c)
        if e ≠ .ok then s.collFail d k c e x 0 x
        else
          match s.readPoison c with
          | some g => s.collMemFail d k c (64 * g)
          | none => (((s.readCounted c).setColl d k c).kick d k).enrol
  | _, _ => s

/-- ALL_REDUCE. -/
def execAllReduce (d : Fin 8) (s : State) : Host.Outcome State Fault Refusal := .next (doCollective d 0 s)
/-- REDUCE_SCATTER. -/
def execReduceScatter (d : Fin 8) (s : State) : Host.Outcome State Fault Refusal := .next (doCollective d 1 s)
/-- ALL_GATHER. -/
def execAllGather (d : Fin 8) (s : State) : Host.Outcome State Fault Refusal := .next (doCollective d 2 s)
/-- BROADCAST. -/
def execBroadcast (d : Fin 8) (s : State) : Host.Outcome State Fault Refusal := .next (doCollective d 3 s)
/-- ALL_TO_ALL. -/
def execAllToAll (d : Fin 8) (s : State) : Host.Outcome State Fault Refusal := .next (doCollective d 4 s)
/-- BARRIER. -/
def execBarrier (d : Fin 8) (s : State) : Host.Outcome State Fault Refusal := .next (doCollective d 5 s)

/-! ## Completion -/

/-- Whether every bolt expected from a peer has arrived (R447). -/
def State.heardAll (s : State) (c : Coll) : Bool :=
  (s.peersOf c).all fun f =>
    if c.ty = 4 then c.ctrl.any (·.1 == f) else (s.inRoles c f).length ≤ Tab.get 0 c.rx f

/-- Whether the owned chunk has landed. -/
def State.ownLanded (s : State) (c : Coll) : Bool :=
  !c.reduces || (s.ownedUnits c (s.ownOn c.axis)).all fun u => c.landed.any (·.1 == u.1)

/-- Blocks of the device's result. -/
def State.resultBlocks (s : State) (c : Coll) : Nat := ((s.resultOf c).map fun p => p.2 - p.1).foldl (· + ·) 0

/-- Whether a bound update program has applied every block, and the press has folded (R447, R487). -/
def State.updatesDone (s : State) (c : Coll) : Bool :=
  match s.boundProg c with
  | none => true
  | some p => !c.eff.contains (s.ownOn c.axis) ||
      (s.resultBlocks c ≤ c.applied && (uhPress p.hdr == 0 || c.folded))

/-- R447. -/
def State.collDone (s : State) (c : Coll) : Bool :=
  !c.done && s.heardAll c && s.ownLanded c && s.updatesDone c

/-- CTRL payloads of the other members, in increasing coordinate. -/
def State.heard (s : State) (c : Coll) : List Nat :=
  (c.eff.filter fun m => m != s.ownOn c.axis).map fun m => Tab.get 0 c.ctrl m

/-- Smallest and largest step counter (R438, R442). -/
def State.stepRange (s : State) (c : Coll) : Nat × Nat :=
  if c.ty = 5 then
    (c.vote :: s.heard c).foldl (fun a p => (min a.1 (bits p 32 32), max a.2 (bits p 64 32)))
      (bits c.vote 32 32, bits c.vote 64 32)
  else (s.heard c).foldl (fun a p => (min a.1 (bits p 32 32), max a.2 (bits p 32 32))) (s.tailStep c, s.tailStep c)

/-- REDUCED_SQ of R439: every member's SQ by rn64, in increasing coordinate. -/
def State.reducedSq (s : State) (c : Coll) : Nat :=
  c.eff.foldl (fun t m =>
    add64 t (if m = s.ownOn c.axis then s.ownSq c else bits (Tab.get 0 c.ctrl m) 96 64)) 0

/-- Largest self-delay that a broadcast's root has heard, and its coordinate: the lowest of equal ones (log 92). -/
def State.laggard (s : State) (c : Coll) : Nat × Nat :=
  let delay (m : Nat) : Nat := bits (Tab.get 0 c.ctrl m) 160 32
  if c.ty = 3 ∧ s.ownOn c.axis = cdRoot c.desc then
    match c.eff.filter fun m => m != s.ownOn c.axis with
    | [] => (0, 0)
    | m :: r => r.foldl (fun a x => if delay x > a.1 then (delay x, x) else a) (delay m, m)
  else (0, 0)

/-- Whether a completed collective folds into COL.VERDICT (R441, R442). A GRAD 1 BARRIER of one member hears no vote and folds
its own flag and step counter (R680; DEDUCED, log 155). -/
def State.foldColl (s : State) (c : Coll) : State :=
  if c.ty = 5 then
    if cdGrad c.desc = 1 then
      if (s.heard c).isEmpty then s.foldVerdict (s.flag .colVerdict_nonfinite 0) false (s.tailStep c) (s.tailStep c)
      else (s.heard c).foldl (fun s p => s.foldVerdict (bit p 9) false (bits p 32 32) (bits p 64 32)) s
    else s
  else if c.tailed then
    let r := s.stepRange c
    s.foldVerdict c.anyNf (r.1 != r.2) r.1 r.2
  else s

/-- The dies on which a collective and its update program write (R274; 8 for the tier). -/
def State.collDies (s : State) (c : Coll) : List Nat :=
  let tensor (h : Nat) := s.dieOf (tdBase (s.desc h))
  let cd := c.desc
  let x (p : UProg) := p.aux
  nub ((if cdDstEn cd = 1 ∧ c.ty ≠ 5 then [tensor (cdDst cd)] else []) ++
    (if cdResidEn cd = 1 ∧ c.mode ≥ 4 then [tensor (cdResid cd)] else []) ++
    (if c.ty = 4 then [tensor (cdA2aCnt cd)] else []) ++
    (match s.boundProg c with
    | some p =>
      ((p.used.filter fun k => usStore (p.slot k) == 1).map fun k => tensor (usHandle (p.slot k))) ++
      (if uhPress p.hdr = 1 then
        [uaLstat (x p), uaLroot (x p), uaRstat (x p), uaRroot (x p)].map tensor ++ [s.dieOf (uaPwork (x p))] else []) ++
      (if uhRows p.hdr = 1 then [tensor (uaRowhdr (x p)), s.dieOf (uaRowlog (x p))] else [])
    | none => []) ++
    if s.dram (cdRecord cd) 64 then [s.dieOf (cdRecord cd)] else [])

/-- COLLECTIVE_COMPLETE (R441, R444, R447, R448): the record is written, the verdict folded, the monitors fed, and the
command completes. One whose record does not land ends in error instead (R302). -/
def doCollComplete (d k : Nat) (s : State) : State :=
  match s.coll d k with
  | none => s
  | some c =>
    if !s.collDone c then s
    else
      let (lo, hi) := s.stepRange c
      let g := cdGrad c.desc == 1
      let nf := if c.ty = 5 then (c.vote :: s.heard c).any (bit · 9) else c.anyNf
      let sq := if c.tailed then (c.lsq, s.reducedSq c) else (0, 0)
      let lag := s.laggard c
      let rec_ := collRec stDone (b2n nf) (b2n (g && lo != hi)) (b2n c.skip) 0 c.cmd.step (s.fencedOf c.desc)
        (if g then lo else 0) (if g then hi else 0) lag.1 lag.2 sq.1 sq.2 c.tStart (s.timeAt d)
      match (s.setColl d k { c with done := true }).putRecord (cdRecord c.desc) rec_ with
      | (s, false) => ((s.dropColl d k).failCmd c.cmd .memUncorrectable (cdRecord c.desc)).enrol
      | (s, true) =>
      let s := s.monFeed 1 (selDie d) (natSample (s.timeAt d - c.tStart))
      let root := c.ty == 3 && s.ownOn c.axis == cdRoot c.desc
      let s := if root then s.monFeed 8 (fun _ => true) (natSample lag.1) else s
      let s := if root && lag.1 > c.lagThr then
          s.raise .multicastLaggard d 0xFF (listArg c.cmd.listId c.cmd.index) (cbCdesc c.cmd.word)
            (min (2 ^ 32 - 1) lag.1 + lag.2 * 2 ^ 32)
        else s
      -- R440; a LAYER tag at or above LAYERS counts in LAYERS_OVER (R640)
      let aboveN := b2n (c.tailed && s.job.active.any fun m => cmLayer c.cmd.word ≥ m.layers)
      let s := if c.tailed && !c.cmd.maint then { s with job := { s.job with
          layersOver := s.job.layersOver + aboveN
          sq := sqInsert (c.cmd.listId, c.cmd.index, cmLayer c.cmd.word, sq.1, sq.2) s.job.sq } } else s
      let s := s.completeCmd c.cmd (s.collDies c)
      ((s.foldColl c).reapColl d k).enrol

/-- COLLECTIVE_COMPLETE. -/
def execCollectiveComplete (d : Fin 8) (slot : Fin 16) (s : State) : Host.Outcome State Fault Refusal :=
  .next (doCollComplete d slot s)

/-- STALL_US as in force: 0 means 8 × N (R449). -/
def State.stallTime (s : State) (c : Coll) : Nat := if c.stallUs = 0 then 8 * s.fld .perCfg_nominalUs 0 else c.stallUs

/-- COLLECTIVE_STALL (R449): once for each collective that has received no bolt for that time. -/
def doCollStall (d k : Nat) (s : State) : State :=
  match s.coll d k with
  | none => s
  | some c =>
    let t := s.stallTime c
    if !c.done && !c.stallRaised && s.now - c.lastBolt ≥ 1000 * t then
      (s.raise .collectiveStall d 0xFF (listArg c.cmd.listId c.cmd.index) (cbCdesc c.cmd.word) t).setColl d k
        { c with stallRaised := true }
    else s

/-- COLLECTIVE_STALL. -/
def execCollectiveStall (d : Fin 8) (slot : Fin 16) (s : State) : Host.Outcome State Fault Refusal :=
  .next (doCollStall d slot s)

end Sys2Proof.Machine
end

