-- ==== Sys2Proof/Machine/Validate.lean ====
section
/-! DEFINITION. Validation of command lists (R259 to R262, R278, R293, R353, R645): each list's records in order, the
first failure of each list, and the lists and programs that are kept. -/

namespace Sys2Proof.Machine

/-- What validation finds wrong: the error, the record's index, the ENGINE field of the completion record (R261), its ARG,
and whether ARG is an instruction address. -/
structure Bad where
  err : Err
  record : Nat
  engine : Nat
  arg : Nat
  isIp : Bool
  deriving DecidableEq, Repr

/-- A body error of a command: error, ENGINE, ARG, and whether ARG is an instruction address. -/
abbrev BodyErr := Err × Nat × Nat × Bool

/-! ## Common fields -/

/-- R256: whether a unit accepts a kind. -/
def unitAccepts (unit kind : Nat) : Bool :=
  match kind with
  | 0 => true
  | 1 => unit ≤ 7
  | 2 => inRange 8 11 unit
  | 3 => unit == 12
  | 5 => unit == 13
  | _ => false

/-- R257: the body bits a kind does not use are 0, and its codes and ranges hold (R258). A MAINT SIZE that is not a multiple of
64 is judged here too, as FIELD_INVALID (DESIGN CHOICE, log 244). -/
def bodyFieldsOk (w : Nat) : Bool :=
  match cmKind w with
  | 0 => bits w 160 352 == 0
  | 1 => bits w 221 291 == 0 && inRange 1 4096 (cbLength w)
  | 2 => bits w 208 304 == 0
  | 3 => bits w 256 256 == 0
  | _ => bits w 280 232 == 0 && inRange 1 5 (cbOp w) && cbSize w % 64 == 0

/-- Tokens that a command names with a count: waits, then signals. -/
def cmdTokens (w : Nat) : List Nat × List Nat :=
  (([(cmW0Token w, cmW0Count w), (cmW1Token w, cmW1Count w)].filter (·.2 != 0)).map (·.1),
   (cmdSignals w).map (·.2.1))

/-- R278, R645: tokens of a command: maintenance lists name tokens 0 to 255, main-job commands signal no host token. -/
def tokensOk (maint : Bool) (w : Nat) : Bool :=
  let (a, b) := cmdTokens w
  if maint then (a ++ b).all (· ≤ 255) else b.all (· < 4032)

/-! ## Bodies -/

/-- What a check finds that reads the descriptors of handles `hs`, for the command of engine `e`: an uncorrectable one of them
stops it (R302). An error found before they are read, `early`, comes first (DEDUCED, log 207). -/
def State.onHandles (s : State) (e : Nat) (hs : List Nat) (early : Bool) (r : Option BodyErr) : Option BodyErr :=
  if early then r
  else match s.handlePoison hs with
    | some g => some (.memUncorrectable, e, 64 * g, false)
    | none => r

/-- The errors of R244 that a program's words alone decide. -/
def wordErr (e : Err) : Bool := [Err.illegalOpcode, .fieldInvalid, .loopNest, .noEnd].contains e

/-- RUN: place and program (R206, R244). -/
def State.runErr (s : State) (maint : Bool) (w : Nat) : Option BodyErr :=
  let e := cmEngine w
  let n := 16 * cbLength w
  if cbProg w % 16 ≠ 0 ∨ !s.dram (cbProg w) n then some (.addressInvalid, e, cbProg w, false)
  else match s.firstPoison (cbProg w) n with
    | some g => some (.memUncorrectable, e, 64 * g, false)
    | none =>
      let ws := s.progWords w
      let r := s.progErr maint ws
      s.onHandles e (progHandles ws) (r.any fun x => wordErr x.1)
        (r.map fun x => (x.1, if x.2.2 = 0xFF then e else x.2.2, x.2.1, true))

/-- STREAM: its descriptor (R352, R353). -/
def State.streamBad (s : State) (w : Nat) : Option BodyErr :=
  let e := cmEngine w
  let a := cbSdesc w
  if a % 64 ≠ 0 ∨ !s.dram a 64 then some (.addressInvalid, e, a, false)
  else if s.poisoned a 64 then some (.memUncorrectable, e, a, false)
  else
    let r := s.rd a 64
    let x := s.streamCheck r
    s.onHandles e [sdBound r, sdPack r] (x == .fieldInvalid || sdLate r == 1)
      (if x = .ok then none else some (x, e, a, false))

/-- The first uncorrectable granule of a program and its table. -/
def State.uprogPoison (s : State) (p : UProg) : Option Nat :=
  match s.firstPoison p.addr (64 * p.recs.length) with
  | some a => some a
  | none => if s.dram (uhLrtab p.hdr) (8 * p.lr.length) then s.firstPoison (uhLrtab p.hdr) (8 * p.lr.length) else none

/-- COLLECTIVE: its descriptor and update program (R423 to R425, R481). -/
def State.collBad (s : State) (d : Nat) (ctxs : List Nat) (w : Nat) : Option BodyErr :=
  let e := cmEngine w
  let a := cbCdesc w
  let u := cbUprog w
  if a % 64 ≠ 0 ∨ !s.dram a 64 then some (.addressInvalid, e, a, false)
  else if u ≠ 0 ∧ (u % 64 ≠ 0 ∨ !s.dram u 64) then some (.addressInvalid, e, u, false)
  else if s.poisoned a 64 then some (.memUncorrectable, e, a, false)
  else
    let cd := s.rd a 64
    let x := s.collErr d ctxs cd (u != 0)
    match s.onHandles e (cdHandles cd) (x == .fieldInvalid || x == .addressInvalid)
      (if x = .ok then none else some (x, e, a, false)) with
    | none =>
      if u = 0 then none
      else
        let p := s.readUprog d u
        if !s.dram u (64 * p.recs.length) then some (.addressInvalid, e, u, false)
        else match s.uprogPoison p with
          | some g => some (.memUncorrectable, e, 64 * g, false)
          | none =>
            let x := s.uprogErr d p cd
            s.onHandles e p.handles (!p.recordsOk cd) (if x = .ok then none else some (x, e, u, false))
    | some b => some b

/-- MAINT of die d: its region (R257), which lies in the die's own stack, the one its controller reaches (R36; the error
is DEDUCED, log 63); without a region, ADDR still lies in stacked DRAM or the tier. -/
def State.maintErr (s : State) (d w : Nat) : Option BodyErr :=
  if cbAddr w % 64 ≠ 0 ∨ (if cbSize w = 0 then !s.dram (cbAddr w) 1 else !s.ownStack d (cbAddr w) (cbSize w)) then
    some (.addressInvalid, cmEngine w, cbAddr w, false)
  else none

/-- The body of a command. -/
def State.bodyErr (s : State) (maint : Bool) (d : Nat) (ctxs : List Nat) (w : Nat) : Option BodyErr :=
  match cmKind w with
  | 0 => none
  | 1 => s.runErr maint w
  | 2 => s.streamBad w
  | 3 => s.collBad d ctxs w
  | _ => s.maintErr d w

/-- R284: whether a valid command needs the commit token. -/
def State.needsCommit (s : State) (w : Nat) : Bool :=
  match cmKind w with
  | 2 => s.streamCommit (s.rd (cbSdesc w) 64)
  | 3 => true
  | _ => false

/-- R260 on one command of a list of die d, in the order of its table. -/
def State.cmdBad (s : State) (maint : Bool) (d : Nat) (ctxs : List Nat) (w : Nat) : Option BodyErr :=
  let e := cmEngine w
  if s.engineAbsent e then some (.engineAbsent, e, 0, false)
  else match (cmdSignals w).find? fun x => s.absent x.1 with
    | some x => some (.engineAbsent, x.1 * 16 + 15, 0, false)
    | none =>
      if e / 16 ≠ d then some (.listDie, e, 0, false)
      else if !([0, 1, 2, 3, 5].contains (cmKind w)) then some (.badKind, e, 0, false)
      else if !unitAccepts (e % 16) (cmKind w) then some (.kindEngine, e, 0, false)
      else if cmKind w = 5 ∧ !maint then some (.kindJob, e, 0, false)
      else if !(cmClean w && bodyFieldsOk w && tokensOk maint w) then some (.fieldInvalid, e, 0, false)
      else match s.bodyErr maint d ctxs w with
        | some x => some x
        | none => if cmRecompute w = 1 ∧ s.needsCommit w then some (.recomputeWrite, e, 0, false) else none

/-! ## Lists -/

/-- What the validation of a job's lists has gathered so far. -/
structure Gathered where
  seen : List Nat := []
  /-- Records by die. -/
  records : Tab Nat := []
  progs : List UProg := []
  lists : List StoredList := []
  /-- Failing lists in order: LIST_ID and COMPLETION where the header gives them, die, T, and what is wrong. -/
  fails : List (Option Nat × Option Nat × Nat × Nat × Bad) := []
  deriving Repr

/-- Records that a die's list store holds (R262). -/
def storeRecords : Nat := 65536

/-- Bytes of a die's program store (R467). -/
def programStore : Nat := 262144

/-- R260 on a header: `periods` is the bound of PERIOD, none in a maintenance list (its lists run in no step). -/
def State.headerErr (s : State) (periods : Option Nat) (g : Gathered) (h : Nat) : Option (Err × Nat) :=
  let maint := periods.isNone
  if lhKind h ≠ 0xF0 ∨ !inRange 1 4096 (lhCount h) ∨ (periods.any fun p => lhPeriod h ≥ p) ∨ lhCompletion h % 64 ≠ 0 ∨
      g.seen.contains (lhListId h) ∨ lhJob h ≠ b2n maint then some (.listFormat, 0xFF)
  else if lhDie h ≥ 8 ∨ s.absent (lhDie h) then some (.engineAbsent, lhDie h * 16 + 15)
  else if !lhClean h ∨ (maint ∧ lhStartCount h ≠ 0 ∧ lhStartToken h > 255) then some (.fieldInvalid, 0xFF)
  else if !s.dram (lhCompletion h) 64 then some (.addressInvalid, 0xFF)
  else if Tab.get 0 g.records (lhDie h) + 1 + lhCount h > storeRecords then some (.listStoreFull, 0xFF)
  else none

/-- A program kept once per die and address; the error when the store overflows. -/
def addProg (l : List UProg) (p : UProg) : List UProg :=
  if l.any fun q => q.die == p.die && q.addr == p.addr then l else l ++ [p]

/-- Bytes that a die's programs take. -/
def progBytes (l : List UProg) (d : Nat) : Nat := ((l.filter (·.die == d)).map UProg.size).sum

/-- What a list keeps of a command: the record, whether it needs the commit token, and a COLLECTIVE's descriptor. -/
abbrev Kept := Nat × Bool × Nat

/-- A valid command as its list keeps it (R262, R284, R451). -/
def State.keep (s : State) (w : Nat) : Kept := (w, s.needsCommit w, if cmKind w = 3 then s.rd (cbCdesc w) 64 else 0)

/-- Commands checked in record order: what is kept of them and the programs, or the first failure. -/
def State.checkCmds (s : State) (maint : Bool) (d : Nat) (ctxs : List Nat) (rd : Nat → Nat ⊕ Nat) :
    Nat → Nat → List UProg → List Kept → Bad ⊕ (List UProg × List Kept)
  | 0, _, ps, ks => .inr (ps, ks)
  | n + 1, i, ps, ks =>
    match rd i with
    | .inl a => .inl ⟨.memUncorrectable, i, 0xFF, a, false⟩
    | .inr w =>
      match s.cmdBad maint d ctxs w with
      | some (e, g, a, ip) => .inl ⟨e, i, g, a, ip⟩
      | none =>
        let ps' := if cmKind w = 3 ∧ cbUprog w ≠ 0 then addProg ps (s.readUprog d (cbUprog w)) else ps
        if progBytes ps' d > programStore then .inl ⟨.listStoreFull, i, cmEngine w, 0, false⟩
        else State.checkCmds s maint d ctxs rd n (i + 1) ps' (ks ++ [s.keep w])

/-- One list: `rd i` gives record i (right), or the address at which it cannot be read (left). -/
def State.checkList (s : State) (periods : Option Nat) (ctxs : List Nat) (rd : Nat → Nat ⊕ Nat) (g : Gathered) :
    Gathered :=
  match rd 0 with
  | .inl a => { g with fails := g.fails ++ [(none, none, 8, 0xFF, ⟨.memUncorrectable, 0, 0xFF, a, false⟩)] }
  | .inr h =>
    let id := lhListId h
    let d := lhDie h
    let comp := if lhCompletion h % 64 = 0 ∧ s.dram (lhCompletion h) 64 then some (lhCompletion h) else none
    let g' := { g with seen := g.seen ++ [id] }
    match s.headerErr periods g h with
    | some (e, en) => { g' with fails := g'.fails ++ [(some id, comp, if d < 8 then d else 8, 0xFF, ⟨e, 0, en, 0, false⟩)] }
    | none =>
      let g' := { g' with records := Tab.put 0 g'.records d (Tab.get 0 g'.records d + 1 + lhCount h) }
      match s.checkCmds periods.isNone d ctxs rd (lhCount h) 1 g'.progs [] with
      | .inl b =>
        let u := match rd b.record with
          | .inr w => cmEngine w % 16
          | .inl _ => 0xFF
        { g' with fails := g'.fails ++ [(some id, comp, d, u, b)] }
      | .inr (ps, ks) =>
        let l : StoredList := ⟨d, id, lhClass h, periods.isNone, lhPeriod h, lhStartToken h, lhStartCount h,
          lhCompletion h, ks.map (·.1), ks.map (·.2.1), ks.map (·.2.2)⟩
        { g' with
          progs := ps
          lists := g'.lists ++ [l] }

/-- Record i of a list in device memory. -/
def State.listRecord (s : State) (a i : Nat) : Nat ⊕ Nat :=
  if s.poisoned (a + 64 * i) 64 then .inl (a + 64 * i) else .inr (s.rd (a + 64 * i) 64)

/-- A list of a manifest by the address of its header (DEDUCED, log 66: an address that is misaligned or outside the
memories fails with ADDRESS_INVALID). -/
def State.checkListAt (s : State) (periods : Nat) (ctxs : List Nat) (g : Gathered) (a : Nat) : Gathered :=
  if a % 64 ≠ 0 ∨ !s.dram a 64 then
    { g with fails := g.fails ++ [(none, none, 8, 0xFF, ⟨.addressInvalid, 0, 0xFF, 0, false⟩)] }
  else s.checkList (some periods) ctxs (s.listRecord a) g

/-- Corrections of what validation reads for a record counted (R302): the program, stream descriptor, or collective
descriptor and update program that it names, and the descriptors of their handles. -/
def State.bodyCounted (s : State) (w : Nat) : State :=
  match cmKind w with
  | 1 => (s.counted (cbProg w) (16 * cbLength w)).handlesCounted (progHandles (s.progWords w))
  | 2 =>
    let r := s.rd (cbSdesc w) 64
    let s := s.counted (cbSdesc w) 64
    if sdLate r = 1 then s else s.handlesCounted [sdBound r, sdPack r]
  | 3 =>
    let s := (s.counted (cbCdesc w) 64).handlesCounted (cdHandles (s.rd (cbCdesc w) 64))
    if cbUprog w = 0 then s
    else
      let p := s.readUprog 0 (cbUprog w)
      ((s.counted (cbUprog w) (64 * p.recs.length)).counted (uhLrtab p.hdr) (8 * p.lr.length)).handlesCounted p.handles
  | _ => s

/-- Corrections counted of the records, and what they name, that validation read of the list at `a`: all of them, or those
up to the failing one. `g` and `g'` are the validation before and after the list. -/
def State.listCounted (s : State) (a : Nat) (g g' : Gathered) : State :=
  if s.clean || a % 64 != 0 || !s.dram a 64 then s
  else
    let n := match g'.fails.drop g.fails.length with
      | f :: _ => f.2.2.2.2.record
      | [] => lhCount (s.rd a 64)
    (List.range (n + 1)).foldl (fun s i =>
      let s := s.counted (a + 64 * i) 64
      if i = 0 then s else s.bodyCounted (s.rd (a + 64 * i) 64)) s

/-- A failing list reported (R259, R267, R669): its completion record REJECTED where one can be written, and one ERROR
event. -/
def State.reject (s : State) (seq : Nat) (f : Option Nat × Option Nat × Nat × Nat × Bad) : State :=
  let (id, comp, d, u, b) := f
  let i := id.getD 0xFFFF
  let s := match comp with
    | some a => s.wrRecord a (completionRec stRejected b.engine b.err.code 0 b.record i 0 s.now b.arg)
    | none => s
  if b.err = .memUncorrectable then s.uncorrectable b.arg
  else s.raise b.err d u (listArg i b.record) (if b.isIp then b.arg else b.engine) seq

end Sys2Proof.Machine
end

