-- ==== Sys2Proof/Machine/Job.lean ====
section
/-! DEFINITION. Manifests (R634 to R638), the start of a main job (R394, R457 to R461), the stop a peer asks for (R570),
recovery (R571, R572) and the restore of a lost granule. -/

namespace Sys2Proof.Machine

/-! ## Ring results -/

/-- R634, R643: bytes 56 to 63 of a ring entry written. -/
def State.ringResult (s : State) (a result err list : Nat) : State :=
  s.hwr (a + 56) (leBytes 8 (result + err * 2 ^ 16 + list * 2 ^ 32))

/-- A manifest ring entry is handled: result, HEAD, vector RING. -/
def State.manifestDone (s : State) (a result err list : Nat) : State :=
  ((s.ringResult a result err list).advanceRing .manifest).signal 1

/-! ## Checks on the manifest -/

/-- R635: an address field of a manifest. -/
def State.tableOk (s : State) (a n : Nat) : Bool := a % 64 == 0 && s.dram a n

/-- MANIFEST_INVALID of R634, R635 and R637 on an entry and its header. -/
def State.manifestOk (s : State) (e h : Nat) : Bool :=
  meKind e == 1 && meClean e &&
  mfKind h == 0xB1 && mfClean h && mfPeriods h ≥ 1 && inRange 50 10000000 (mfNominalUs h) && mfCatchupCap h ≤ 32 &&
  mfArrearsEvent h ≥ 1 && mfStep h ≥ 1 && mfListCount h ≥ 1 && mfStatusRing h % 64 == 0 && mfStatusSlots h ≥ 1 &&
  mfLayers h ≤ 1024 && s.tableOk (mfDescTable h) 64 && s.tableOk (mfListTable h) (8 * mfListCount h) &&
  (mfCtxCount h == 0 || s.tableOk (mfCtxTable h) (8 * mfCtxCount h))

/-- Context entries of a manifest (R636). -/
def State.ctxEntries (s : State) (h : Nat) : List Nat :=
  (List.range (mfCtxCount h)).map fun i => s.rd (mfCtxTable h + 8 * i) 8

/-- Whether numbers are pairwise different; fast on sorted and unsorted lists alike by marking in a table. -/
def allDistinct (l : List Nat) : Bool := (nub l).length == l.length

/-- CONTEXT_INVALID of R636 and R637. -/
def contextEntriesOk (l : List Nat) : Bool :=
  l.all (fun e => ceClean e && ceContext e ≤ 4094 && ceKind e != 3 && ceCredits e ≥ 1) &&
    allDistinct (l.map ceContext)

/-- R510: periods per step of a mapping record. -/
def State.periodsOf (s : State) (r : Nat) : Nat :=
  if jmSchedule r = 0 then jmMicro r + 2 * (s.extent 2 - 1) else 2 * (jmMicro r + s.extent 2 - 1)

/-- MAPPING_INVALID of R503. -/
def State.mappingOk (s : State) (h r : Nat) : Bool :=
  jmKind r == 0xA7 && jmClean r && jmSchedule r ≤ 1 && jmMicro r != 0 &&
    (List.range 5).all (fun a => coordOn (jmLogical r) a < s.extent a) && mfPeriods h == s.periodsOf r

/-- The checks of R637 before the lists, in the order of the text (DEDUCED, log 68). -/
def State.manifestErr (s : State) (e h r : Nat) : Err :=
  if !s.manifestOk e h then .manifestInvalid
  else if !contextEntriesOk (s.ctxEntries h) then .contextInvalid
  else if s.jobRuns || s.job.accepted.isSome || s.job.standby.isSome then .jobActive
  else if !(s.fuses.state == 1 || s.fuses.state == 2) then .lifecycleDenied
  else if s.flag .startStatus_noImage 0 then .configAbsent
  else if s.flag .startStatus_noPlan 0 then .planAbsent
  else if s.outOfService then .deviceDegraded
  else if mfMinIsa h > s.fld .irlLevel_isaLevel 0 ∨ mfMinUpdate h > s.fld .irlLevel_updateLevel 0 then .isaLevelLow
  else if s.job.lastEdition = some (s.fld .torEdition_current 0) then .editionStale
  else if !s.mappingOk h r then .mappingInvalid
  else .ok

/-- The manifest as the machine keeps it. -/
def mkManifest (h r : Nat) (ctxs : List Nat) (seq : Nat) : Manifest :=
  { standby := mfStandby h == 1
    cur := mfCur h
    periods := mfPeriods h
    nominal := mfNominalUs h
    cap := mfCatchupCap h
    arrearsEvent := mfArrearsEvent h
    step := mfStep h
    steps := mfSteps h
    seed := mfSeed h
    descTable := mfDescTable h
    ctxs := ctxs
    statusRing := mfStatusRing h
    statusSlots := mfStatusSlots h
    layers := mfLayers h
    logical := jmLogical r
    replica := jmReplica r
    schedule := jmSchedule r
    micro := jmMicro r
    recipe := jmRecipe r
    ringSeq := seq }

/-- A manifest refused as a whole. DEVICE_DEGRADED and LIFECYCLE_DENIED raise no event here: R669 gives those codes
other arguments (DEDUCED, log 69). -/
def State.refuse (s : State) (a seq : Nat) (e : Err) : State :=
  let s := if e = .deviceDegraded ∨ e = .lifecycleDenied then s else s.raise e 8 0xFF wholeArg 0xFF seq
  s.manifestDone a 2 e.code 0xFFFF

/-- The first uncorrectable granule that the reading of a manifest meets. -/
def State.manifestPoison (s : State) (a h : Nat) : Option Nat :=
  match s.firstPoison a 128 with
  | some x => some x
  | none => match s.firstPoison (mfListTable h) (8 * mfListCount h) with
    | some x => some x
    | none => if mfCtxCount h = 0 then none else s.firstPoison (mfCtxTable h) (8 * mfCtxCount h)

/-- The lists of a manifest validated (R259): the descriptors are those of its own table. -/
def State.checkLists (s : State) (h : Nat) (ctxs : List Nat) : Gathered :=
  let v := { s with job := { s.job with descTable := mfDescTable h } }
  (List.range (mfListCount h)).foldl (fun g i => v.checkListAt (mfPeriods h) ctxs g (s.rd (mfListTable h + 8 * i) 8)) {}

/-- Corrections counted of what the reading of a manifest and the validation of its lists read (R302). -/
def State.manifestCounted (s : State) (p h : Nat) (ctxs : List Nat) : State :=
  if s.clean then s
  else
    let v := { s with job := { s.job with descTable := mfDescTable h } }
    let s := (s.counted p 128).counted (mfListTable h) (8 * mfListCount h)
    let s := if mfCtxCount h = 0 then s else s.counted (mfCtxTable h) (8 * mfCtxCount h)
    ((List.range (mfListCount h)).foldl (fun (g, s) i =>
      let a := v.rd (mfListTable h + 8 * i) 8
      let g' := v.checkListAt (mfPeriods h) ctxs g a
      (g', s.listCounted a g g')) (({} : Gathered), s)).2

/-- An entry of the manifest ring that is no command (R634 to R638). -/
def State.takeManifest (s : State) (a e : Nat) : State :=
  let seq := meSeq e
  let p := meAddr e
  if meLength e ≠ 128 ∨ !s.tableOk p 128 then s.refuse a seq .manifestInvalid
  else
    let h := s.rd p 64
    let r := s.rd (p + 64) 64
    match s.firstPoison p 128 with
    | some x => (s.uncorrectable (64 * x)).manifestDone a 2 Err.memUncorrectable.code 0xFFFF
    | none =>
      let err := s.manifestErr e h r
      if err ≠ .ok then s.refuse a seq err
      else match s.manifestPoison p h with
        | some x => (s.uncorrectable (64 * x)).manifestDone a 2 Err.memUncorrectable.code 0xFFFF
        | none =>
          let ctxs := s.ctxEntries h
          let g := s.checkLists h ctxs
          let s := s.manifestCounted p h ctxs
          match g.fails with
          | f :: _ =>
            (g.fails.foldl (fun s f => s.reject seq f) s).manifestDone a 2 f.2.2.2.2.err.code (f.1.getD 0xFFFF)
          | [] =>
            let m := mkManifest h r ctxs seq
            let s := { s with job := { s.job with
              accepted := if m.standby then none else some m
              standby := if m.standby then some m else none
              stopped := none
              lists := g.lists
              progs := g.progs } }
            let s := if m.standby then s.setFld .fltRecover_status 0 3 else s
            s.manifestDone a 1 0 0xFFFF

/-- MANIFEST: the next entry taken from the manifest ring, when it is no signed command. -/
def doManifest (s : State) : State :=
  match s.hif.taken with
  | (a, e) :: rest =>
    if meKind e = 2 then s else { s with hif := { s.hif with taken := rest } }.takeManifest a e
  | [] => s

/-- MANIFEST. -/
def execManifest (s : State) : Host.Outcome State Fault Refusal := .next (doManifest s)

/-! ## Start -/

/-- R394: one context opened at the current edition. -/
def State.openContext (s : State) (e : Nat) : State :=
  let c := ceContext e
  let s := ((s.setFld .ctxEntry_peer c (cePeer e)).setFld .ctxEntry_kind c (ceKind e)).setFld .ctxEntry_credits c
    (ceCredits e)
  let s := ((s.setFld .ctxEntry_epoch c s.job.epoch).setFld .ctxEntry_openEdition c
    (s.fld .torEdition_current 0)).setFlag .ctxEntry_fault c false
  let s := ((s.setFld .ctxEntry_txSeq c 0).setFld .ctxEntry_rxSeq c 0).setFlag .ctxEntry_open c true
  { s with tor := { s.tor with
    stamp := Tab.erase s.tor.stamp c
    unreturned := Tab.erase s.tor.unreturned c
    reqs := Tab.erase s.tor.reqs c
    stores := Tab.erase s.tor.stores c
    answers := Tab.erase s.tor.answers c } }

/-- The contexts of a job opened at the new epoch; the edition is remembered (R394, R395). -/
def State.openContexts (s : State) (m : Manifest) : State :=
  let s := { s with job := { s.job with
    epoch := s.job.epoch + 1
    lastEdition := some (s.fld .torEdition_current 0) } }
  m.ctxs.foldl State.openContext s

/-- Registers that mirror the manifest of the running job (R68, R115, R506). -/
def State.mirrorManifest (s : State) (m : Manifest) : State :=
  let s := ((s.setFld .perCfg_nominalUs 0 m.nominal).setFld .perCfg_catchupCap 0 m.cap).setFld .perCfg_arrearsEvent 0
    m.arrearsEvent
  let s := (((s.setFld .mapJob_logical 0 m.logical).setFld .mapJob_replica 0 m.replica).setFld .mapJob_schedule 0
    m.schedule).setFld .mapJob_micro 0 m.micro
  (((((s.setFld .sclRecipe_weightExp 0 (bits m.recipe 0 8)).setFld .sclRecipe_actExp 0 (bits m.recipe 8 8)).setFld
    .sclRecipe_agradExp 0 (bits m.recipe 16 8)).setFld .sclRecipe_wgradExp 0 (bits m.recipe 24 8)).setFld
    .sclRecipe_momentExp 0 (bits m.recipe 32 8))

/-- Step `pos` opens now as the job's first one, with arrears `a` (R61, R66, R264). ARREARS_HIGH is armed
again where they are 0 (DESIGN CHOICE, log 230). -/
def State.openJob (s : State) (m : Manifest) (pos a : Nat) : State :=
  let s := s.setFld .perStatus_arrears 0 a
  let s := if a = 0 then s.setFlag .perStatus_armed 0 true else s
  let s := (s.setFlag .fltStop_stopped 0 false).setFld .fltStop_cause 0 0
  let s := { s with
    irl := { s.irl with
      held := 0
      commit := none }
    job := { s.job with
      accepted := none
      standby := none
      stopped := none
      active := some m
      runs := mkRuns s.job.lists pos
      pos := pos
      tstep := pos
      period := 0
      sTime := s.now
      tOpen := s.now
      tOpenNext := []
      closing := none
      rolling := false
      seed := m.seed
      descTable := m.descTable
      logical := m.logical
      replica := m.replica
      lost := [] } }
  let s := { s with job := { s.job with tLen := s.target } }
  s.clearAccounts.emptyCaches

/-- R645: host-token signals held while no main job ran are applied. -/
def State.applyHeld (s : State) : State :=
  let l := s.hif.heldSig
  let s := { s with hif := { s.hif with heldSig := [] } }
  l.foldl (fun s (d, k, n) =>
    let key := 4096 * d + k
    { s.tokSignal false d k n wholeArg with hif := { s.hif with
      hostSig := Tab.put 0 s.hif.hostSig key (Tab.get 0 s.hif.hostSig key + n) } }) s

/-- R144, R126, R214: the mode and the vector registers of a gathering at the start of a main job. A change of
configuration drops what R143 drops, and a program that runs keeps its debug mode (R246; DEDUCED, log 184). -/
def State.startMode (s : State) (i : Nat) : State :=
  let x := s.gath (i / 8) (i % 8)
  let k : GCore := { x.core with config := 0, shape := 0, buck := 64, ftz := false, v := [] }
  let k := if x.core.config = 0 then k else k.dropCells
  let s := (s.setGath (i / 8) (i % 8) { x with core := k }).mirrorMode (i / 8) (i % 8)
  if x.cmd.isNone then s.setFlag .gthCfg_debug i false else s

/-- R134, R241, R365, R478: flags that a main-job start clears on every die. -/
def State.clearJobFlags (s : State) : State :=
  let s := (List.range 64).foldl (fun s i =>
    (((((s.putGthFlags i 0).resetFld .gthSeqstat_hazard i).resetFld .gthSeqstat_hazardIp i).resetFld
      .gthSeqstat_hazardRes i).resetFld .gthSeqstat_stop i).resetFld .gthSeqstat_hazards i) s
  (List.range 8).foldl (fun s d =>
    let s := s.setFld .updNumstat_flags d 0
    (List.range 4).foldl (fun s y => s.setFlag .yrdTally_valid (4 * d + y) false) s) s

/-- Regulator buckets full (R367). -/
def State.fillBuckets (s : State) : State := { s with dies := s.dies.map fun (k, d) => (k, { d with buckets := [] }) }

/-- JOB_START: at the period boundary after its acceptance, that of the idle period in progress (R64, R637), the job
starts, and PER.COUNT counts from it (R68); not on a device that is degraded or has left its job (R543, R566). A start with STEP and CUR as UPD.STEP holds
them, after an earlier job, is a resume (R509, R683; DEDUCED, log 70). -/
def doJobStart (s : State) : State :=
  match s.job.accepted with
  | none => s
  | some m =>
    if s.outOfService || !s.idleOver then s
    else
      let s := (s.boundary false).setFld .perCount_period 0 0
      let resume := s.job.lastEdition.isSome && s.fld .updStep_step 0 == m.step && s.fld .updStep_cur 0 == m.cur
      let s := ((s.zeroTokens).setFld .updStep_step 0 m.step).setFld .updStep_cur 0 m.cur
      let s := (List.range 8).foldl (fun s d => (s.setFld .tokCommit_closed d 0).setFld .tokCommit_committed d 0) s
      let s := ((s.apply .memQos_minC1 0).apply .memQos_minC2 0).apply .memQos_minC3 0
      let s := (List.range 64).foldl State.startMode (s.mirrorManifest m).clearJobFlags.fillBuckets
      let s := { s with hif := { s.hif with
        hostSig := []
        hostUse := []
        hostAhead := [] } }
      let s := (s.openJob m 1 0).openContexts m
      let s := { s with job := { s.job with
        phaseStart := true
        phaseRecover := resume } }
      (s.applyHeld.raise .jobStarted 15 0xFF 0 m.ringSeq 0).enrol

/-- JOB_START. -/
def execJobStart (s : State) : Host.Outcome State Fault Refusal := .next (doJobStart s)

/-! ## Stop and recovery -/

/-- FLT_STOP (R570): the main job stops and JOB_STOPPED_PEER is recorded. Ignored while no main job runs. -/
def doFltStop (s : State) : State :=
  if s.jobRuns then
    (s.stopJob causeHost 0 15).raise .jobStoppedPeer 15 0xFF wholeArg causeHost 0
  else s

/-- FLT_STOP. -/
def execFltStop (s : State) : Host.Outcome State Fault Refusal := .next (doFltStop s)

/-- Handles that the commands of the job name. -/
def State.jobHandles (s : State) : List Nat :=
  nub (s.job.lists.flatMap fun l => (l.cmds.zip l.bodies).flatMap fun (w, body) =>
    match cmKind w with
    | 1 => progHandles (s.progWords w)
    | 2 => let r := s.rd (cbSdesc w) 64
           [sdBound r, sdPack r]
    | 3 =>
      cdHandles body ++ (match s.uprog l.die (cbUprog w) with
        | some p => p.handles
        | none => [])
    | _ => [])

/-- Byte ranges of the job's committed state: the current copy of every state tensor that a command names. -/
def State.committedRanges (s : State) : List (Nat × Nat) :=
  let cur := s.fld .updStep_cur 0
  s.jobHandles.flatMap fun h =>
    let r := s.desc h
    if s.descValid r && tdState r == 1 then
      let o := tdCopy cur r
      (tdBase r + o, tdLimit r) :: (if tdPlane2 r = 0 then [] else [(tdPlane2 r + o, tdSpan2 r)])
    else []

/-- RESTORE of the `n` granules from granule `g` on (R258, R571): what the neighbour holds is outside the device, so
each restored granule is a free value; a full write ends its error. -/
def State.restoreGranules (s : State) : Nat → Nat → State
  | _, 0 => s
  | g, n + 1 =>
    let (v, s) := s.draw
    State.restoreGranules (((s.invalidate (64 * g) 64).healAll (· == g)).wr (64 * g) 64 (v % 2 ^ 512)) (g + 1) n

/-- Effective members on the D axis other than the device itself. -/
def State.dPeers (s : State) : List Nat :=
  (List.range (s.extent 4)).filter fun c => c != s.ownOn 4 && !bit (s.fld .colFence_mask 4) c

/-- STATE_RESTORE_IN_PLACE (R571): the first granule recorded as lost. A granule outside the current copy needs no
restore; one inside it has its row restored, or is lost for good. A device that has tripped restores nothing (R90). -/
def doStateRestore (s : State) : State :=
  if s.jobRuns || s.tripped then s
  else match s.job.lost with
    | [] => s
    | g :: rest =>
      let s := { s with job := { s.job with lost := rest } }
      if s.committedRanges.any fun r => r.1 ≤ 64 * g + 63 && 64 * g < r.1 + r.2 then
        if s.dPeers.isEmpty then s.raise .stateLost 15 0xFF 0 0 (64 * g)
        else s.restoreGranules (g / 32 * 32) 32
      else s

/-- STATE_RESTORE_IN_PLACE. -/
def execStateRestoreInPlace (s : State) : Host.Outcome State Fault Refusal := .next (doStateRestore s)

/-- Step 6 of R572: contexts open at the new edition, the arrears are those of R66, and the open step starts again from
the committed copy at the next schedule position. A device that takes over and has had no stop counts its arrears from local
time 0 (DESIGN CHOICE, log 227). -/
def State.restart (s : State) (m : Manifest) (pos : Nat) : State :=
  let a := min (2 ^ 40 - 1) (s.now - s.job.stopTime)
  let s := s.boundary false
  let s := (s.zeroTokens.hostRestore).mirrorManifest m
  let s := ((s.openJob m pos a).openContexts m).setFld .fltRecover_status 0 2
  { s.applyHeld with job := { s.job with phaseRecover := true } }.enrol

/-- The committed state of a device that takes over (R572 step 5). The step counter, the current copy and the schedule position
are those of the members it restores from: free values (log 71). The last component is that position. -/
def State.takeState (s : State) : State × Nat :=
  let (k, s) := s.draw
  let (c, s) := s.draw
  let (p, s) := s.draw
  let s := (s.setFld .updStep_step 0 (k % (2 ^ 32 - 1) + 1)).setFld .updStep_cur 0 (c % 2)
  let s := s.committedRanges.foldl (fun s r =>
    s.restoreGranules (r.1 / 64) (cdiv (r.1 + r.2) 64 - r.1 / 64)) s
  ((List.range 8).foldl (fun s d => (s.setFld .tokCommit_closed d p).setFld .tokCommit_committed d p) s, p)

/-- Step 5 of R572 on a spare block: LOGICAL takes the cut block's D coordinate, the whole committed state is restored, and
the device runs from then on as one of the job. Without a member to restore from, STATE_LOST is raised and the restore does
not end (R574; STATUS stays 1, DESIGN CHOICE, log 226). -/
def State.takeover (s : State) (m : Manifest) : State :=
  let m := { m with
    logical := setCoordOn m.logical 4 (s.fld .fltRecover_logicalD 0)
    standby := false }
  let s := { s with job := { s.job with descTable := m.descTable } }.setFld .fltRecover_status 0 1
  if s.dPeers.isEmpty then s.raise .stateLost 15 0xFF 0 0 0
  else
    let (s, p) := s.takeState
    s.restart m (p + 1)

/-- GO of FLT.RECOVER (R572, R576): acts while STOPPED is 1, or while a standby manifest is held (DEDUCED, log 65). -/
def State.recover (s : State) : State :=
  match (if s.job.accepted.isSome || s.jobRuns then none else s.job.stopped <|> s.job.standby) with
  | none => s
  | some m =>
    if !(s.flag .fltStop_stopped 0) && s.job.standby.isNone then s
    else if s.outOfService then s.setFld .fltRecover_status 0 4
    else if s.job.lastEdition = some (s.fld .torEdition_current 0) then
      (s.raise .editionStale 8 0xFF wholeArg 0xFF m.ringSeq).setFld .fltRecover_status 0 4
    else
      let s := s.setFld .colFence_mask 4 (s.fld .fltRecover_dFence 0)
      if s.flag .fltRecover_takeover 0 then s.takeover m
      else if bit (s.fld .fltRecover_dFence 0) (s.ownOn 4) || m.standby then
        { s with job := { s.job with
          standby := some { m with standby := true }
          stopped := none } }.setFld .fltRecover_status 0 3
      else s.restart m (s.job.pos + 1)

/-- A write of FLT.RECOVER. -/
def State.writeRecover (s : State) (v : Nat) : State :=
  let s := ((s.setFld .fltRecover_dFence 0 (bits v 0 32)).setFld .fltRecover_logicalD 0 (bits v 32 5)).setFld
    .fltRecover_takeover 0 (bits v 37 1)
  if bit v 38 then s.recover else s

/-- RECOVER_GO: a write of FLT.RECOVER with GO; writes before ready are ignored (R615). -/
def execRecoverGo (value : Nat) (s : State) : Host.Outcome State Fault Refusal :=
  .next (if s.ready then s.writeRecover (value ||| 2 ^ 38) else s)

end Sys2Proof.Machine
end

