-- ==== Sys2Proof/Machine/Sha.lean ====
section
/-! DEFINITION. SHA-256, SHA-512 and HMAC as the rules of security use them (R567, R577 to R580, R595, R608). The
functions are those of FIPS 180-4 and FIPS 198-1, which the spec names and does not print (PRESUMED, log 216). Byte strings
are lists of bytes, first byte first. -/

namespace Sys2Proof.Machine

/-! ## Byte strings -/

/-- The number whose big-endian bytes are given. -/
def beNat (l : List Nat) : Nat := l.foldl (fun a b => 256 * a + b % 256) 0

/-- The `n` big-endian bytes of a number. -/
def beBytes (n v : Nat) : List Nat := (leBytes n v).reverse

/-- The bytes of an ASCII label. -/
def ascii (s : String) : List Nat := s.toList.map Char.toNat

/-! ## SHA-2 -/

/-- The largest `n` below `2 ^ i` above `a` whose `k`-th power is at most `x`: root of `x`, bit by bit. -/
def rootBits (k x : Nat) : Nat → Nat → Nat
  | 0, a => a
  | i + 1, a =>
    let b := a + 2 ^ i
    rootBits k x i (if b ^ k ≤ x then b else a)

/-- The first `w` bits of the fractional part of the `k`-th root of `p`. -/
def rootFrac (k w p : Nat) : Nat := rootBits k (p * 2 ^ (k * w)) (w + 4) 0 % 2 ^ w

/-- The first eighty prime numbers. -/
def hashPrimes : List Nat :=
  (List.range 410).filter fun n => 2 ≤ n && (List.range 21).all fun d => d < 2 || d ≥ n || n % d != 0

/-- What tells one hash function of FIPS 180-4 from the other: word width in bits, the constants of its rounds, its initial
value, and the rotations (the third of a small one is a shift). -/
structure Sha where
  width : Nat
  consts : List Nat
  iv : List Nat
  big0 : Nat × Nat × Nat
  big1 : Nat × Nat × Nat
  small0 : Nat × Nat × Nat
  small1 : Nat × Nat × Nat

/-- The function of `n` rounds on words of `w` bits: a constant a round from the cube roots of the first primes, the initial
value from the square roots of the first eight. -/
def shaOf (w n : Nat) : (b0 b1 s0 s1 : Nat × Nat × Nat) → Sha :=
  Sha.mk w ((hashPrimes.take n).map (rootFrac 3 w)) ((hashPrimes.take 8).map (rootFrac 2 w))

/-- SHA-256. -/
def sha256 : Sha := shaOf 32 64 (2, 13, 22) (6, 11, 25) (7, 18, 3) (17, 19, 10)

/-- SHA-512. -/
def sha512 : Sha := shaOf 64 80 (28, 34, 39) (14, 18, 41) (1, 8, 7) (19, 61, 6)

/-- Rotation to the right. -/
def Sha.rotr (p : Sha) (x n : Nat) : Nat := (x >>> n ||| x <<< (p.width - n)) % 2 ^ p.width

/-- A function of the rounds. -/
def Sha.big (p : Sha) (r : Nat × Nat × Nat) (x : Nat) : Nat := p.rotr x r.1 ^^^ p.rotr x r.2.1 ^^^ p.rotr x r.2.2

/-- A function of the message schedule. -/
def Sha.small (p : Sha) (r : Nat × Nat × Nat) (x : Nat) : Nat := p.rotr x r.1 ^^^ p.rotr x r.2.1 ^^^ x >>> r.2.2

/-- Working variables a to h. -/
structure ShaVars where
  a : Nat
  b : Nat
  c : Nat
  d : Nat
  e : Nat
  f : Nat
  g : Nat
  h : Nat

/-- One round with a constant and a word of the schedule. -/
def Sha.round (p : Sha) (v : ShaVars) (k w : Nat) : ShaVars :=
  let ones := 2 ^ p.width - 1
  let t1 := v.h + p.big p.big1 v.e + ((v.e &&& v.f) ^^^ ((v.e ^^^ ones) &&& v.g)) + k + w
  let t2 := p.big p.big0 v.a + ((v.a &&& v.b) ^^^ (v.a &&& v.c) ^^^ (v.b &&& v.c))
  ⟨(t1 + t2) % 2 ^ p.width, v.a, v.b, v.c, (v.d + t1) % 2 ^ p.width, v.e, v.f, v.g⟩

/-- The rounds. The list holds the next sixteen words of the schedule. -/
def Sha.rounds (p : Sha) : List Nat → List Nat → ShaVars → ShaVars
  | k :: ks, w :: ws, v =>
    let n := (p.small p.small1 (ws.getD 13 0) + ws.getD 8 0 + p.small p.small0 (ws.getD 0 0) + w) % 2 ^ p.width
    Sha.rounds p ks (ws ++ [n]) (p.round v k w)
  | _, _, v => v

/-- Words of a block. -/
def Sha.words (p : Sha) (l : List Nat) : List Nat :=
  (List.range 16).map fun i => beNat ((l.drop (p.width / 8 * i)).take (p.width / 8))

/-- The hash value after one more block. -/
def Sha.block (p : Sha) (h l : List Nat) : List Nat :=
  let x (i : Nat) := h.getD i 0
  let v := p.rounds p.consts (p.words l) ⟨x 0, x 1, x 2, x 3, x 4, x 5, x 6, x 7⟩
  (List.zip h [v.a, v.b, v.c, v.d, v.e, v.f, v.g, v.h]).map fun q => (q.1 + q.2) % 2 ^ p.width

/-- Bytes of a block. -/
def Sha.size (p : Sha) : Nat := 2 * p.width

/-- A message padded to whole blocks: a one bit, zeros, and its length in bits in the last two words. -/
def Sha.pad (p : Sha) (l : List Nat) : List Nat :=
  let n := l.length
  let z := (2 * p.size - (n + 1 + p.width / 4) % p.size) % p.size
  l ++ 0x80 :: List.replicate z 0 ++ beBytes (p.width / 4) (8 * n)

/-- The blocks of a padded message, hashed in order. -/
def Sha.blocks (p : Sha) : Nat → List Nat → List Nat → List Nat
  | 0, _, h => h
  | n + 1, l, h => Sha.blocks p n (l.drop p.size) (p.block h (l.take p.size))

/-- The digest of a message. -/
def Sha.hash (p : Sha) (l : List Nat) : List Nat :=
  let m := p.pad l
  (p.blocks (m.length / p.size) m p.iv).flatMap (beBytes (p.width / 8))

/-- HMAC of FIPS 198-1; a key is no longer than a block here. -/
def Sha.hmac (p : Sha) (key msg : List Nat) : List Nat :=
  let k := key ++ List.replicate (p.size - key.length) 0
  p.hash (k.map (· ^^^ 0x5C) ++ p.hash (k.map (· ^^^ 0x36) ++ msg))

/-- A SHA-256 digest as a register or a record holds it: its first byte in bits [7:0] (R10). -/
def digest256 (l : List Nat) : Nat := leNat (sha256.hash l)

end Sys2Proof.Machine
end

