-- ==== Sys2Proof/Machine/Slh.lean ====
section
/-! DEFINITION. SLH-DSA as R578 and R579 use it: key generation, signing and verification with a context string through
the pure interface. The algorithms are those of FIPS 205 over SHA-2, which the spec names and does not print (PRESUMED,
log 216). -/

namespace Sys2Proof.Machine

/-! ## Parameters and addresses -/

/-- A parameter set: bytes of a node, layers, height of a tree, height and number of the FORS trees, bytes of a message
digest, and the hash of H, T and the message (SHA-512 above security category 1). -/
structure Slh where
  n : Nat
  layers : Nat
  height : Nat
  a : Nat
  k : Nat
  m : Nat
  wide : Sha

/-- SLH-DSA-SHA2-128s. -/
def slh128s : Slh := ⟨16, 7, 9, 12, 14, 30, sha256⟩

/-- SLH-DSA-SHA2-192s. -/
def slh192s : Slh := ⟨24, 7, 9, 14, 17, 39, sha512⟩

/-- Address of a hash call: layer, tree, type, and three words: key pair; chain or tree height; hash or tree index. -/
structure SlhAdrs where
  layer : Nat := 0
  tree : Nat := 0
  type : Nat := 0
  pair : Nat := 0
  w2 : Nat := 0
  w3 : Nat := 0

/-- An address of another type: its words are 0. -/
def SlhAdrs.ofType (a : SlhAdrs) (t : Nat) : SlhAdrs := { layer := a.layer, tree := a.tree, type := t }

/-- The 22 bytes of a compressed address. -/
def SlhAdrs.bytes (a : SlhAdrs) : List Nat :=
  a.layer % 256 :: beBytes 8 a.tree ++ a.type % 256 :: beBytes 4 a.pair ++ beBytes 4 a.w2 ++ beBytes 4 a.w3

/-! ## Hash calls -/

/-- A hash of a padded PK.seed, an address and a message, cut to a node. -/
def Slh.thash (p : Slh) (f : Sha) (seed : List Nat) (a : SlhAdrs) (m : List Nat) : List Nat :=
  (f.hash (seed ++ List.replicate (f.size - p.n) 0 ++ a.bytes ++ m)).take p.n

/-- F, and PRF with SK.seed for its message. -/
def Slh.f (p : Slh) (seed : List Nat) (a : SlhAdrs) (m : List Nat) : List Nat := p.thash sha256 seed a m

/-- H and T. -/
def Slh.t (p : Slh) (seed : List Nat) (a : SlhAdrs) (m : List Nat) : List Nat := p.thash p.wide seed a m

/-- MGF1: the first `k` bytes. -/
def mgf1 (f : Sha) (seed : List Nat) (k : Nat) : List Nat :=
  ((List.range (cdiv k (f.width))).flatMap fun i => f.hash (seed ++ beBytes 4 i)).take k

/-- The message digest. -/
def Slh.hMsg (p : Slh) (r seed root m : List Nat) : List Nat :=
  mgf1 p.wide (r ++ seed ++ p.wide.hash (r ++ seed ++ root ++ m)) p.m

/-- The first `c` digits of `b` bits of a byte string, most significant first. -/
def baseDigits (l : List Nat) (b c : Nat) : List Nat :=
  let x := beNat l
  (List.range c).map fun i => x >>> (8 * l.length - b * (i + 1)) % 2 ^ b

/-- Piece `i` of a string of pieces of `n` bytes. -/
def piece (n : Nat) (l : List Nat) (i : Nat) : List Nat := (l.drop (n * i)).take n

/-! ## WOTS+ -/

/-- Chains of a one-time key. -/
def Slh.len (p : Slh) : Nat := 2 * p.n + 3

/-- `s` steps of a chain from step `i` on. -/
def Slh.chain (p : Slh) (seed : List Nat) (a : SlhAdrs) : Nat → Nat → List Nat → List Nat
  | _, 0, x => x
  | i, s + 1, x => Slh.chain p seed a (i + 1) s (p.f seed { a with w3 := i } x)

/-- Digits of a message and its checksum. -/
def Slh.digits (p : Slh) (m : List Nat) : List Nat :=
  let l := baseDigits m 4 (2 * p.n)
  let c := l.foldl (fun a d => a + (15 - d)) 0
  l ++ baseDigits (beBytes 2 (c * 16)) 4 3

/-- Address of a chain. -/
def wotsAdrs (a : SlhAdrs) (i : Nat) : SlhAdrs := { a.ofType 0 with pair := a.pair, w2 := i }

/-- Secret start of a chain. -/
def Slh.wotsSecret (p : Slh) (sk seed : List Nat) (a : SlhAdrs) (i : Nat) : List Nat :=
  p.f seed { a.ofType 5 with pair := a.pair, w2 := i } sk

/-- One-time public key from the ends of the chains. -/
def Slh.wotsRoot (p : Slh) (seed : List Nat) (a : SlhAdrs) (ends : List Nat) : List Nat :=
  p.t seed { a.ofType 1 with pair := a.pair } ends

/-- One-time public key. -/
def Slh.wotsPk (p : Slh) (sk seed : List Nat) (a : SlhAdrs) : List Nat :=
  p.wotsRoot seed a ((List.range p.len).flatMap fun i => p.chain seed (wotsAdrs a i) 0 15 (p.wotsSecret sk seed a i))

/-- One-time signature. -/
def Slh.wotsSign (p : Slh) (sk seed : List Nat) (a : SlhAdrs) (m : List Nat) : List Nat :=
  (p.digits m).zipIdx.flatMap fun (d, i) => p.chain seed (wotsAdrs a i) 0 d (p.wotsSecret sk seed a i)

/-- One-time public key from a signature. -/
def Slh.wotsFromSig (p : Slh) (seed : List Nat) (a : SlhAdrs) (sig m : List Nat) : List Nat :=
  p.wotsRoot seed a ((p.digits m).zipIdx.flatMap fun (d, i) =>
    p.chain seed (wotsAdrs a i) d (15 - d) (piece p.n sig i))

/-! ## Trees -/

/-- Node `i` at height `z` of a tree whose leaves are `leaf`. -/
def Slh.node (p : Slh) (seed : List Nat) (a : SlhAdrs) (leaf : Nat → List Nat) : Nat → Nat → List Nat
  | 0, i => leaf i
  | z + 1, i =>
    p.t seed { a with w2 := z + 1, w3 := i } (Slh.node p seed a leaf z (2 * i) ++ Slh.node p seed a leaf z (2 * i + 1))

/-- The root that an authentication path gives: from node `x` with index `i` at height `z`, over the pieces left. -/
def Slh.climb (p : Slh) (seed : List Nat) (a : SlhAdrs) : Nat → Nat → List (List Nat) → List Nat → List Nat
  | _, _, [], x => x
  | z, i, y :: r, x =>
    Slh.climb p seed a (z + 1) (i / 2) r
      (p.t seed { a with w2 := z + 1, w3 := i / 2 } (if i % 2 = 0 then x ++ y else y ++ x))

/-- Leaf `i` of a tree of one-time keys. -/
def Slh.xmssLeaf (p : Slh) (sk seed : List Nat) (a : SlhAdrs) (i : Nat) : List Nat :=
  p.wotsPk sk seed { a.ofType 0 with pair := i }

/-- Node of a tree of one-time keys. -/
def Slh.xmssNode (p : Slh) (sk seed : List Nat) (a : SlhAdrs) (z i : Nat) : List Nat :=
  p.node seed (a.ofType 2) (p.xmssLeaf sk seed a) z i

/-- Signature of leaf `i` of a tree, with its path. -/
def Slh.xmssSign (p : Slh) (sk seed : List Nat) (a : SlhAdrs) (i : Nat) (m : List Nat) : List Nat :=
  p.wotsSign sk seed { a.ofType 0 with pair := i } m ++
    (List.range p.height).flatMap fun j => p.xmssNode sk seed a j (i / 2 ^ j ^^^ 1)

/-- Root of a tree from a signature of leaf `i`. -/
def Slh.xmssFromSig (p : Slh) (seed : List Nat) (a : SlhAdrs) (i : Nat) (sig m : List Nat) : List Nat :=
  p.climb seed (a.ofType 2) 0 i ((List.range p.height).map fun j => piece p.n sig (p.len + j))
    (p.wotsFromSig seed { a.ofType 0 with pair := i } sig m)

/-- Bytes of one layer of a signature. -/
def Slh.layerSize (p : Slh) : Nat := p.n * (p.len + p.height)

/-- The hypertree signature over `m` from layer `j` up, `r` layers in all. -/
def Slh.htSign (p : Slh) (sk seed : List Nat) : Nat → Nat → Nat → Nat → List Nat → List Nat
  | 0, _, _, _, _ => []
  | r + 1, j, tree, leaf, m =>
    let a : SlhAdrs := { layer := j, tree := tree }
    let s := p.xmssSign sk seed a leaf m
    s ++ Slh.htSign p sk seed r (j + 1) (tree / 2 ^ p.height) (tree % 2 ^ p.height) (p.xmssFromSig seed a leaf s m)

/-- The root that a hypertree signature gives from layer `j` up. -/
def Slh.htFromSig (p : Slh) (seed sig : List Nat) : Nat → Nat → Nat → Nat → List Nat → List Nat
  | 0, _, _, _, m => m
  | r + 1, j, tree, leaf, m =>
    Slh.htFromSig p seed sig r (j + 1) (tree / 2 ^ p.height) (tree % 2 ^ p.height)
      (p.xmssFromSig seed { layer := j, tree := tree } leaf (piece p.layerSize sig j) m)

/-! ## FORS -/

/-- Secret of leaf `i` of the forest. -/
def Slh.forsSecret (p : Slh) (sk seed : List Nat) (a : SlhAdrs) (i : Nat) : List Nat :=
  p.f seed { a.ofType 6 with pair := a.pair, w3 := i } sk

/-- Address of the forest's nodes. -/
def forsAdrs (a : SlhAdrs) : SlhAdrs := { a.ofType 3 with pair := a.pair }

/-- Leaf `i` of the forest from its secret. -/
def Slh.forsLeaf (p : Slh) (seed : List Nat) (a : SlhAdrs) (i : Nat) (x : List Nat) : List Nat :=
  p.f seed { forsAdrs a with w3 := i } x

/-- FORS signature of a digest. -/
def Slh.forsSign (p : Slh) (sk seed : List Nat) (a : SlhAdrs) (md : List Nat) : List Nat :=
  (baseDigits md p.a p.k).zipIdx.flatMap fun (x, i) =>
    p.forsSecret sk seed a (i * 2 ^ p.a + x) ++
      (List.range p.a).flatMap fun j =>
        p.node seed (forsAdrs a) (fun l => p.forsLeaf seed a l (p.forsSecret sk seed a l)) j
          (i * 2 ^ (p.a - j) + (x / 2 ^ j ^^^ 1))

/-- FORS public key from a signature. -/
def Slh.forsFromSig (p : Slh) (seed : List Nat) (a : SlhAdrs) (sig md : List Nat) : List Nat :=
  let roots := (baseDigits md p.a p.k).zipIdx.flatMap fun (x, i) =>
    let y (j : Nat) := piece p.n sig (i * (p.a + 1) + j)
    p.climb seed (forsAdrs a) 0 (i * 2 ^ p.a + x) ((List.range p.a).map fun j => y (j + 1))
      (p.forsLeaf seed a (i * 2 ^ p.a + x) (y 0))
  p.t seed { a.ofType 4 with pair := a.pair } roots

/-! ## Keys and signatures -/

/-- PK.root from the seeds. -/
def Slh.pkRoot (p : Slh) (sk seed : List Nat) : List Nat := p.xmssNode sk seed { layer := p.layers - 1 } p.height 0

/-- Bytes of a FORS signature. -/
def Slh.forsSize (p : Slh) : Nat := p.n * (p.k * (p.a + 1))

/-- Bytes of a signature. -/
def Slh.sigSize (p : Slh) : Nat := p.n + p.forsSize + p.layers * p.layerSize

/-- What a message digest selects: the FORS digest, the tree and the leaf. -/
def Slh.split (p : Slh) (d : List Nat) : List Nat × Nat × Nat :=
  let u := cdiv (p.k * p.a) 8
  let w := cdiv ((p.layers - 1) * p.height) 8
  (d.take u, beNat ((d.drop u).take w) % 2 ^ ((p.layers - 1) * p.height),
    beNat ((d.drop (u + w)).take (cdiv p.height 8)) % 2 ^ p.height)

/-- The message with its context string, as the pure interface forms it. -/
def pureMessage (ctx m : List Nat) : List Nat := 0 :: ctx.length % 256 :: ctx ++ m

/-- A signature, with the random value `rnd` of the signing. -/
def Slh.sign (p : Slh) (sk prf seed root rnd ctx m : List Nat) : List Nat :=
  let m' := pureMessage ctx m
  let r := (p.wide.hmac prf (rnd ++ m')).take p.n
  let (md, tree, leaf) := p.split (p.hMsg r seed root m')
  let a : SlhAdrs := { tree := tree, type := 3, pair := leaf }
  let fs := p.forsSign sk seed a md
  r ++ fs ++ p.htSign sk seed p.layers 0 tree leaf (p.forsFromSig seed a fs md)

/-- Whether a signature verifies under a public key, PK.seed followed by PK.root. -/
def Slh.verify (p : Slh) (pk ctx m sig : List Nat) : Bool :=
  let seed := pk.take p.n
  let root := (pk.drop p.n).take p.n
  let (md, tree, leaf) := p.split (p.hMsg (sig.take p.n) seed root (pureMessage ctx m))
  let a : SlhAdrs := { tree := tree, type := 3, pair := leaf }
  sig.length == p.sigSize &&
    p.htFromSig seed (sig.drop (p.n + p.forsSize)) p.layers 0 tree leaf
      (p.forsFromSig seed a (sig.drop p.n) md) == root

/-! ## The uses of R578 -/

/-- Context strings: 1 images, 2 bundles, 3 commands, 4 delegations. -/
def sigContext (use : Nat) : List Nat :=
  match use with
  | 1 => ascii "PLE-IMAGE"
  | 2 => ascii "PLE-PATTERN"
  | 3 => ascii "PLE-COMMAND"
  | _ => ascii "PLE-DELEGATE"

/-- R578: verification of a signature by a key of 32 bytes. -/
def sigVerify (use key : Nat) (msg sig : List Nat) : Bool := slh128s.verify (leBytes 32 key) (sigContext use) msg sig

/-- One of the seeds of R579, from DEVICE_SECRET, a label and ROOT_HASH. -/
def idSeed (secret root : Nat) (label : String) : List Nat :=
  (sha256.hmac (leBytes 32 secret) (ascii label ++ leBytes 32 root)).take 24

/-- R579: the identity public key, PK.seed in bits [191:0] and PK.root above it. -/
def idPublic (secret root : Nat) : Nat :=
  let seed := idSeed secret root "PKSEED"
  leNat (seed ++ slh192s.pkRoot (idSeed secret root "SKSEED") seed)

/-- R578, R594: the identity key's signature of a report. -/
def idSign (secret root : Nat) (rnd msg : List Nat) : List Nat :=
  let seed := idSeed secret root "PKSEED"
  let sk := idSeed secret root "SKSEED"
  slh192s.sign sk (idSeed secret root "SKPRF") seed (slh192s.pkRoot sk seed) rnd (ascii "PLE-ATTEST") msg

end Sys2Proof.Machine
end

