-- ==== Sys2Proof/Machine/Object.lean ====
section
/-! DEFINITION. CRC-32 (R537) and signed objects (R577 to R585). -/

namespace Sys2Proof.Machine

/-! ## CRC-32 -/

/-- One bit of the reflected IEEE 802.3 polynomial. -/
def crcBit (c : Nat) : Nat := if c % 2 = 1 then (c / 2) ^^^ 0xEDB88320 else c / 2

/-- One byte. -/
def crcByte (c b : Nat) : Nat :=
  crcBit (crcBit (crcBit (crcBit (crcBit (crcBit (crcBit (crcBit (c ^^^ b))))))))

/-- CRC-32 of a byte string: initial value all ones, final inversion (R537). -/
def crc32 (l : List Nat) : Nat := (l.foldl crcByte 0xFFFFFFFF) ^^^ 0xFFFFFFFF

/-! ## Signed objects -/

/-- A place that holds bytes: an offset and a count to a little-endian number. -/
abbrev Bytes := Nat → Nat → Nat

/-- Offset of the trailer header of an object of `len` bytes: with a delegation when the header there says so
(DEDUCED, log 41), else without. -/
def trailerAt (rd : Bytes) (len : Nat) : Option Nat :=
  let a := len - 15904
  if len ≥ 15904 ∧ trSigner (rd a 64) = 1 ∧ trBodyLen (rd a 64) = a then some a
  else
    let b := len - 7952
    if len ≥ 7952 ∧ trSigner (rd b 64) = 0 ∧ trBodyLen (rd b 64) = b then some b else none

/-- The parts of an object: trailer header, signer key, delegation record and root key when there is one, its
signature, signed message, signature. -/
structure Signed where
  hdr : Nat
  key : Nat
  root : Nat
  deleg : Nat
  delegSig : List Nat
  msg : List Nat
  sig : List Nat
  body : Nat
  deriving DecidableEq, Repr

/-- The object of `len` bytes read. -/
def readObject (rd : Bytes) (len : Nat) : Option Signed :=
  (trailerAt rd len).map fun t =>
    let h := rd t 64
    let d := trSigner h = 1
    let sig := if d then t + 8048 else t + 96
    { hdr := h
      key := rd (t + 64) 32
      root := if d then rd (t + 96) 32 else rd (t + 64) 32
      deleg := if d then rd (t + 128) 64 else 0
      delegSig := if d then leBytes 7856 (rd (t + 192) 7856) else []
      msg := leBytes sig (rd 0 sig)
      sig := leBytes 7856 (rd sig 7856)
      body := t }

/-- SHA-256 of a 32-byte key. -/
def keyHash (k : Nat) : Nat := digest256 (leBytes 32 k)

/-- Fields of the trailer header that must be 0 for a kind, and ranges (R581). -/
def hdrOk (kind : Nat) (h : Nat) : Bool :=
  trKind h == kind && trClean h && trSvn h ≤ 64 &&
    (if kind == 3 then trSvn h == 0 && 1 ≤ trCmd h && trCmd h ≤ 9 else trCmd h == 0 && trNonce h == 0)

/-- The delegation record's reserved fields and ranges (R582). -/
def delegOk (r : Nat) : Bool := drClean r && drRoles r < 16 && drGeneration r ≤ 32

/-- Whether ROLES lets a delegate sign (R582, R583). -/
def roleOk (roles kind cmd : Nat) : Bool :=
  if kind = 1 then bit roles 0
  else if kind = 2 then bit roles 1
  else if cmd = 5 ∨ cmd = 6 ∨ cmd = 7 then bit roles 2
  else if cmd = 2 ∨ cmd = 3 ∨ cmd = 4 ∨ cmd = 8 then bit roles 3
  else false

/-- R588: the commands that a state accepts; RETIRED accepts none (DEDUCED, log 238). -/
def cmdAllowed (state cmd : Nat) : Bool :=
  match state with
  | 0 => cmd == 1
  | 1 => [2, 4, 5, 6, 8, 9].contains cmd
  | 2 => [3, 4, 5, 6, 8, 9].contains cmd
  | 3 => [2, 4, 5, 6, 7, 8, 9].contains cmd
  | _ => false

/-- Bits [63:0] of the device's identity hash. -/
def State.idTag (s : State) : Nat := s.fld .secIdhash_idHash 0 % 2 ^ 64

/-- R583: the checks in order; `nonce` is the challenge that was outstanding. -/
def State.checkSigned (s : State) (kind : Nat) (nonce : Option Nat) (o : Signed) : Err :=
  let h := o.hdr
  let d := trSigner h = 1
  let cmd := trCmd h
  let prov := kind == 3 && cmd == 1
  if !(hdrOk kind h && (if d then delegOk o.deleg else true)) then .sigFormat
  else if !prov && keyHash o.root != s.fuses.rootHash then .keyUnknown
  else if d && drDelegatePk o.deleg != o.key then .keyUnknown
  else if d && !sigVerify 4 o.root (leBytes 64 o.deleg) o.delegSig then .sigInvalid
  else if !sigVerify kind o.key o.msg o.sig then .sigInvalid
  else if d && drGeneration o.deleg < s.fuses.keyGen then .keyRevoked
  else if d && !roleOk (drRoles o.deleg) kind cmd then .roleDenied
  else if trTarget h != 0 && trTarget h != s.idTag then .targetMismatch
  else if d && drTarget o.deleg != 0 && drTarget o.deleg != s.idTag then .targetMismatch
  else if kind != 3 && trSvn h < s.fuses.svnMin then .svnLow
  else if kind == 3 && some (trNonce h) != nonce then .nonceStale
  else if kind == 3 && !cmdAllowed s.fuses.state cmd then .lifecycleDenied
  else .ok

/-- R583 on an object of `len` bytes. -/
def State.checkObject (s : State) (kind : Nat) (nonce : Option Nat) (rd : Bytes) (len : Nat) : Err × Signed :=
  match readObject rd len with
  | none => (.sigFormat, ⟨0, 0, 0, 0, [], [], [], 0⟩)
  | some o => (s.checkSigned kind nonce o, o)

/-- The ERROR event of a rejected object (R669): ARG1 its KIND and CMD, ARG2 a slot or the ring SEQ. -/
def State.objectEvent (s : State) (e : Err) (h a2 : Nat) : State :=
  s.raise e 8 0xFF 0 (trKind h + trCmd h * 256) a2

end Sys2Proof.Machine
end

