-- ==== Sys2Proof/Machine/Start.lean ====
section
/-! DEFINITION. Resets and the start-up phases (R538 to R543, R563, R596 to R617, R697 to R707). -/

namespace Sys2Proof.Machine

/-! ## Resets -/

/-- Places of the persisted region that hold a byte other than the erased value. -/
def State.eventPlaces (s : State) : List Nat :=
  (s.nvm.cells.filterMap fun c =>
    if nvmEvents ≤ c.1 ∧ c.1 < nvmEvents + 0x100000 then some ((c.1 - nvmEvents) / 64) else none).eraseDups

/-- Highest SEQ of the persisted region and its place; SEQ 0 when it holds no record (R660, R666). -/
def State.eventTop (s : State) : Nat × Nat :=
  s.eventPlaces.foldl (fun a i =>
    let v := s.nvmRd (nvmEvents + 64 * i) 64
    if bits v 504 8 = 0xA5 ∧ bits v 0 48 > a.1 then (bits v 0 48, i) else a) (0, 0)

/-- What an assertion of PERST_N leaves: fuses, the NVM's contents, device memory until the wipe, host memory and what the
host has received; every register and queue of the device is at reset. A pending NVM write is lost (R616). SEQ and BOOT
go on from the history region (R561). The boundary-scan TAP is not on PERST_N; a rail that is out of range stays so, and
THERMTRIP_N goes high only with an assertion (R707). -/
def State.hardReset (s : State) : State :=
  { State.reset with
    fuses := s.fuses
    nvm := { ({} : Nvm) with
      cells := s.nvm.cells
      present := s.nvm.present
      histSeq := s.histTop.1
      boot := s.histTop.2 + 1 }
    recorder := { ({} : Recorder) with next := s.eventTop.1 + 1 }
    thermTripN := s.thermTripN
    railUntil := s.railUntil - s.now
    mem := s.mem
    poison := s.poison
    okWords := s.okWords
    symErr := s.symErr
    host := s.host
    slot := s.slot
    badRamp := s.badRamp
    hif := { ({} : HostIf) with
      jtag := s.hif.jtag
      scan := s.hif.scan
      sent := s.hif.sent }
    fresh := s.fresh
    pending := s.pending }

/-- PERST_N is released: phase 1 begins and local time starts from 0 (R55, R610). A bad ramp is made good where the assertion
and this release find every rail in range (R701). -/
def State.release (s : State) (slot : Nat) : State :=
  { s.hardReset with
    perst := false
    badRamp := s.badRamp && !(s.rampCure && s.railsOk)
    slot := slot }

/-- R589: a life-cycle command resets the device as PERST_N release does; the straps are sampled as they stand. -/
def State.lifecycleReset (s : State) : State := s.release s.slot

/-- PERST_N_RELEASE. -/
def execPerstNRelease (slot : Fin 4) (s : State) : Host.Outcome State Fault Refusal :=
  .next (if s.perst then s.release slot else s)

/-- PERST_N_ASSERT (R616): whatever runs is abandoned. With every rail in range at the assertion and at the release that
follows, the start-up is normal after a bad ramp too (R701); THERMTRIP_N is released (R707). -/
def doPerstAssert (s : State) : State :=
  { s.hardReset with
    perst := true
    thermTripN := true
    rampCure := if s.perst then s.rampCure else s.railsOk }

/-- PERST_N_ASSERT. -/
def execPerstNAssert (s : State) : Host.Outcome State Fault Refusal := .next (doPerstAssert s)

/-! ## Rails and clock -/

/-- Step of R700 in which a rail is brought up; VDRAM follows VPP. -/
def rampStep : Rail → Nat
  | .vaux => 1
  | .vio => 2
  | .avdd => 2
  | .virl => 2
  | .vlpq => 2
  | .vpp => 3
  | .vdram => 4
  | .avddh => 5
  | .vcore _ => 5

/-- Every rail once. -/
def allRails : List Rail :=
  [.vaux, .vio, .avdd, .virl, .vlpq, .vpp, .vdram, .avddh] ++ (List.finRange 8).map Rail.vcore

/-- Whether the steps never fall. -/
def rising : List Nat → Bool
  | a :: b :: r => a ≤ b && rising (b :: r)
  | _ => true

/-- RAIL_RAMP (R700, R701): while PERST_N is asserted. A sequence in order that takes longer than 50 ms has no rule of its
own, and start-up goes on (R16; DEDUCED, log 26). -/
def doRailRamp (order : List Rail) (_ms : Nat) (s : State) : State :=
  if !s.perst then s
  else { s with
    badRamp := !(rising (order.map rampStep) && allRails.all order.contains)
    rampCure := false }

/-- RAIL_RAMP. -/
def execRailRamp (order : List Rail) (ms : Nat) (s : State) : Host.Outcome State Fault Refusal :=
  .next (doRailRamp order ms s)

/-- R702 for a rail whose excursion the device survives: a VCORE rail for more than 1 ms fails its die, VDRAM or VPP every
die. -/
def State.railFails (s : State) (ds : List Nat) : State := (ds.filter fun d => !s.absent d).foldl State.failDie s

/-- RAIL_OUT_OF_RANGE (R702): a rail is out of range from now for the time given, in which no fuse and no NVM region is
written (log 185); for a rail other than VCORE, VDRAM and VPP the behaviour is undefined. -/
def execRailOutOfRange (rail : Rail) (us : Nat) (s : State) : Host.Outcome State Fault Refusal :=
  let t := { s with railUntil := max s.railUntil (s.now + 1000 * us) }
  match rail with
  | .vcore d => .next (if s.perst then t else if us > 1000 then t.railFails [d.val] else t)
  | .vdram => .next (if s.perst then t else t.railFails (List.range 8))
  | .vpp => .next (if s.perst then t else t.railFails (List.range 8))
  | _ => if s.perst then .next t else .fault .railUndefined

/-- REFCLK_LOSS (R706): the whole device fails; torus ports and Irale links stop, and all that runs on the dies; PCIe, I3C
and the recorder go on (log 218). -/
def doRefclkLoss (s : State) : State :=
  if s.perst || s.refclkLost then s
  else
    let s := { s with
      refclkLost := true
      dead := true }
    let s := ((s.raise .dieFailed 8 0xFF 0 0 0).leaveJob .dieFailed 8).abandonMaint.quiesce
    let s := (List.range 12).foldl (fun s p => if s.fld .torPstat_state p = 5 then s else s.portOff p 0) s
    (List.range 14).foldl (fun s l => if s.fld .irlLinkstat_state l = 3 then s else s.setFld .irlLinkstat_state l 0) s

/-- REFCLK_LOSS. -/
def execRefclkLoss (s : State) : Host.Outcome State Fault Refusal := .next (doRefclkLoss s)

/-! ## Phases -/

/-- A phase ends now and the next one begins (R610, R617). -/
def State.endPhase (s : State) (k : Nat) : State :=
  (s.setFld .startPhaseend_tEnd (k - 1) s.now).setFld .startStatus_phase 0 (min 7 (k + 1))

/-- Whether phase k is in progress; a lost REFCLK ends start-up (R706; DEDUCED, log 218). -/
def State.inPhase (s : State) (k : Nat) : Bool :=
  !s.perst && s.fld .startStatus_phase 0 == k && !s.ready && !s.refclkLost

/-- The device is degraded (R543); the first cause raises DEVICE_DEGRADED, with the position and the cause of an exclusion
in ARG1 (R669); 0 where a failed die is the cause (DESIGN CHOICE, log 219). -/
def State.degrade (s : State) (arg : Nat) : State :=
  if s.flag .startStatus_degraded 0 then s
  else (s.setFlag .startStatus_degraded 0 true).raise .deviceDegraded 8 0xFF 0 arg 0

/-- READY (R610): phase 7 ends, DEVICE_READY is raised and vector READY signalled. -/
def State.makeReady (s : State) : State :=
  let s := (s.setFld .startStatus_phase 0 7).setFld .startPhaseend_tEnd 6 s.now
  let s := s.setFlag .startStatus_ready 0 true
  { ((s.raise .deviceReady 8 0xFF 0 0 0).signal 0) with job := { s.job with sTime := s.now } }

/-- Whether the state derives an identity key and checks an image (R579, R612). -/
def State.provisioned (s : State) : Bool := 1 ≤ s.fuses.state && s.fuses.state ≤ 3

/-- With no part to scan, SEQ begins at 1 where none has been given yet (R614, R660; DEDUCED, log 17). -/
def State.firstSeq (s : State) : State :=
  if s.fld .evtHead_headSeq 0 = 0 then { s with recorder := { s.recorder with next := 1 } } else s

/-- ROM_START (R597, R579, R614): the end of phase 1. -/
def doRomStart (f : Sfdp) (s : State) : State :=
  if !s.inPhase 1 then s
  else
    let s := { s with nvm := { s.nvm with present := decide (f ≠ Sfdp.absent) } }
    let s := match f with
      | .absent => s.raise .nvmFail 8 0xFF 0 0 0
      | .unreadable => s.raise .nvmFail 8 0xFF 0 0 0
      | _ => s
    let bad := decide (f = Sfdp.absent) || decide (f = Sfdp.unreadable)
    let s := if bad then
        ((s.firstSeq.setFlag .startStatus_nvmFail 0 true).setFlag .startStatus_noImage 0 true).setFlag .startStatus_noPlan 0
          true
      else s.setFlag .startStatus_nvmSlow 0 (decide (f = Sfdp.oneS))
    let s := if s.provisioned then
        let k := idPublic s.fuses.secret s.fuses.rootHash
        (({ s with idKey := k }).setFld .secIdkey_idkey 0 k).setFld .secIdhash_idHash 0 (digest256 (leBytes 48 k))
      else s
    s.endPhase 1

/-- ROM_START: with the rails ramped out of order start-up is undefined, until an assertion and release of PERST_N
(R701). -/
def execRomStart (sfdp : Sfdp) (s : State) : Host.Outcome State Fault Refusal :=
  if s.badRamp && s.inPhase 1 then .fault .startUndefined else .next (doRomStart sfdp s)

/-! ## Fault history -/

/-- One record applied (R563). Time already served of an observation window is free: no rule records it (log 43). -/
def State.histApply (s : State) (v : Nat) : State :=
  let d := hrDie v
  if d ≥ 8 then s
  else match hrUnit v, hrKind v with
    | 1, 2 =>
      let (e, s) := s.draw
      s.setTile d (hrIndex v) { (s.die d).tile (hrIndex v) with
        st := .suspect
        since := 0
        served := e % max 1 s.observeNs
        mism := 0 }
    | 1, 3 =>
      let s := s.setTile d (hrIndex v) { (s.die d).tile (hrIndex v) with st := .retired }
      match (s.die d).serves (hrIndex v) with
      | k :: _ => match (s.die d).remap k with
        | some x => (s.setDie d x).dieStat d
        | none => s
      | [] => s
    | 1, 4 => s.setTile d (hrIndex v) { (s.die d).tile (hrIndex v) with st := .good }
    | 2, 5 =>
      let x := s.die d
      let b := 32 * (hrIndex v % 128) + hrDetail v % 32
      (s.setDie d { x with
        bankUsed := Tab.put 0 x.bankUsed b (Tab.get 0 x.bankUsed b + 1)
        remapped := x.remapped ++ [hrIndex v % 128 * 2 ^ 19 + hrDetail v % 2 ^ 19] }).spareStat d
    | 9, 8 => (s.setDie d { s.die d with failed := true }).setFlag .fltDiestat_failed d true
    | 9, 4 => (s.setDie d { s.die d with failed := false }).setFlag .fltDiestat_failed d false
    | _, _ => s

/-- R563 and R561: the history read, BOOT fixed, and a START record queued. -/
def State.readHistory (s : State) : State :=
  let l := s.histRecords
  let s := s.setFld .startStatus_boot 0 s.nvm.boot
  let s := l.foldl State.histApply s
  let s := (List.range 8).foldl (fun s d => (s.dieStat d).spareStat d) s
  s.history 10 12 8 0 0

/-! ## Persisted events -/

/-- R660, R666: the scan sets the first SEQ and the next page. -/
def State.scanEvents (s : State) : State :=
  let top := s.eventTop
  if top.1 = 0 then s
  else { s with recorder := { s.recorder with
    next := max s.recorder.next (top.1 + 1)
    page := (top.2 / 4 + 1) % 4096 } }

/-! ## Plan -/

/-- First byte of a plan slot (R598). -/
def planSlot (i : Nat) : Nat := if i = 0 then 0x2000000 else 0x2200000

/-- Places in PLACE (R373, R376, R607): coordinates below their extents. -/
def placeOk (v slot : Nat) : Bool :=
  let eT := bits v 17 3
  let eS := bits v 20 4
  let eP := bits v 24 4
  let eX := bits v 28 5
  let eD := bits v 33 6
  inRange 1 4 eT && inRange 1 8 eS && inRange 1 8 eP && inRange 1 16 eX && inRange 1 32 eD &&
    bits v 15 2 < eT && bits v 12 3 < eS && bits v 9 3 < eP && bits v 5 4 < eX && bits v 0 5 < eD &&
    (bits v 39 1 == 0 || eD ≥ 4) && bits v 40 24 == 0 && bits v 15 2 == slot

/-- R376 on a place: whether port p is unused. -/
def placeUnused (v p : Nat) : Bool :=
  match p / 2 with
  | 0 => bits v 17 3 < 2
  | 1 => bits v 20 4 < 2
  | 2 => bits v 24 4 < 2
  | 3 => bits v 28 5 < 2
  | 4 => bits v 33 6 < 2
  | _ => bits v 33 6 < 4 || bits v 39 1 == 0

/-- Port record n of a slot. -/
def State.planPort (s : State) (a n : Nat) : Nat := s.nvmRd (a + 64 + 16 * n) 16

/-- Whether a plan slot is valid (R608). -/
def State.planValid (s : State) (i : Nat) : Bool :=
  let a := planSlot i
  let r := s.nvmRd a 64
  prKind r == 0x50 && prLayout r == 1 && prClean r && placeOk (prPlace r) s.slot &&
    (List.range 12).all (fun p => ppClean (s.planPort a p) &&
      !(placeUnused (prPlace r) p && ppUsed (s.planPort a p) == 1)) &&
    prCrc r == crc32 (leBytes 60 (s.nvmRd a 60) ++ leBytes 192 (s.nvmRd (a + 64) 192))

/-- The plan slot in use (R608). -/
def State.planChoice (s : State) : Option Nat :=
  let g (i : Nat) := prGeneration (s.nvmRd (planSlot i) 64)
  match s.planValid 0, s.planValid 1 with
  | true, true => some (if g 1 > g 0 then 1 else 0)
  | true, false => some 0
  | false, true => some 1
  | false, false => none

/-- Fields of TOR.COORD from a place. -/
def State.setPlace (s : State) (v : Nat) : State :=
  ((((((s.setFld .torCoord_coord 0 (bits v 0 17)).setFld .torCoord_extT 0 (bits v 17 3)).setFld .torCoord_extS 0
    (bits v 20 4)).setFld .torCoord_extP 0 (bits v 24 4)).setFld .torCoord_extX 0 (bits v 28 5)).setFld .torCoord_extD 0
    (bits v 33 6)).setFld .torCoord_guardEn 0 (bits v 39 1)

/-- No plan is in use (R609): TOR.COORD shows the straps alone. -/
def State.noPlan (s : State) : State :=
  (s.setFlag .startStatus_noPlan 0 true).setPlace (s.slot * 2 ^ 15)

/-- The plan read (R607 to R609). -/
def State.readPlan (s : State) : State :=
  match s.planChoice with
  | some i =>
    let a := planSlot i
    let r := s.nvmRd a 64
    { s with tor := { s.tor with
        plan := (List.range 12).map (s.planPort a)
        planId := prPlanId r
        planDigest := digest256 (leBytes 256 (s.nvmRd a 256)) } }.setPlace (prPlace r)
  | none => s.noPlan.raise .planInvalid 8 0xFF 0 0 0

/-! ## Configuration image -/

/-- Four 2-bit entries of a policy row that are a permutation of the four classes. -/
def perm4 (b : Nat) : Bool := (List.range 4).all fun c => (List.range 4).any fun e => bits b (2 * e) 2 == c

/-- A row of R78 that starts three classes: entries 0 to 2 a permutation of the classes other than `out`, entry 3 is 0. -/
def perm3 (b out : Nat) : Bool :=
  bits b 6 2 == 0 &&
    ((List.range 4).filter (· != out)).all fun c => (List.range 3).any fun e => bits b (2 * e) 2 == c

/-- Whether numbers differ from one another. -/
def distinct : List Nat → Bool
  | [] => true
  | a :: r => !r.contains a && distinct r

/-- YRD.REG value in range (R369). -/
def yrdOk (v : Nat) : Bool :=
  let r := bits v 0 24
  let d := bits v 24 24
  (r == 0 || r ≥ 64) && d % 64 == 0 && inRange 64 16777152 d && bits v 48 16 == 0

/-- FLT.CFG value in range (R560). -/
def fltOk (v : Nat) : Bool :=
  inRange 1 65535 (bits v 0 16) && inRange 1 1440 (bits v 16 11) && inRange 1 15 (bits v 27 4) && bits v 31 5 ≤ 16 &&
    bits v 36 28 == 0

/-- R603: whether a configuration record is valid. Energy class codes of the rows: the class each red row does not start
is COMPUTE, COMPUTE and MEMORY (R78). -/
def configOk (present seq r : Nat) : Bool :=
  let pol (k : Nat) := bits (crPolicy r) (8 * k) 8
  crKind r == 0xC1 && crLayout r == 1 && crClean r && crSequence r == seq &&
    inRange 1200 2400 (crBudLimit r) && crBudLimit r % 10 == 0 &&
    crVcoreMin r % 5 == 0 && crVcoreNom r % 5 == 0 && crVcoreMax r % 5 == 0 &&
    inRange 580 (crVcoreNom r) (crVcoreMin r) && inRange 600 750 (crVcoreNom r) &&
    inRange (crVcoreNom r) 820 (crVcoreMax r) &&
    (List.range 8).all (fun n => bits (crAvsSel r) (4 * n) 4 ≤ 14) && distinct (selects present r) &&
    (pol 0 == 0 || perm4 (pol 0)) && perm4 (pol 1) && perm4 (pol 2) && perm4 (pol 3) &&
    perm3 (pol 4) 0 && perm3 (pol 5) 0 && perm3 (pol 6) 1 &&
    crLpDensity r ≤ 4 && crLpRate r ≤ 2 &&
    bits (crQos r) 0 8 + bits (crQos r) 8 8 + bits (crQos r) 16 8 ≤ 192 &&
    inRange 1 168 (crScrubStackH r) && inRange 1 168 (crScrubTierH r) &&
    (List.range 4).all (fun k => yrdOk (bits (crYrdReg r) (64 * k) 64)) &&
    inRange 1 60 (bits (crCrz r) 16 6) && fltOk (crFltCfg r) &&
    inRange 1 (2 ^ 32 - 1) (bits (crColCfg r) 0 32) && bits (crColCfg r) 56 8 == 0

/-- Bytes of the body that carry settings (R602). -/
def imageBytes : Nat := 2944

/-- First byte of an image slot. -/
def imageSlot (i : Nat) : Nat := 0x1000000 * i

/-- OBJECT_LEN of a slot, if the slot is not empty (R601). -/
def State.imageLen (s : State) (i : Nat) : Option Nat :=
  let n := isObjectLen (s.nvmRd (imageSlot i) 64)
  if 1 ≤ n ∧ n ≤ 16777152 then some n else none

/-- What trying a slot gives (R603, R604). -/
def State.tryImage (s : State) (i len : Nat) : Err × Signed :=
  let a := imageSlot i
  let (e, o) := s.checkObject 1 none (fun off n => s.nvmRd (a + 64 + off) n) len
  if e ≠ .ok then (e, o)
  else if o.body ≥ imageBytes && ((o.msg.take o.body).drop imageBytes).all (· == 0) then
    if configOk s.fuses.present (isSequence (s.nvmRd a 64)) (leNat (o.msg.take 128)) then (.ok, o) else (.configInvalid, o)
  else (.configInvalid, o)

/-- A register field set and in force. -/
def State.load (s : State) (f : Field) (i v : Nat) : State := (s.setFld f i v).apply f i

/-- Settings of the record and of the two tables loaded into their registers. -/
def State.loadImage (s : State) (slot : Nat) (o : Signed) : State :=
  let img := leNat (o.msg.take imageBytes)
  let r := img % 2 ^ 1024
  let s := { s with
    image := img
    imageSvn := trSvn o.hdr
    imageDigest := digest256 o.msg }
  let s := s.setFld .secState_image 0 (slot + 1)
  let s := s.settleBuckets.load .budLimit_watts 0 (crBudLimit r)
  let s := ((s.load .memQos_minC1 0 (bits (crQos r) 0 8)).load .memQos_minC2 0 (bits (crQos r) 8 8)).load
    .memQos_minC3 0 (bits (crQos r) 16 8)
  let s := (List.range 32).foldl (fun s i =>
    let v := bits (crYrdReg r) (64 * (i % 4)) 64
    (s.load .yrdReg_rate i (bits v 0 24)).load .yrdReg_depth i (bits v 24 24)) s
  let s := (List.range 8).foldl (fun s d =>
    (s.load .crzCfg_prob d (bits (crCrz r) 0 16)).load .crzCfg_threshold d (bits (crCrz r) 16 6)) s
  let f := crFltCfg r
  let s := (((s.setFld .fltCfg_observeH 0 (bits f 0 16)).setFld .fltCfg_testMin 0 (bits f 16 11)).setFld
    .fltCfg_suspectLimit 0 (bits f 27 4)).setFld .fltCfg_spareLow 0 (bits f 31 5)
  let s := (s.load .colCfg_lagThreshold 0 (bits (crColCfg r) 0 32)).load .colCfg_stallUs 0 (bits (crColCfg r) 32 24)
  let s := (List.range 256).foldl (fun s n =>
    let e := bits img (8 * (128 + 8 * n)) 64
    (s.setFld .evtRate_rate n (erRate e)).setFld .evtRate_burst n (erBurst e)) s
  (List.range 48).foldl (fun s c =>
    let e := bits img (8 * (2176 + 16 * c)) 64
    (((s.setFld .monCfg_source c (bits e 0 4)).setFld .monCfg_select c (bits e 8 8)).setFld .monCfg_base c
      (bits e 16 8)).setFld .monCfg_window c (bits e 24 16) |>.monStart c) s

/-- The slots tried in order; each one that fails records one event (R604). -/
def State.tryImages (s : State) : List (Nat × Nat) → State
  | [] => s.setFlag .startStatus_noImage 0 true
  | (i, len) :: rest =>
    let (e, o) := s.tryImage i len
    if e = .ok then s.loadImage i o
    else
      let s := if e = .configInvalid then s.raise e 8 0xFF 0 0 (i + 1) else s.objectEvent e o.hdr (i + 1)
      State.tryImages s rest

/-- R604: the non-empty slots in decreasing SEQUENCE, A first when equal. -/
def State.imageOrder (s : State) : List (Nat × Nat) :=
  let q (i : Nat) := isSequence (s.nvmRd (imageSlot i) 64)
  let l := if q 1 > q 0 then [1, 0] else [0, 1]
  l.filterMap fun i => (s.imageLen i).map fun n => (i, n)

/-- VCORE_NOM requested on every rail (R610). -/
def State.requestNom (s : State) (fail : List (Fin 8)) : State :=
  (List.range 8).foldl (fun s d =>
    if s.fused d then s else s.vcoreRequest d s.vnom (!(fail.any (·.val == d)))) s

/-- IMAGE_CHECK (R604 to R610): the end of phase 2. -/
def doImageCheck (fail : List (Fin 8)) (s : State) : State :=
  if !s.inPhase 2 then s
  else if s.flag .startStatus_nvmFail 0 then
    ((s.noPlan.setFlag .startStatus_noImage 0 true).setFld .startStatus_boot 0 1).endPhase 2
  else
    let s := s.readHistory.scanEvents
    let s := if s.fuses.state = 4 then s.noPlan else s.readPlan
    let s := if s.provisioned then s.tryImages s.imageOrder else s.setFlag .startStatus_noImage 0 true
    (s.requestNom fail).endPhase 2

/-- IMAGE_CHECK. -/
def execImageCheck (avsFail : List (Fin 8)) (s : State) : Host.Outcome State Fault Refusal :=
  .next (doImageCheck avsFail s)

/-! ## Irale negotiation -/

/-- Links of a die. -/
def linksOf (p : Nat) : List Nat := (List.range 14).filter fun l => (linkEnds l).1 == p || (linkEnds l).2 == p

/-- A die that takes no part in negotiation: fused off, or held failed (R613). -/
def State.outside (s : State) (p : Nat) : Bool := p < 8 && (s.fused p || (s.die p).failed)

/-- Word k of position p. -/
def capWord (words : List (List Nat)) (p k : Nat) : Nat := (words.getD p []).getD k 0 % 2 ^ 32

/-- Requirements that R537 sets for a compute die. -/
def capOk (w : Nat → Nat) : Bool :=
  bits (w 2) 0 4 == 3 && bits (w 2) 4 6 == 32 && bits (w 2) 10 2 == 2 && bits (w 2) 12 8 ≥ 32 && bit (w 2) 20 &&
    bits (w 5) 0 11 == 0x7FF && bits (w 6) 0 4 == 8 && bits (w 6) 4 4 == 4 && bits (w 6) 12 5 == 16 &&
    bits (w 7) 0 16 == 128 && bits (w 7) 16 8 == 64 && bits (w 7) 24 8 == 128 &&
    bits (w 8) 0 9 == 272 && bits (w 8) 9 9 == 256 &&
    bits (w 9) 0 12 ≤ 580 && bits (w 9) 12 12 ≥ 820 && bits (w 9) 24 8 == 7

/-- FEATURES bits that the W11 of a PLE-8T IO0 makes mandatory, and the NUMERIC bits of its W12 (R537). -/
def mandFeat : Nat := 0xDFF
/-- NUMERIC bits of W12. -/
def mandNum : Nat := 0x3FFF

/-- Bytes of W0 to W14 (R537). -/
def capBytes (w : Nat → Nat) : List Nat := (List.range 15).flatMap fun k => leBytes 4 (w k)

/-- Whether W15 is the CRC-32 of the words before it (R537). -/
def capCrcOk (w : Nat → Nat) : Bool := w 15 == crc32 (capBytes w)

/-- The link end of position `p` on link `l`. -/
def endAt (p l : Nat) : Nat := if (linkEnds l).1 = p then 2 * l else 2 * l + 1

/-- Whether the exchange of the words of position `p` on link `l` failed in all 3 attempts (R538). -/
def State.exchangeFailed (s : State) (words : List (List Nat)) (crcBad : List (Fin 14)) (p l : Nat) : Bool :=
  crcBad.any (·.val == l) || Tab.get 0 s.irl.attempts (endAt p l) ≥ 3 || !capCrcOk (capWord words p)

/-- Cause of exclusion of a die by its words and links alone, numbered in table order (R539); 0: none. -/
def State.capCause (s : State) (words : List (List Nat)) (crcBad trainFail : List (Fin 14)) (p : Nat) : Nat :=
  let w := capWord words p
  let mine := (linksOf p).filter fun l => !s.outside (linkEnds l).1 && !s.outside (linkEnds l).2
  let typ := if p < 8 then 1 else if p = 8 then 2 else 3
  if !mine.isEmpty && mine.all (s.exchangeFailed words crcBad p) then 1
  else if bits (w 0) 16 8 ≠ typ then 2
  else if bits (w 1) 0 8 ≠ bits (capWord words 8 1) 0 8 then 3
  else if p < 8 && !((w 3 &&& mandFeat) == mandFeat && (w 4 &&& mandNum) == mandNum && capOk w) then 4
  else if trainFail.any fun l => (linkEnds l.val).2 == p && mine.contains l.val then 5
  else 0

/-- Positions that a chain of trained links joins to IO0 through positions that are `ok`, not through IO1. -/
def reach (ok : Nat → Bool) (link : Nat → Bool) : Nat → List Nat → List Nat
  | 0, l => l
  | n + 1, l =>
    let more := (List.range 10).filter fun p =>
      ok p && !l.contains p && (List.range 14).any fun k =>
        link k && (((linkEnds k).1 == p && l.contains (linkEnds k).2 && (linkEnds k).2 != 9) ||
          ((linkEnds k).2 == p && l.contains (linkEnds k).1 && (linkEnds k).1 != 9))
    reach ok link n (l ++ more)

/-- Cause of exclusion of every position, IO0 never. -/
def State.causes (s : State) (words : List (List Nat)) (crcBad trainFail : List (Fin 14)) : List (Nat × Nat) :=
  let c (p : Nat) := if p = 8 then 0 else s.capCause words crcBad trainFail p
  let live := (List.range 10).filter fun p => !s.outside p
  let ok (p : Nat) := live.contains p && c p == 0
  let r := reach ok (fun k => !trainFail.any (·.val == k)) 10 [8]
  live.map fun p => (p, if c p ≠ 0 then c p else if r.contains p then 0 else 6)

/-- An exclusion: its event, its history record and the degraded state. -/
def State.exclude (s : State) (p cause : Nat) (trainFail : List (Fin 14)) : State :=
  let l := if cause = 5 then ((trainFail.find? fun l => (linkEnds l.val).2 == p).map (·.val)).getD 0xFF else 0xFF
  let s := s.history (if p < 8 then 9 else 10) 11 p (if l = 0xFF then 0 else l) cause
  (s.raise .iraleExcluded 8 l 0 (p + cause * 256) 0).degrade (p + cause * 256)

/-- Least of a field of a capability word over positions. -/
def minWord (words : List (List Nat)) (ps : List Nat) (k lo w : Nat) : Nat :=
  ps.foldl (fun a p => min a (bits (capWord words p k) lo w)) (2 ^ w - 1)

/-- Bitwise AND of a capability word over positions. -/
def andWord (words : List (List Nat)) (ps : List Nat) (k w : Nat) : Nat :=
  ps.foldl (fun a p => a &&& bits (capWord words p k) 0 w) (2 ^ w - 1)

/-- R540: the common level in IRL.LEVEL. -/
def State.setLevel (s : State) (words : List (List Nat)) (joined : List Nat) : State :=
  let cds := joined.filter (· < 8)
  let s := ((s.setFld .irlLevel_iraleMinor 0 (minWord words joined 1 8 8)).setFld .irlLevel_isaLevel 0
    (minWord words joined 1 16 8)).setFld .irlLevel_updateLevel 0 (minWord words joined 1 24 8)
  let s := (s.setFld .irlLevel_rate 0 3).setFlag .irlLevel_valid 0 true
  if cds.isEmpty then s
  else (s.setFld .irlLevel_features 0 (andWord words cds 3 13)).setFld .irlLevel_numeric 0 (andWord words cds 4 14)

/-- State and spares of a link after training (R543). -/
def State.setLink (s : State) (joined : List Nat) (spares : List (Nat × Nat)) (l : Nat) : State :=
  let (a, b) := linkEnds l
  let out (p : Nat) := p < 8 && (s.die p).failed && !s.fused p
  if joined.contains a && joined.contains b then
    let sp := spares.getD l (0, 2)
    ((s.setFld .irlLinkstat_state l 2).setFld .irlLinkstat_sparesUsed l sp.1).setFld .irlLinkstat_minLeft l sp.2
  else s.setFld .irlLinkstat_state l (if out a || out b then 0 else 3)

/-- The wires of a link that failed when it trained. -/
def State.badOf (s : State) (l : Nat) : List BadWire := (s.irl.badWires.filter (·.1 == l)).map (·.2)

/-- The wires that fail at training join those that failed before. -/
def State.noteWires (s : State) (bad : List (Fin 14 × BadWire)) : State :=
  { s with irl := { s.irl with badWires := s.irl.badWires ++ bad.map fun p => (p.1.val, p.2) } }

/-- The links that do not train: with the wires they have (R530), or because an end said so in its TRAIN_DONE (R535). -/
def State.failedLinks (s : State) : List (Fin 14) := (List.finRange 14).filter fun l =>
  trainFails (s.badOf l) || [2 * l.val, 2 * l.val + 1].any fun k => !bit (Tab.get 128 s.irl.trained k) 7

/-- SPARES_USED and MIN_LEFT of a link after training: the spares that both ends named in TRAIN_DONE, or those that the
failed wires took (R530, R535, R543). -/
def State.linkSpares (s : State) (l : Nat) : Nat × Nat :=
  let said := s.irl.trained.filter fun q => q.1 / 2 == l
  let n := if said.length = 2 then said.foldl (fun a q => a + bits q.2 0 7) 0 else sparesUsed (s.badOf l)
  (min 128 n, sparesLeft (s.badOf l))

/-- A word of this device's own IO0: those of W0 to W2, W10 to W12 whose values R537 gives, in the word that it sends. MAKER,
REVISION and the serial number are what they are. -/
def ioWord (k w : Nat) : Nat :=
  match k with
  | 0 => bits w 0 11 + 2 * 2 ^ 16 + bits w 24 8 * 2 ^ 24
  | 1 => 1 + 2 ^ 16 + 2 ^ 24
  | 2 => 3 + 32 * 2 ^ 4 + 2 * 2 ^ 10 + max 32 (bits w 12 8) * 2 ^ 12 + 2 ^ 20
  | 10 => 1500 + 700 * 2 ^ 16
  | 11 => mandFeat
  | 12 => mandNum
  | _ => w

/-- The 16 words that negotiation has of a position: those given, else those that CAP and REPORT left in IRL.CAP. IO0 is
this device's own (R537). -/
def State.wordsOf (s : State) (words : List (List Nat)) (p : Nat) : List Nat :=
  let l := words.getD p []
  let l := if l.isEmpty then (List.range 16).map fun k => s.fld .irlCap_word (16 * p + k) else l
  if p = 8 then
    let l := (List.range 16).map fun k => ioWord k (l.getD k 0)
    l.set 15 (crc32 (capBytes fun k => l.getD k 0 % 2 ^ 32))
  else l

/-- R538 step 5: IO0 sends IRL.LEVEL and the joined dies in a LEVEL message to every joined die (R532). -/
def State.sendLevel (s : State) (joined : List Nat) : State :=
  let level := Reg.irlLevel.fields.foldl (fun a f => a + s.fld f 0 * 2 ^ f.info.lo) 0
  let arg := 4 + level * 2 ^ 16 + s.fld .orgIdent_cdJoined 0 * 2 ^ 80 + s.fld .orgIdent_io1Joined 0 * 2 ^ 88
  (joined.filter (· != 8)).foldl (fun s p => s.slotsOut 8 p 0 3 [⟨8, 0, p, 8, 0, false, arg⟩]) s

/-- IRALE_NEGOTIATION (R530, R538 to R543): the end of phase 3. `words` are the capability words received by position, an
empty list for a position whose frames CAP and REPORT brought; `crcBad` are links on which all three exchanges failed, besides
those that CAP_ACK showed; `bad` are wires that fail at training, besides those of TRAIN_START. -/
def doNegotiation (words : List (List Nat)) (crcBad : List (Fin 14)) (bad : List (Fin 14 × BadWire)) (s : State) : State :=
  if !s.inPhase 3 then s
  else
    let s := s.noteWires bad
    let trainFail := s.failedLinks
    let spares := (List.range 14).map s.linkSpares
    let words := (List.range 10).map (s.wordsOf words)
    let cs := s.causes words crcBad trainFail
    let joined := (cs.filter (·.2 == 0)).map (·.1)
    let s := (List.range 160).foldl (fun s i =>
      if s.outside (i / 16) then s else s.setFld .irlCap_word i (capWord words (i / 16) (i % 16))) s
    let s := cs.foldl (fun s pc => if pc.2 = 0 then s else s.exclude pc.1 pc.2 trainFail) s
    let s := if (List.range 8).any fun d => (s.die d).failed && !s.fused d then s.degrade 0 else s
    let s := s.setLevel words joined
    let s := (List.range 14).foldl (fun s l => s.setLink joined spares l) s
    let s := { s with irl := { s.irl with skew := [] } }
    let cds := (joined.filter (· < 8)).foldl (fun a p => a + 2 ^ p) 0
    let s := (s.setFld .orgIdent_cdJoined 0 cds).setFlag .orgIdent_io1Joined 0 (joined.contains 9)
    (s.sendLevel joined).endPhase 3

/-- IRALE_NEGOTIATION. The near and the far endpoints report the wires that they find failing (R530). -/
def execIraleNegotiation (words : List (List Nat)) (crcBad : List (Fin 14)) (near far : List (Fin 14 × BadWire))
    (s : State) : Host.Outcome State Fault Refusal := .next (doNegotiation words crcBad (near ++ far) s)

/-! ## Training -/

/-- Interface sets of R308, largest first. -/
def tierSets : List (List Nat) := [[0, 1, 2, 3, 4, 5, 6, 7], [0, 1, 4, 5], [0, 4], [0]]

/-- The package on an interface. -/
def packageOn (ps : List LpPkg) (i : Nat) : Option LpPkg := ps.find? fun p => p.iface.val == i

/-- Expected density, rate and inline ECC: of the image, or of R605. No part of a density beyond R307 is expected. -/
def State.tierExpect (s : State) (ps : List LpPkg) : Nat × Nat × Nat :=
  if s.fld .secState_image 0 = 0 then
    (match packageOn ps 0 with
      | some p => if p.density ≤ 4 then p.density else 0
      | none => 0, 0, 1)
  else
    let r := s.image % 2 ^ 1024
    (crLpDensity r, crLpRate r, crLpEcc r)

/-- Whether an interface trains at the expected density (R309, R614: those of IO1 do not while IO1 is excluded). -/
def State.ifaceTrains (s : State) (ps : List LpPkg) (dens i : Nat) : Bool :=
  match packageOn ps i with
  | some p => dens != 0 && p.trains && p.density == dens && (i < 4 || s.flag .orgIdent_io1Joined 0)
  | none => false

/-- R309 to R313: the tier configured from the packages found. -/
def State.trainTier (s : State) (ps : List LpPkg) : State :=
  let (dens, rate, ecc) := s.tierExpect ps
  let pop := (List.range 8).filter fun i => (packageOn ps i).isSome
  let used := if dens = 0 then [] else (tierSets.find? fun l => l.all (s.ifaceTrains ps dens)).getD []
  let mask (l : List Nat) := l.foldl (fun a i => a + 2 ^ i) 0
  let raw := 8 * 2 ^ dens * 2 ^ 30
  let size := used.length * (if ecc = 1 then raw / 8 * 7 else raw)
  let s := { s with tierSize := size }
  let s := (s.setFld .memLpcfg_populated 0 (mask pop)).setFld .memLpcfg_used 0 (mask used)
  let s := ((s.setFld .memLpcfg_density 0 (if used.isEmpty then 0 else dens)).setFld .memLpcfg_rate 0 rate).setFld
    .memLpcfg_ecc 0 ecc
  let s := (pop.filter fun i => !used.contains i).foldl (fun s i => s.raise .lpddrConfig (ifaceDie i) i 0 0 0) s
  if dens ≠ 0 && pop.any fun i => !s.ifaceTrains ps dens i then s.setFlag .startStatus_lpddrReduced 0 true else s

/-- TRAINING (R309, R610, R614): the end of phase 4. -/
def doTraining (fail : List (Fin 8)) (ps : List LpPkg) (s : State) : State :=
  if !s.inPhase 4 then s
  else
    let s := fail.foldl (fun s (d : Fin 8) =>
      if s.joined d then
        let s := s.failDie d
        (s.setDie d { s.die d with stackOut := true }).degrade 0
      else s) s
    (s.trainTier ps).endPhase 4

/-- TRAINING. -/
def execTraining (stackFail : List (Fin 8)) (packages : List LpPkg) (s : State) : Host.Outcome State Fault Refusal :=
  .next (doTraining stackFail packages s)

/-! ## Wipe and ready -/

/-- R335: every memory zero and without errors, but for a stack that failed training (R614). -/
def State.wipeAll (s : State) : State :=
  let keep (a : Nat) := a < 2 ^ 40 && (s.die (a / 2 ^ 37)).stackOut
  { s with
    mem := s.mem.filter fun c => keep c.1
    poison := s.poison.filter fun g => keep (64 * g)
    okWords := []
    symErr := s.symErr.filter fun p => keep (64 * p.1)
    gaths := []
    yarders := []
    colls := []
    queues := [] }.emptyCaches

/-- START_WIPE (R335, R610, R612): the end of phase 5. BLANK is ready next; RETIRED erases first. -/
def doStartWipe (s : State) : State :=
  if !s.inPhase 5 then s
  else
    let s := s.wipeAll.endPhase 5
    match s.fuses.state with
    | 0 => (s.setFld .startStatus_phase 0 7).makeReady
    | 4 => (s.setFld .startStatus_phase 0 7).setFlag .startStatus_retireErase 0 true
    | _ => s.startPorts

/-- START_WIPE. -/
def execStartWipe (s : State) : Host.Outcome State Fault Refusal := .next (doStartWipe s)

/-- The blocks that RETIRE erases (R589): image slots, plan, pattern bundles. -/
def retireBlocks : List Nat :=
  (List.range 576).map (fun k => 65536 * k) ++ (List.range 1024).map fun k => 0x2D00000 + 65536 * k

/-- Those blocks erased one at a time, with pending history writes between them (R694), unless nothing may be written to
the NVM (R614). -/
def State.retireErase (s : State) : State :=
  if s.flag .startStatus_nvmFail 0 then s
  else retireBlocks.foldl (fun s a => s.histDrain.nvmEraseBlock a) s

/-- RETIRE_ERASE (R612): in RETIRED the erase completes before ready; it waits while a rail is out of range (R702). -/
def doRetireErase (s : State) : State :=
  if s.inPhase 7 && s.flag .startStatus_retireErase 0 && s.railsOk then
    (s.retireErase.setFlag .startStatus_retireErase 0 false).makeReady
  else s

/-- RETIRE_ERASE. -/
def execRetireErase (s : State) : Host.Outcome State Fault Refusal := .next (doRetireErase s)

/-- PORT_BRING_UP (R610): the end of phase 6, once every port is judged, and ready. -/
def doPortBringUp (s : State) : State :=
  if s.inPhase 6 && (List.range 12).all fun p => (s.port p).judged then (s.endPhase 6).makeReady else s

/-- PORT_BRING_UP. -/
def execPortBringUp (s : State) : Host.Outcome State Fault Refusal := .next (doPortBringUp s)

end Sys2Proof.Machine
end

