-- ==== Sys2Proof/Machine/View.lean ====
section
/-! DEFINITION. What a read of control space shows (R13 to R15, R35, R627, R628): fields held in the register store, and
fields that show other state. -/

namespace Sys2Proof.Machine

/-- Slot k of the event ring, as record fields (R655); a clear marks a slot empty and writes nothing else (R667). -/
def State.slotRec (s : State) (k : Nat) : Option EvRec :=
  ((s.recorder.ring.find? fun p => p.1 == k) <|> (s.recorder.stale.find? fun p => p.1 == k)).map (·.2)

/-- Latched streams and pending starts of a yarder. -/
def State.yrdSlots (s : State) (i : Nat) (latched : Bool) : Nat :=
  ((Tab.get {} s.yarders i).slots.filter fun o => match o with
    | some r => r.desc.isSome == latched
    | none => false).length

/-- REGWAIT of YRD.STAT: a granule waits for its bucket: one to be read, one to be asked for, or the write of a finished
tally (R366). -/
def State.regWait (s : State) (i : Nat) : Bool :=
  (Tab.get {} s.yarders i).slots.any fun o => match o with
    | some r => match r.desc with
      | some sd =>
        if r.pos ≥ r.total then s.tallyWaits (i / 4) r sd
        else r.out.isEmpty &&
          (let m := s.motion r sd
           if m.src.other.isSome then !(m.toAsk r).isEmpty && !s.bucketHolds (i / 4) sd else !s.mayMove (i / 4) r sd)
      | none => false
    | none => false

/-- Slots in use of engine u of die d (R251); a collective that has completed and still sends keeps its slot. -/
def State.engRunning (s : State) (d u : Nat) : Nat :=
  if u < 8 then b2n (s.gath d u).cmd.isSome
  else if u < 12 then s.yrdSlots (4 * d + u - 8) true + s.yrdSlots (4 * d + u - 8) false
  else if u = 12 then (s.colls.filter fun p => p.1 / 16 == d).length
  else b2n (s.die d).maint.isSome

/-- A field as a read shows it, copy `i`. -/
def State.view (s : State) (f : Field) (i : Nat) : Nat :=
  let slot (g : EvRec → Nat) := match s.slotRec i with
    | some r => g r
    | none => 0
  let eng (g : QCmd → Nat) := match s.queue (i / 14) (i % 14) with
    | c :: _ => g c
    | [] => 0
  match f with
  | .timeNow_ns => s.now
  | .orgIdent_cdPresent => s.fuses.present
  | .orgIdent_grade => if s.fuses.pair = .none then 1 else 2
  | .secState_state => s.fuses.state
  | .secState_lcCount => s.fuses.lcCount
  | .secState_keyGen => s.fuses.keyGen
  | .secState_svnMin => s.fuses.svnMin
  | .secNonce_challenge => s.nonce.getD 0
  | .evtSlot_seq => slot (·.seq)
  | .evtSlot_severity => slot (·.rep.sev)
  | .evtSlot_srcDie => slot (·.rep.die)
  | .evtSlot_srcUnit => slot (·.rep.unit)
  | .evtSlot_time => slot (·.rep.time)
  | .evtSlot_code => slot (·.rep.code)
  | .evtSlot_repeat => slot (·.count)
  | .evtSlot_step => slot (·.rep.step)
  | .evtSlot_arg0 => slot (·.rep.arg0)
  | .evtSlot_arg1 => slot (·.rep.arg1)
  | .evtSlot_arg2 => slot (·.rep.arg2)
  | .evtSlot_arg3 => slot (·.rep.arg3)
  | .evtSlot_lastUs => slot (·.lastUs)
  | .evtSlot_boot => slot (·.boot)
  | .evtSlot_valid => if s.recorder.ring.any fun p => p.1 == i then 0xA5 else 0
  | .gthDbgdata_value => s.dbgData (i / 8) (i % 8)
  | .engQstat_depth => (s.queue (i / 14) (i % 14)).length
  | .engQstat_running => s.engRunning (i / 14) (i % 14)
  | .engQstat_tokwait => eng fun c => b2n (s.commitMet c && !s.cmdGranted c)
  | .engQstat_commitwait => eng fun c => b2n (!s.commitMet c)
  | .engQstat_headToken => eng fun c => if s.commitMet c && !s.cmdGranted c then s.headToken (i / 14) (i % 14) c else 0
  | .engQstat_headList => eng (·.listId)
  | .tokCommit_ahead => b2n (s.job.runs.any fun r => decide (r.phase = .running) && r.step > s.job.pos)
  | .yrdStat_running => s.yrdSlots i true
  | .yrdStat_pending => s.yrdSlots i false
  | .yrdStat_regwait => b2n (s.regWait i)
  | .updQstat_queued => min 65535 (s.updQueued i)
  | .updQstat_held => b2n (s.collFull i)
  | .torEdition_held => min 65535 s.heldBolts
  | .ctxEntry_open => if i = ctxFabric then 1 else s.fld f i
  | .ctxEntry_kind => if i = ctxFabric then 3 else s.fld f i
  | .torXentry_match => xtMatch (Tab.get 0 s.tor.bank1 i)
  | .torXentry_mask => xtMask (Tab.get 0 s.tor.bank1 i)
  | .torXentry_restOwn => xtRestOwn (Tab.get 0 s.tor.bank1 i)
  | .torXentry_port => xtPort (Tab.get 0 s.tor.bank1 i)
  | .torXentry_vcsel => xtVcsel (Tab.get 0 s.tor.bank1 i)
  | .torXentry_valid => xtValid (Tab.get 0 s.tor.bank1 i)
  | _ => match f.info.acc with
    | .wo => 0
    | _ => s.fld f i

/-- A register as a read shows it: its fields in place, reserved bits 0 (R14). -/
def State.viewReg (s : State) (r : Reg) (i : Nat) : Nat :=
  r.fields.foldl (fun a f => a + s.view f i % 2 ^ f.info.width * 2 ^ f.info.lo) 0

/-- The register that holds BAR0 offset `off`: which, which copy, and the byte within it (R628, R675). -/
def regAt (off : Nat) : Option (Reg × Nat × Nat) :=
  Reg.all.findSome? fun r =>
    let q := r.info
    let span := q.size * q.count
    let try_ (base n : Nat) := if base ≤ off ∧ off < base + span then
        some (r, n * q.count + (off - base) / q.size, (off - base) % q.size) else none
    match q.scope with
    | .device => try_ q.base 0
    | .mon =>
      if off < 0xA0000 then none
      else
        let c := (off - 0xA0000) / 0x200
        if c < 48 ∧ q.base + 0x200 * c ≤ off ∧ off < q.base + 0x200 * c + q.size then
          some (r, c, off - (q.base + 0x200 * c)) else none
    | .die =>
      if off < 0x1000000 then none
      else
        let d := (off - 0x1000000) / 0x400000
        if d < 8 then try_ (q.base + 0x400000 * d) d else none
    | .gath =>
      if off < 0x1000000 then none
      else
        let d := (off - 0x1000000) / 0x400000
        let g := (off - 0x1000000) % 0x400000 / 0x1000
        if d < 8 ∧ g < 8 then try_ (q.base + 0x400000 * d + 0x1000 * g) (8 * d + g) else none

/-- The compute die whose block an offset lies in. -/
def blockDie (off : Nat) : Option Nat :=
  if 0x1000000 ≤ off ∧ off < 0x1000000 + 8 * 0x400000 then some ((off - 0x1000000) / 0x400000) else none

/-- R628: the block of a fused or excluded compute die reads 0 and ignores writes. -/
def State.blockLive (s : State) (off : Nat) : Bool :=
  match blockDie off with
  | some d => !s.absent d
  | none => true

/-- `n` bytes of control space from `off`, without the effect of reading; offsets that no block assigns read 0. -/
def State.viewBytes (s : State) (off n : Nat) : Nat :=
  if !s.blockLive off then 0
  else if 0x8000 ≤ off ∧ off < 0x8400 then
    let w (k : Nat) := Tab.get (if k % 4 = 3 then 1 else 0) s.hif.msixTable k
    bits (w ((off - 0x8000) / 4) + w ((off - 0x8000) / 4 + 1) * 2 ^ 32) 0 (8 * n)
  else if 0xC000 ≤ off ∧ off < 0xC008 then
    bits (s.hif.msixPending.foldl (fun a v => a ||| 2 ^ v) 0) (8 * (off - 0xC000)) (8 * n)
  else match regAt off with
    | some (r, i, b) => bits (s.viewReg r i) (8 * b) (8 * n)
    | none => 0

end Sys2Proof.Machine
end

