-- ==== Sys2Proof/Machine/Security.lean ====
section
/-! DEFINITION. Signed commands (R586 to R591), the challenge of R587 and attestation (R594, R595). -/

namespace Sys2Proof.Machine

/-! ## Outcomes -/

/-- SEC.RESULT after a command (R587). -/
def State.secResult (s : State) (status cmd err nonce : Nat) : State :=
  (((s.setFld .secResult_status 0 status).setFld .secResult_cmd 0 cmd).setFld .secResult_error 0 err).setFld
    .secResult_nonceTag 0 nonce

/-- A command is rejected: its event, SEC.RESULT, the ring entry and vectors RING and SECURITY (R583, R634, R648). -/
def State.rejectCmd (s : State) (a seq h : Nat) (e : Err) : State :=
  (((s.objectEvent e h seq).secResult 2 (trCmd h) e.code (trNonce h)).manifestDone a 2 e.code 0xFFFF).signal 7

/-- A command is done. -/
def State.commandDone (s : State) (a h : Nat) : State :=
  ((s.secResult 1 (trCmd h) 0 (trNonce h)).manifestDone a 3 0 0xFFFF).signal 7

/-- What the body of a command must measure: one byte for the two raises, a whole list for RUN_MAINT (R583 BODY_LEN;
DEDUCED, log 73). -/
def bodyFits (rd : Bytes) (h : Nat) : Bool :=
  if trCmd h = 8 ∨ trCmd h = 9 then trBodyLen h == 1
  else if trCmd h = 5 then trBodyLen h ≥ 64 && trBodyLen h == 64 * (1 + lhCount (rd 0 64))
  else true

/-- A maintenance job with a list that has not ended (R279). -/
def State.maintRuns' (s : State) : Bool := s.job.maintRuns.any fun r => !r.ended

/-- The checks of R586 and R589 that follow acceptance. -/
def State.commandErr (s : State) (rd : Bytes) (cmd : Nat) : Err :=
  let v := rd 0 1
  if cmd ≤ 4 then
    if s.jobRuns then .jobActive
    else if (cmd == 2 || cmd == 3) && s.fuses.lcCount ≥ 128 then .fusesExhausted
    else .ok
  else if cmd = 5 then (if s.maintRuns' then .jobActive else .ok)
  else if cmd = 8 then
    (if s.fuses.svnMin ≤ v && v ≤ s.imageSvn && s.fld .secState_image 0 != 0 then .ok else .svnInvalid)
  else if cmd = 9 then (if s.fuses.keyGen ≤ v && v ≤ 32 then .ok else .svnInvalid)
  else .ok

/-! ## The commands -/

/-- The fuses after a life-cycle command (R586, R589): both cells of each bit are burnt (R577). -/
def burn (f : Fuses) (cmd key : Nat) : Fuses :=
  match cmd with
  | 1 => f.burn fun c => { c with lcProv := true, rootHash := c.rootHash ||| key }
  | 4 => f.burn fun c => { c with lcRetired := true }
  | _ => f.burn fun c => { c with lcCount := max c.lcCount (f.lcCount + 1) }

/-- SVN_MIN raised (R586). -/
def Fuses.raiseSvn (f : Fuses) (v : Nat) : Fuses := f.burn fun c => { c with svnMin := max c.svnMin v }

/-- KEY_GEN raised (R586). -/
def Fuses.raiseKeygen (f : Fuses) (v : Nat) : Fuses := f.burn fun c => { c with keyGen := max c.keyGen v }

/-- A life-cycle command (R589): the result is written, running maintenance lists are abandoned, the fuse is burnt,
RETIRE erases, LIFECYCLE_CHANGE is raised, and the device resets once what waits for the NVM is written (R591). -/
def State.lifecycle (s : State) (a seq h key : Nat) : State :=
  let s := (s.commandDone a h).abandonMaint
  let s := { s with fuses := burn s.fuses (trCmd h) key }
  let s := if trCmd h = 4 then s.retireErase else s
  (s.objectEvent .lifecycleChange h seq).nvmFlush.lifecycleReset

/-- RUN_MAINT: the body validated as one maintenance list and, if it passes, made ready (R259, R279). -/
def State.runMaint (s : State) (a seq h p : Nat) : State :=
  let g := s.checkList none [] (fun i => s.listRecord p i) {}
  let s := s.listCounted p {} g
  match g.fails with
  | f :: _ =>
    let s := g.fails.foldl (fun s f => s.reject seq f) s
    ((s.secResult 2 5 f.2.2.2.2.err.code (trNonce h)).manifestDone a 2 f.2.2.2.2.err.code (f.1.getD 0xFFFF)).signal 7
  | [] =>
    ({ s with job := { s.job with
      maintRuns := mkRuns g.lists 0
      progs := s.job.progs ++ g.progs } }.enrol).commandDone a h

/-- CLEAR_FAILED (R586): a CLEARED record of unit 9 for every compute die that holds DIE_FAILED. -/
def State.clearFailed (s : State) : State :=
  (List.range 8).foldl (fun s d => if (s.die d).failed && !s.fused d then s.history 9 4 d 0 0 else s) s

/-- An accepted command. -/
def State.runCommand (s : State) (a seq p : Nat) (rd : Bytes) (o : Signed) : State :=
  let h := o.hdr
  match trCmd h with
  | 5 => s.runMaint a seq h p
  | 6 => (s.clearEvents (keyHash o.key)).commandDone a h
  | 7 => s.clearFailed.commandDone a h
  | 8 => { s with fuses := s.fuses.raiseSvn (rd 0 1) }.commandDone a h
  | 9 => { s with fuses := s.fuses.raiseKeygen (rd 0 1) }.commandDone a h
  | _ => s.lifecycle a seq h (keyHash o.key)

/-- The entry of a command names an object that can be read (R634). -/
def State.commandEntryOk (s : State) (e : Nat) : Bool :=
  meClean e && meAddr e % 64 == 0 && meLength e ≥ 1 && s.dram (meAddr e) (meLength e)

/-- The command at the front of the manifest ring: its code, or none where no command of R586 can be read there. -/
def State.frontCode (s : State) (e : Nat) : Option Nat :=
  if s.commandEntryOk e && !s.poisoned (meAddr e) (meLength e) then
    match readObject (fun off n => s.rd (meAddr e + off) n) (meLength e) with
    | some o => if 1 ≤ trCmd o.hdr ∧ trCmd o.hdr ≤ 9 then some (trCmd o.hdr) else none
    | none => none
  else none

/-- A command entry taken from the manifest ring (R586, R587): the challenge is consumed whatever comes of it.
FUSES_EXHAUSTED is found in step 3 of R589, after the maintenance lists are abandoned. -/
def State.takeCommand (s : State) (a e : Nat) : State :=
  let seq := meSeq e
  let p := meAddr e
  let nonce := s.nonce
  let s := { s with nonce := none }
  if !s.commandEntryOk e then (s.secResult 2 0 Err.manifestInvalid.code 0).refuse a seq .manifestInvalid |>.signal 7
  else match s.firstPoison p (meLength e) with
    | some x =>
      (((s.uncorrectable (64 * x)).secResult 2 0 Err.memUncorrectable.code 0).manifestDone a 2 Err.memUncorrectable.code
        0xFFFF).signal 7
    | none =>
      let s := s.counted p (meLength e)
      let rd : Bytes := fun off n => s.rd (p + off) n
      let (err, o) := s.checkObject 3 nonce rd (meLength e)
      if err = .sigFormat || !bodyFits rd o.hdr then s.rejectCmd a seq o.hdr .sigFormat
      else if err ≠ .ok then s.rejectCmd a seq o.hdr err
      else
        let x := s.commandErr rd (trCmd o.hdr)
        if x = .fusesExhausted then s.abandonMaint.rejectCmd a seq o.hdr x
        else if x ≠ .ok then s.rejectCmd a seq o.hdr x
        else s.runCommand a seq p rd o

/-- Whether command `k` burns a fuse (R586). -/
def burnsFuse (k : Nat) : Bool := k ≤ 4 || k == 8 || k == 9

/-- The next entry taken, when it is a signed command of code `k`, or one of no known code. Commands are handled one at a
time, so none is while a clear still erases (R586, R667; DEDUCED, log 32). A command that burns a fuse waits while a rail is
out of range (R702). -/
def doCommand (k : Nat) (s : State) : State :=
  match s.hif.taken with
  | (a, e) :: rest =>
    if meKind e ≠ 2 || s.clearing then s
    else match s.frontCode e with
      | some c =>
        if c = k && (s.railsOk || !burnsFuse k) then { s with hif := { s.hif with taken := rest } }.takeCommand a e else s
      | none => { s with hif := { s.hif with taken := rest } }.takeCommand a e
  | [] => s

/-- PROVISION. -/
def execProvision (s : State) : Host.Outcome State Fault Refusal := .next (doCommand 1 s)
/-- TO_FIELD. -/
def execToField (s : State) : Host.Outcome State Fault Refusal := .next (doCommand 2 s)
/-- TO_SERVICE. -/
def execToService (s : State) : Host.Outcome State Fault Refusal := .next (doCommand 3 s)
/-- RETIRE. -/
def execRetire (s : State) : Host.Outcome State Fault Refusal := .next (doCommand 4 s)
/-- RUN_MAINT. -/
def execRunMaint (s : State) : Host.Outcome State Fault Refusal := .next (doCommand 5 s)
/-- CLEAR_EVENTS. -/
def execClearEvents (s : State) : Host.Outcome State Fault Refusal := .next (doCommand 6 s)
/-- CLEAR_FAILED. -/
def execClearFailed (s : State) : Host.Outcome State Fault Refusal := .next (doCommand 7 s)
/-- RAISE_SVN. -/
def execRaiseSvn (s : State) : Host.Outcome State Fault Refusal := .next (doCommand 8 s)
/-- RAISE_KEYGEN. -/
def execRaiseKeygen (s : State) : Host.Outcome State Fault Refusal := .next (doCommand 9 s)

/-! ## Challenge and attestation -/

/-- NONCE_READ (R587): a fresh challenge, the only outstanding one. -/
def doNonceRead (s : State) : State :=
  let v := Config.random s.fresh % 2 ^ 128
  { s with
    nonce := some v
    fresh := s.fresh + 1
    hif := { s.hif with resp := .data v } }

/-- NONCE_READ. -/
def execNonceRead (s : State) : Host.Outcome State Fault Refusal := .next (doNonceRead s)

/-- GO of SEC.ATTEST with ADDR as written (R594). An ADDR of the wrong form starts nothing (log 72). -/
def State.attestStart (s : State) : State :=
  let a := s.fld .secAttest_addr 0
  if s.flag .secAttest_busy 0 || !s.provisioned || a % 64 != 0 || !s.dram a 16480 then s
  else { ((s.setFlag .secAttest_busy 0 true).setFlag .secAttest_done 0 false) with
    attest := some (a, s.fld .secChallenge_challenge 0) }

/-- ATTEST_GO: a write of SEC.ATTEST with GO; ignored before ready (R615). -/
def doAttestGo (addr : Nat) (s : State) : State :=
  if s.ready then (s.setFld .secAttest_addr 0 addr).attestStart else s

/-- ATTEST_GO. -/
def execAttestGo (addr : Nat) (s : State) : Host.Outcome State Fault Refusal := .next (doAttestGo addr s)

/-- The report of R595. -/
def State.attestReport (s : State) (challenge : Nat) : Nat :=
  0x41 + s.fuses.state * 2 ^ 8 + s.fuses.lcCount % 256 * 2 ^ 16 + s.fuses.keyGen % 256 * 2 ^ 24 +
    s.fuses.svnMin % 256 * 2 ^ 32 + s.fld .secState_image 0 * 2 ^ 40 + s.imageSvn % 256 * 2 ^ 48 +
    s.viewReg .orgIdent 0 % 2 ^ 32 * 2 ^ 64 + s.fld .startStatus_boot 0 % 2 ^ 32 * 2 ^ 96 +
    s.viewReg .irlLevel 0 % 2 ^ 64 * 2 ^ 128 + s.now % 2 ^ 64 * 2 ^ 192 + s.fld .secIdhash_idHash 0 * 2 ^ 256 +
    s.fuses.rootHash % 2 ^ 256 * 2 ^ 512 + Config.romId % 2 ^ 256 * 2 ^ 768 + s.imageDigest % 2 ^ 256 * 2 ^ 1024 +
    s.tor.planDigest % 2 ^ 256 * 2 ^ 1280 + challenge % 2 ^ 256 * 2 ^ 1536

/-- ATTEST_COMPLETE (R594): report and signature are written, the signature with random bits of its own (log 216), DONE is set, vector SECURITY is signalled. -/
def doAttestComplete (s : State) : State :=
  match s.attest with
  | none => s
  | some (a, c) =>
    let r := leBytes 256 (s.attestReport c)
    let sig := leBytes 16224 (leNat (idSign s.fuses.secret s.fuses.rootHash
      (leBytes 24 (Config.random s.fresh)) r))
    let s := { s with
      attest := none
      fresh := s.fresh + 1 }.store a (r ++ sig)
    ((s.setFlag .secAttest_busy 0 false).setFlag .secAttest_done 0 true).signal 7

/-- ATTEST_COMPLETE. -/
def execAttestComplete (s : State) : Host.Outcome State Fault Refusal := .next (doAttestComplete s)

end Sys2Proof.Machine
end

