-- ==== Sys2Proof/Machine/Host.lean ====
section
/-! DEFINITION. Host accesses to control space (R13, R14, R35, R59, R615, R618, R624 to R632), the device memory window
(R629, R630) and the transfer engine (R642 to R645). -/

namespace Sys2Proof.Machine

/-! ## Writes to registers -/

/-- The bits `v` under the mask `m` put into a value of `w` bits. -/
def mergeBits (w old m v : Nat) : Nat := (old % 2 ^ w &&& (2 ^ w - 1 - m)) ||| (v &&& m)

/-- Field `f`, copy `i`, after a write of the register bits `v` under the mask `m` (R13). -/
def State.newField (s : State) (f : Field) (i m v : Nat) : Nat :=
  let q := f.info
  let fm := bits m q.lo q.width
  let fv := bits v q.lo q.width
  match q.acc with
  | .rw => mergeBits q.width (s.fld f i) fm fv
  | .w1c => s.fld f i &&& (2 ^ q.width - 1 - (fm &&& fv))
  | .wo => fm &&& fv
  | _ => s.fld f i

/-- A field takes the write; RO, RC and WO fields hold what they held. -/
def State.writeField (s : State) (f : Field) (i m v : Nat) : State :=
  match f.info.acc with
  | .rw => s.setFld f i (s.newField f i m v)
  | .w1c => s.setFld f i (s.newField f i m v)
  | _ => s

/-- Every field of a register takes the write. -/
def State.plainWrite (s : State) (r : Reg) (i m v : Nat) : State :=
  r.fields.foldl (fun s f => s.writeField f i m v) s

/-- The register as the write leaves it, with its write-only bits as written. -/
def State.merged (s : State) (r : Reg) (i m v : Nat) : Nat :=
  r.fields.foldl (fun a f => a + s.newField f i m v % 2 ^ f.info.width * 2 ^ f.info.lo) 0

/-- The first field a write would leave out of range keeps its old value; the others take the write. -/
def State.rangeWrite (s : State) (r : Reg) (i m v : Nat) (ok : Field → Nat → Bool) : State :=
  r.fields.foldl (fun s f => if ok f (s.newField f i m v) then s.writeField f i m v else s) s

/-- R632: BASE and ENTRIES keep their values while ENABLE is 1; ENABLE from 0 to 1 numbers the entries from 0. Entries
taken before and not handled are dropped (log 74). -/
def State.ringWrite (s : State) (ring : RingSel) (m v : Nat) : State :=
  let (b, n, h, e, sl) := ringFields ring
  let on := s.flag e 0
  let s := if on then s else (s.writeField b 0 m v).writeField n 0 m v
  let s := s.writeField e 0 m v
  if !on && s.flag e 0 then
    let s := (s.setFld h 0 0).setFld sl 0 0
    match ring with
    | .manifest => { s with hif := { s.hif with taken := [] } }
    | .transfer => { s with hif := { s.hif with xfer := none } }
  else s

/-- Ranges of FLT.CFG (R560), CRZ.CFG (R501) and COL.CFG (R449) fields. -/
def fieldRange (f : Field) (v : Nat) : Bool :=
  match f with
  | .fltCfg_observeH => v ≥ 1
  | .fltCfg_testMin => inRange 1 1440 v
  | .fltCfg_suspectLimit => v ≥ 1
  | .fltCfg_spareLow => v ≤ 16
  | .crzCfg_threshold => inRange 1 60 v
  | .colCfg_lagThreshold => v ≥ 1
  | _ => true

/-- A write of TOR.XENTRY as the spare bank would hold it. -/
def State.xentryMerged (s : State) (i m v : Nat) : Nat := mergeBits 42 (Tab.get 0 s.tor.bank1 i) (m % 2 ^ 42) v

/-- A write of the bits `v` under the mask `m` to copy `i` of a register. Registers whose writes act or can be refused
have their own line. -/
def State.writeBits (s : State) (r : Reg) (i m v : Nat) : State :=
  match r with
  | .hifMring => s.ringWrite .manifest m v
  | .hifXring => s.ringWrite .transfer m v
  | .hifNvmctl =>
    let x := s.merged .hifNvmctl i m v
    let s := s.plainWrite .hifNvmctl i m v
    if bit x 2 then doNvmGo (bits x 0 2) (bits x 32 27) s else s
  | .budLimit =>
    let x := s.newField .budLimit_watts 0 m v
    if inRange 1200 2400 x && x % 10 == 0 then s.plainWrite .budLimit i m v else s
  | .memQos =>
    if s.newField .memQos_minC1 0 m v + s.newField .memQos_minC2 0 m v + s.newField .memQos_minC3 0 m v ≤ 192 then
      s.plainWrite .memQos i m v
    else s
  | .yrdReg => if yrdOk (s.merged .yrdReg i m v) then s.plainWrite .yrdReg i m v else s
  | .crzCfg => s.rangeWrite .crzCfg i m v fieldRange
  | .fltCfg => s.rangeWrite .fltCfg i m v fieldRange
  | .colCfg => s.rangeWrite .colCfg i m v fieldRange
  | .gthDbgctl => doDbgctl (i / 8) (i % 8) (s.merged .gthDbgctl i m v) s
  | .torXentry => doXentryWrite i (s.xentryMerged i m v) s
  | .torEdition => doEditionWrite (s.merged .torEdition i m v) s
  | .fltStop => if bit (s.merged .fltStop i m v) 0 then doFltStop s else s
  | .fltRecover => s.writeRecover (s.merged .fltRecover i m v)
  | .cfgPortctl => doPortRestart (bits (s.merged .cfgPortctl i m v) 0 12) s
  | .secAttest =>
    let x := s.merged .secAttest i m v
    let s := s.plainWrite .secAttest i m v
    if bit x 48 then s.attestStart else s
  | _ => s.plainWrite r i m v

/-- A write of `n` bytes to the MSI-X table: whole 4-byte words. -/
def State.msixWrite (s : State) (off n v : Nat) : State :=
  let put (t : Tab Nat) (k x : Nat) := Tab.put (if k % 4 = 3 then 1 else 0) t k (x % 2 ^ 32)
  let k := (off - 0x8000) / 4
  let t := put s.hif.msixTable k v
  let t := if n = 8 then put t (k + 1) (v / 2 ^ 32) else t
  { s with hif := { s.hif with msixTable := t } }.flushMsix

/-- A write of `n` bytes to control space by its access codes (R14, R628). -/
def State.putSpace (s : State) (off n v : Nat) : State :=
  if !s.blockLive off then s
  else if 0x8000 ≤ off ∧ off < 0x8400 then s.msixWrite off n v
  else match regAt off with
    | some (r, i, b) => s.writeBits r i ((2 ^ (8 * n) - 1) * 2 ^ (8 * b)) (v % 2 ^ (8 * n) * 2 ^ (8 * b))
    | none => s

/-- A host write of `n` bytes to control space, ignored before ready (R615). -/
def State.writeSpace (s : State) (off n v : Nat) : State := if s.ready then s.putSpace off n v else s

/-- R627: naturally aligned accesses of 4 or 8 bytes inside BAR0. -/
def bar0Ok (off n : Nat) : Bool := (n == 4 || n == 8) && off % n == 0 && off + n ≤ 2 ^ 26

/-- An access refused by R627 or R630 is counted. -/
def State.badAccess (s : State) : State := s.bump .hifCause_badAccess 0 1

/-- What the host receives. -/
def State.answer (s : State) (r : Resp) : State := { s with hif := { s.hif with resp := r } }

/-- A host write to BAR0. -/
def doWrite (off n v : Nat) (s : State) : State :=
  if s.perst then s else if bar0Ok off n then s.writeSpace off n v else s.badAccess

/-- REGISTER_WRITE. -/
def execRegisterWrite (off size value : Nat) (s : State) : Host.Outcome State Fault Refusal :=
  .next (doWrite off size value s)

/-- BUD_LIMIT_WRITE (R73). -/
def execBudLimitWrite (value : Nat) (s : State) : Host.Outcome State Fault Refusal :=
  .next (if s.ready then s.writeBits .budLimit 0 (2 ^ 64 - 1) value else s)

/-- MEM_QOS_WRITE (R328). -/
def execMemQosWrite (value : Nat) (s : State) : Host.Outcome State Fault Refusal :=
  .next (if s.ready then s.writeBits .memQos 0 (2 ^ 64 - 1) value else s)

/-- YRD_REG_WRITE (R369). -/
def execYrdRegWrite (d : Fin 8) (cls : Fin 4) (value : Nat) (s : State) : Host.Outcome State Fault Refusal :=
  .next (if s.ready && !s.absent d then s.writeBits .yrdReg (4 * d.val + cls.val) (2 ^ 64 - 1) value else s)

/-- CRZ_CFG_WRITE (R501). -/
def execCrzCfgWrite (d : Fin 8) (value : Nat) (s : State) : Host.Outcome State Fault Refusal :=
  .next (if s.ready && !s.absent d then s.writeBits .crzCfg d (2 ^ 64 - 1) value else s)

/-- FLT_CFG_WRITE (R560). -/
def execFltCfgWrite (value : Nat) (s : State) : Host.Outcome State Fault Refusal :=
  .next (if s.ready then s.writeBits .fltCfg 0 (2 ^ 64 - 1) value else s)

/-- MON_CFG_WRITE (R675): the written setting is applied at the channel's next window start. -/
def execMonCfgWrite (ch : Fin 48) (value : Nat) (s : State) : Host.Outcome State Fault Refusal :=
  .next (if s.ready then s.writeBits .monCfg ch (2 ^ 64 - 1) value else s)

/-- RING_ENABLE (R632): a write of the upper half of a ring register with ENABLE 1. -/
def doRingEnable (ring : RingSel) (value : Nat) (s : State) : State :=
  if s.ready then s.ringWrite ring ((2 ^ 64 - 1) * 2 ^ 64) ((value % 2 ^ 64 ||| 2 ^ 32) * 2 ^ 64) else s

/-- RING_ENABLE. -/
def execRingEnable (ring : RingSel) (value : Nat) (s : State) : Host.Outcome State Fault Refusal :=
  .next (doRingEnable ring value s)

/-! ## Reads of registers -/

/-- RC fields of a register that an access of `n` bytes at byte `b` covers return to their Reset values (R13). -/
def State.readClear (s : State) (r : Reg) (i b n : Nat) : State :=
  r.fields.foldl (fun s f =>
    let q := f.info
    match q.acc with
    | .rc => if 8 * b ≤ q.lo ∧ q.lo + q.width ≤ 8 * (b + n) then s.resetFld f i else s
    | _ => s) s

/-- A read of `n` bytes of control space, whoever makes it: the value, and the state after its effects: TIME.NOW's latch
(R59), the challenge of SEC.NONCE (R587: the piece that holds bit 0 draws it, log 75), read to clear (R13). -/
def State.readOut (s : State) (off n : Nat) : Nat × State :=
  if !s.blockLive off then (0, s)
  else match regAt off with
    | some (.timeNow, _, 0) =>
      (s.viewBytes off n,
        if n = 4 then { s with hif := { s.hif with timeLatch := some (s.now / 2 ^ 32 % 2 ^ 32) } } else s)
    | some (.timeNow, _, _) =>
      match s.hif.timeLatch with
      | some t => (t, { s with hif := { s.hif with timeLatch := none } })
      | none => (s.viewBytes off n, s)
    | some (.secNonce, _, 0) => let s := doNonceRead s
                                (s.viewBytes off n, s)
    | some (r, i, b) => (s.viewBytes off n, s.readClear r i b n)
    | none => (s.viewBytes off n, s)

/-- A read of `n` bytes of control space that answers the host. -/
def State.readSpace (s : State) (off n : Nat) : State :=
  let (v, s) := s.readOut off n
  s.answer (.data v)

/-- A host read of BAR0; one that R627 refuses is answered with Unsupported Request and has no effect. -/
def doRead (off n : Nat) (s : State) : State :=
  if s.perst then s else if bar0Ok off n then s.readSpace off n else s.badAccess.answer .ur

/-- READ_TO_CLEAR. -/
def execReadToClear (off size : Nat) (s : State) : Host.Outcome State Fault Refusal := .next (doRead off size s)

/-- BAR0 offset of TIME.NOW (R628). -/
def timeNowOff : Nat := Reg.timeNow.info.base

/-- TIME_NOW_LOW_READ (R59). -/
def execTimeNowLowRead (s : State) : Host.Outcome State Fault Refusal := .next (doRead timeNowOff 4 s)

/-- BAR0_BAD_ACCESS (R627). An access that R627 permits is served as it is; a write then carries zero. -/
def doBar0Bad (write : Bool) (off n : Nat) (s : State) : State :=
  if write then doWrite off n 0 s else doRead off n s

/-- BAR0_BAD_ACCESS. -/
def execBar0BadAccess (write : Bool) (off size : Nat) (s : State) : Host.Outcome State Fault Refusal :=
  .next (doBar0Bad write off size s)

/-! ## The window -/

/-- Device address of a BAR2 offset (R629). -/
def State.windowAddr (s : State) (off : Nat) : Nat := s.fld .hifWindow_base 0 * 2 ^ 32 + off

/-- A BAR2 read (R630): outside stacked DRAM and the tier it returns 0 and is counted; an uncorrectable granule reads
as zeros and raises (R302; DEDUCED, log 80). -/
def doBar2Read (off n : Nat) (s : State) : State :=
  if s.perst then s
  else
    let a := s.windowAddr off
    if !s.dram a n then s.badAccess.answer (.data 0)
    else match s.firstPoison a n with
      | some g => (s.uncorrectable (64 * g)).answer (.data 0)
      | none => (s.counted a n).answer (.data (s.rd a n))

/-- BAR2_READ. -/
def execBar2Read (off len : Nat) (s : State) : Host.Outcome State Fault Refusal := .next (doBar2Read off len s)

/-- Bytes written granule by granule; a part of an uncorrectable granule is not written and raises (R297, R302). -/
def State.storeSplit (s : State) : Nat → Nat → List Nat → State
  | 0, _, _ => s
  | _, _, [] => s
  | fuel + 1, a, l =>
    let n := min l.length (64 - a % 64)
    let s := if s.writeBlocked (granule a) (spanMask a n (granule a)) then s.uncorrectable a else s.store a (l.take n)
    State.storeSplit s fuel (a + n) (l.drop n)

/-- A BAR2 write (R630); in RETIRED it is not served (R592). -/
def doBar2Write (off : Nat) (data : List Nat) (s : State) : State :=
  if s.perst || s.fuses.state == 4 then s
  else
    let a := s.windowAddr off
    if data.isEmpty then s
    else if s.dram a data.length then s.storeSplit data.length a data else s.badAccess

/-- BAR2_WRITE. -/
def execBar2Write (off : Nat) (data : List Nat) (s : State) : Host.Outcome State Fault Refusal :=
  .next (doBar2Write off data s)

/-! ## PCIe -/

/-- Registers of the HIF block. -/
def hifRegs : List Reg := [.hifMring, .hifXring, .hifWindow, .hifNvmctl, .hifCause]

/-- PCIE_HOT_RESET (R625): configuration space, the MSI-X table and the HIF block are reset; the rest goes on. An
operation that HIF.NVMCTL had started ends unreported, and held requests are lost (log 74); step status records among
them are counted in LOST_RECORDS. -/
def doHotReset (s : State) : State :=
  let lost := (s.hif.heldWrites.filter fun w => w.2.length ≥ 128).length
  let s := hifRegs.foldl (fun s r => r.fields.foldl (fun s f => s.resetFld f 0) s) s
  { s with
    nvm := { s.nvm with
      op := none
      opEnd := none }
    hif := { s.hif with
      cfg := {}
      busMaster := false
      taken := []
      xfer := none
      msixPending := []
      msixTable := []
      timeLatch := none
      heldWrites := [] } }.bump .hifCause_lostRecords 0 lost

/-- PCIE_HOT_RESET. -/
def execPcieHotReset (_kind : PcieReset) (s : State) : Host.Outcome State Fault Refusal := .next (doHotReset s)

/-- BUS_MASTER_ENABLE_CHANGE (R624): once it is set, held writes go in order, and then held messages. -/
def doBusMaster (en : Bool) (s : State) : State :=
  let held := s.hif.heldWrites
  let s := { s with hif := { s.hif with busMaster := en } }
  if en then
    let s := { s with hif := { s.hif with heldWrites := [] } }
    (held.foldl (fun s w => s.hwr w.1 w.2) s).flushMsix
  else s

/-- BUS_MASTER_ENABLE_CHANGE. -/
def execBusMasterEnableChange (en : Bool) (s : State) : Host.Outcome State Fault Refusal := .next (doBusMaster en s)

/-! ## Transfers -/

/-- What is wrong with an entry (R642, R643); the codes are those of the same faults of commands (DEDUCED, log 78). -/
def State.xferErr (s : State) (e : Nat) : Err :=
  let k := xeKind e
  let n := xeLength e
  let a := xeDevice e
  if !(1 ≤ k && k ≤ 3) || !xeClean e || xeHost e % 64 != 0 || n % 64 != 0 || n = 0 || (k != 3 && xeHandle e != 0) ||
      (xeCount e != 0 && (xeToken e < 4032 || xeDie e ≥ 8 || s.absent (xeDie e))) then .fieldInvalid
  else if a % 64 ≠ 0 ∨ !s.dram a n then .addressInvalid
  else if k = 3 then
    let r := s.desc (xeHandle e)
    if !(s.descValid r && tdState r == 1) then .badHandle
    else if (tdBase r ≤ a && a + n ≤ tdBase r + tdLimit r) ||
        (tdPlane2 r != 0 && tdPlane2 r ≤ a && a + n ≤ tdPlane2 r + tdSpan2 r) then .ok
    else .addressInvalid
  else .ok

/-- The transfer in progress gets its result. -/
def State.xferEnd (s : State) (x : Xfer) (result : Nat) (e : Err) : State :=
  { s with hif := { s.hif with xfer := some { x with result := some (result, e.code) } } }

/-- Device address that a read of the entry starts at: for KIND 3 the copy that was current at the start (R644). -/
def State.xferAddr (s : State) (x : Xfer) : Nat :=
  xeDevice x.entry + (if xeKind x.entry = 3 then tdCopy x.cur (s.desc (xeHandle x.entry)) else 0)

/-- The copy of an entry that is valid. -/
def State.xferMove (s : State) (x : Xfer) : State :=
  let e := x.entry
  let n := xeLength e
  if xeKind e = 1 then
    (s.store (xeDevice e) (leBytes n (s.hrd (xeHost e) n))).xferEnd x 1 .ok
  else if xeKind e = 3 ∧ x.torn then
    let (v, s) := s.draw
    (s.hwr (xeHost e) (leBytes n v)).xferEnd x 3 .ok
  else
    let a := s.xferAddr x
    match s.firstPoison a n with
    | some g => (s.uncorrectable (64 * g)).xferEnd x 2 .memUncorrectable
    | none => ((s.counted a n).hwr (xeHost e) (s.rdL a n)).xferEnd x 1 .ok

/-- The entry in progress when its KIND is `k`, or when it has no valid KIND. Nothing moves while Bus Master Enable is
0 (R624). -/
def doTransfer (k : Nat) (s : State) : State :=
  match s.hif.xfer with
  | none => s
  | some x =>
    let mine := xeKind x.entry = k ∨ xeKind x.entry = 0 ∨ xeKind x.entry > 3
    if !mine ∨ x.result.isSome ∨ !s.hif.busMaster then s
    else
      let e := s.xferErr x.entry
      if e ≠ .ok then s.xferEnd x 2 e else s.xferMove x

/-- TO_DEVICE. -/
def execToDevice (s : State) : Host.Outcome State Fault Refusal := .next (doTransfer 1 s)
/-- TO_HOST. -/
def execToHost (s : State) : Host.Outcome State Fault Refusal := .next (doTransfer 2 s)
/-- TO_HOST_COMMITTED. -/
def execToHostCommitted (s : State) : Host.Outcome State Fault Refusal := .next (doTransfer 3 s)

/-- The host token of an entry signalled (R645): held while no main job runs. Only an entry that is DONE signals
(DEDUCED, log 77). -/
def State.xferSignal (s : State) (e result : Nat) : State :=
  if xeCount e = 0 ∨ result ≠ 1 then s
  else
    let d := xeDie e
    let k := xeToken e
    let n := xeCount e
    if s.jobRuns then
      let key := 4096 * d + k
      (s.tokSignal false d k n wholeArg) |> fun s => { s with hif := { s.hif with
        hostSig := Tab.put 0 s.hif.hostSig key (Tab.get 0 s.hif.hostSig key + n) } }
    else { s with hif := { s.hif with heldSig := s.hif.heldSig ++ [(d, k, n)] } }

/-- TRANSFER_COMPLETE (R643): the entry's result is written, HEAD advances and vector TRANSFER is signalled. -/
def doTransferDone (s : State) : State :=
  match s.hif.xfer with
  | none => s
  | some x =>
    match x.result with
    | none => s
    | some (r, e) =>
      let s := { s with hif := { s.hif with xfer := none } }
      (((s.ringResult x.slotAddr r e 0).advanceRing .transfer).xferSignal x.entry r).signal 4

/-- TRANSFER_COMPLETE. -/
def execTransferComplete (s : State) : Host.Outcome State Fault Refusal := .next (doTransferDone s)

end Sys2Proof.Machine
end

