-- ==== Sys2Proof/Machine/Irale.lean ====
section
/-! DEFINITION. The Irale die interface (R22 to R27, R515 to R538): routes, leaves with their replay and credits, slots,
management messages, the sideband. -/

namespace Sys2Proof.Machine

/-! ## Leaves received -/

/-- R527: leaves up to ACK_SEQ leave the replay buffer. -/
def ackLeaves (ack : Nat) (l : List Sys2Proof.Leaf) : List Sys2Proof.Leaf :=
  match l.findIdx? fun f => f.seq == ack with
  | some i => l.drop (i + 1)
  | none => l

/-- Header of a good leaf: acknowledgement, credits, and the replay that a NAK asks for: every leaf from ACK_SEQ + 1 goes
out again, unchanged, when the end next sends (R525, R529). -/
def State.header (s : State) (k : Nat) (f : Sys2Proof.Leaf) : State :=
  let x := s.side k
  let x := { x with
    replay := ackLeaves f.ack x.replay
    freed := x.freed.set f.cvc (f.cred % 256) }
  let done := match x.resent with
    | some (a, t) => a == f.ack && s.now < t + 24
    | none => false
  if f.nak && !done then
    (s.setSide k { x with
      resent := some (f.ack, s.now)
      again := true }).bump .irlLinkstat_replays (k / 2) 1
  else s.setSide k x

/-- Key of an open write: its target, its source and its TID. -/
def wrKey (sl : Slot) : Nat := (sl.dest * 16 + sl.src) * 4096 + sl.tid

/-- Channel of a received slot: DATA is on VC0 after its WR, else read data on VC1 (R523). -/
def LinkSide.vcOf (x : LinkSide) (sl : Slot) : Nat :=
  match sl.kind with
  | 3 => if Tab.get 0 x.open_ (wrKey sl) > 0 then 0 else 1
  | 4 => 1
  | 6 => 2
  | 7 => 2
  | 8 => 3
  | _ => 0

/-- The record of write data that a slot opens or continues. -/
def LinkSide.track (x : LinkSide) (sl : Slot) : LinkSide :=
  let k := wrKey sl
  let n := Tab.get 0 x.open_ k
  match sl.kind with
  | 2 => { x with open_ := Tab.put 0 x.open_ k (bits sl.payload 48 5) }
  | 3 => { x with open_ := Tab.put 0 x.open_ k (n - 1) }
  | _ => x

/-- Whether a slot and the next one travel as a pair: a bolt, an event record, or a report (R523, R532). -/
def pairs (a : Slot) : Bool := a.kind == 6 || (a.kind == 8 && (bits a.payload 0 16 == 8 || bits a.payload 0 16 == 3))

/-- Whether a MGMT slot carries a code of R532; every other one is ignored. -/
def mgmtKnown (a : Slot) : Bool := inRange 1 9 (bits a.payload 0 16)

/-- Slots that stand together, accepted on channel `v` at end `k` of die `p`: delivered, or sent on along the route of
their source, or a REPORT on its way of R538. Between IO0 and IO1 a message that is no bolt takes the top row (DESIGN
CHOICE, log 228). Slots with nowhere to go, and a message of a reserved code, free their places at once, as a COMMIT does,
which its die keeps until APPLY_AT (R533; DEDUCED, log 24). -/
def State.acceptSlots (s : State) (k p v : Nat) (a : Slot) (u : List Slot) : State :=
  if a.dest = p then
    if a.kind = 8 ∧ (!mgmtKnown a ∨ isMgmt a 1) then s.freeSlots k v u.length
    else { s with irl := { s.irl with arrived := s.irl.arrived ++ u.map fun b => ⟨v, k, b⟩ } }
  else
    let out := if isMgmt a 3 && !s.negotiated then s.reportHop p
      else s.hop a.src p a.dest (if a.kind = 6 then bits a.payload 35 1 else 0)
    match out with
    | some q => s.queueOut q ⟨v, u, some k⟩
    | none => s.freeSlots k v u.length

/-- Slots accepted at an end of die `p`; an EMPTY slot takes no place. -/
def State.takeSlots (s : State) (k p : Nat) : List Slot → State
  | [] => s
  | a :: r =>
    if a.kind = 0 then State.takeSlots s k p r
    else
      let x := s.side k
      let v := x.vcOf a
      let s := s.setSide k (x.track a)
      match r with
      | b :: r' =>
        if pairs a then State.takeSlots (s.acceptSlots k p v a [a, b]) k p r'
        else State.takeSlots (s.acceptSlots k p v a [a]) k p (b :: r')
      | [] => s.acceptSlots k p v a [a]

/-- The parity failures of a group that lie less than 1 ms back. -/
def State.parityTimes (s : State) (k g : Nat) : List Nat :=
  (Tab.get [] s.irl.parFails (32 * k + g)).filter fun t => s.now < t + 1000000

/-- Failed checks of the groups named, at end `k` now (R531). -/
def State.noteParity (s : State) (k : Nat) (gs : List Nat) : State :=
  gs.foldl (fun s g => { s with irl := { s.irl with
    parFails := Tab.upd s.irl.parFails (32 * k + g) ((s.now :: s.parityTimes k g).take 16) } }) s

/-- R531: group `g` shows 16 parity failures within 1 ms in one direction of link `l`. -/
def State.repairDue (s : State) (l g : Nat) : Bool :=
  (s.parityTimes (2 * l) g).length ≥ 16 || (s.parityTimes (2 * l + 1) g).length ≥ 16

/-- LEAF_RECEIVE (R520, R528): a good leaf in sequence is accepted; every other one is discarded, and one that is not good
sets NAK. A leaf with a reserved slot kind counts as one that is not good. The end then sends. -/
def doLeaf (l : Nat) (e : LinkEnd) (f : Sys2Proof.Leaf) (par : Nat) (s : State) : State :=
  if !s.linkUp l then s
  else
    let k := match e with
      | .near => 2 * l
      | .far => 2 * l + 1
    let p := match e with
      | .near => (linkEnds l).1
      | .far => (linkEnds l).2
    if !leafGood f par || f.slots.any (fun a => a.kind ≥ 9) then
      (((s.setSide k { s.side k with nak := true }).noteParity k (badParity f par)).bump .irlLinkstat_parityErrs l 1).pump k
    else
      let s := s.header k f
      if f.idle then s.pump k
      else if f.seq = ((s.side k).rxSeq + 1) % 64 then
        ((s.setSide k { s.side k with
          rxSeq := f.seq
          nak := false }).takeSlots k p f.slots).pump k
      else s.pump k

/-- LEAF_RECEIVE. -/
def execLeafReceive (l : Fin 14) (e : LinkEnd) (leaf : Sys2Proof.Leaf) (par : Nat) (s : State) :
    Host.Outcome State Fault Refusal := .next (doLeaf l e leaf par s)

/-! ## Slots -/

/-- The meaning of a slot of a kind, once its turn has come; before that nothing happens. -/
def State.onSlot (s : State) (kind : Nat) (a : Slot) (f : State → State) : State :=
  if a.kind ≠ kind then s
  else match s.takeSlot a with
    | some t => f t
    | none => s

/-- The I/O die whose interface serves a tier address (R310, R313). -/
def State.tierDie (s : State) (a : Nat) : Nat := ifaceDie (s.tierIface (a - 2 ^ 40))

/-- The die that serves an address: the owner of the stack or the scratch, or the I/O die of the tier's interface. -/
def State.servedBy (s : State) (a p : Nat) : Bool :=
  match s.region a with
  | .stack d => d == p
  | .scratch d _ => d == p
  | .tier => p == s.tierDie a
  | _ => false

/-- A request of R523 within its ranges, all of whose granules the die serves. -/
def State.dieRequestOk (s : State) (sl : Slot) : Bool :=
  let a := bits sl.payload 0 44
  let n := bits sl.payload 48 5
  inRange 1 16 n && a % 64 == 0 && (List.range n).all fun i => s.servedBy (a + 64 * i) sl.dest

/-- An answer to a slot: `n` slots of a kind from its die to its source. -/
def answerSlot (sl : Slot) (kind : Nat) (last : Bool) (p : Nat) : Slot := ⟨kind, 0, sl.src, sl.dest, sl.tid, last, p⟩

/-- SLOT_RD (R523): DATA slots, or a refusing ACK. An uncorrectable granule is recorded and refuses (log 86). -/
def doSlotRd (sl : Slot) (s : State) : State := s.onSlot 1 sl fun s =>
  let a := bits sl.payload 0 44
  let n := bits sl.payload 48 5
  let refuse (s : State) := s.slotsOut sl.dest sl.src 0 1 [answerSlot sl 4 false 1]
  if !s.dieRequestOk sl then refuse s
  else match s.firstPoison a (64 * n) with
    | some g => refuse (s.uncorrectable (64 * g))
    | none => (List.range n).foldl (fun s i =>
        s.slotsOut sl.dest sl.src 0 1 [answerSlot sl 3 (i + 1 == n) (s.rd (a + 64 * i) 64)]) (s.counted a (64 * n))

/-- SLOT_RD. -/
def execSlotRd (sl : Slot) (s : State) : Host.Outcome State Fault Refusal := .next (doSlotRd sl s)

/-- SLOT_WR (R523): a write opens; one that announces no granule is refused at once, since every write is answered. -/
def doSlotWr (sl : Slot) (s : State) : State := s.onSlot 2 sl fun s =>
  if bits sl.payload 48 5 = 0 then s.slotsOut sl.dest sl.src 0 1 [answerSlot sl 4 false 1]
  else { s with irl := { s.irl with wr := Tab.upd s.irl.wr (wrKey sl) ⟨sl.payload, 0, !s.dieRequestOk sl⟩ } }

/-- SLOT_WR. -/
def execSlotWr (sl : Slot) (s : State) : Host.Outcome State Fault Refusal := .next (doSlotWr sl s)

/-- Cells of granule `i` of a write, by its byte enables (R399). -/
def writeCells (p i v : Nat) : Tab Nat :=
  let n := bits p 48 5
  let m := if i = 0 then bits p 64 64 else if i + 1 = n then bits p 128 64 else 2 ^ 64 - 1
  ((List.range 64).filter (bit m)).map fun b => (bits p 0 44 + 64 * i + b, 65280 + bits v (8 * b) 8)

/-- Masked bytes of one granule landed, unless part of an uncorrectable granule (R297, R302). -/
def State.landGranule (s : State) (cells : Tab Nat) : State × Bool :=
  match cells with
  | [] => (s, true)
  | c :: _ =>
    let g := granule c.1
    let m := cells.foldl (fun m x => m ||| 2 ^ (x.1 % 64)) 0
    if s.writeBlocked g m then (s.uncorrectable (64 * g), false)
    else
      let s := (if m = 2 ^ 64 - 1 then s else s.counted (64 * g) 64).heal g m
      (cells.foldl State.wrMasked (s.invalidate (64 * g) 64), true)

/-- SLOT_DATA (R523): a granule of an open write lands, and the last one is acknowledged; or a granule of a read answer
is kept for its reader. -/
def doSlotData (sl : Slot) (s : State) : State := s.onSlot 3 sl fun s =>
  match s.irl.wr.find? fun q => q.1 == wrKey sl with
  | some (k, w) =>
    let (s, ok) := if w.bad then (s, false) else s.landGranule (writeCells w.req w.next sl.payload)
    if sl.last || w.next + 1 ≥ bits w.req 48 5 then
      { s with irl := { s.irl with wr := Tab.erase s.irl.wr k } }.slotsOut sl.dest sl.src 0 1
        [answerSlot sl 4 false (b2n (!ok))]
    else { s with irl := { s.irl with wr := Tab.upd s.irl.wr k ⟨w.req, w.next + 1, !ok⟩ } }
  | none =>
    let k := sl.dest * 4096 + sl.tid
    { s with irl := { s.irl with rd := Tab.upd s.irl.rd k (Tab.get [] s.irl.rd k ++ [sl.payload]) } }

/-- SLOT_DATA. -/
def execSlotData (sl : Slot) (s : State) : Host.Outcome State Fault Refusal := .next (doSlotData sl s)

/-- SLOT_ACK (R523): bits [7:0] say whether the write landed or the request was refused. -/
def doSlotAck (sl : Slot) (s : State) : State := s.onSlot 4 sl fun s =>
  { s with irl := { s.irl with acks := Tab.upd s.irl.acks (sl.dest * 4096 + sl.tid) (bits sl.payload 0 8) } }

/-- SLOT_ACK. -/
def execSlotAck (sl : Slot) (s : State) : Host.Outcome State Fault Refusal := .next (doSlotAck sl s)

/-- SLOT_TOKEN (R523, R270): a signal reaches the die that owns the token. -/
def doSlotToken (sl : Slot) (s : State) : State := s.onSlot 5 sl fun s =>
  let maint := bit sl.payload 12
  let k := bits sl.payload 0 12
  if sl.dest < 8 && !s.absent sl.dest && (!maint || k < 256) then s.tokSignal maint sl.dest k (bits sl.payload 16 16) wholeArg
  else s

/-- SLOT_TOKEN. -/
def execSlotToken (sl : Slot) (s : State) : Host.Outcome State Fault Refusal := .next (doSlotToken sl s)

/-- A bolt that a BOLT_H and a BOLT_D hold. -/
def slotBolt (h d : Slot) : Bolt := boltOf (h.payload % 2 ^ 64) d.payload

/-- SLOT_BOLT (R523): at a compute die the bolt is delivered to its collective engine. At an I/O die it is routed: one of
a compute die joins that die's injection queue, and one in transit from the other I/O die goes on through its port (R23,
R26), for which it waits while the port has no room; a bolt whose edition has been retired meanwhile is dropped (R407,
R408). -/
def doSlotBolt (h d : Slot) (s : State) : State :=
  let b := slotBolt h d
  let transit := h.dest ≥ 8 ∧ h.src ≥ 8
  if h.kind ≠ 6 ∨ d.kind ≠ 7 ∨ (transit ∧ !s.roomVia h.dest (s.route b)) then s
  else match (s.takeSlot h).bind (·.takeSlot d) with
    | none => s
    | some s =>
      if h.dest < 8 then { s with tor := { s.tor with delivered := s.tor.delivered ++ [b] } }
      else if transit then
        match s.editionCheck b with
        | none => s.bump .torDrops_edition 0 1
        | some s => s.sendVia h.dest b (s.route b)
      else s.inject h.src b

/-- SLOT_BOLT. -/
def execSlotBolt (h d : Slot) (s : State) : Host.Outcome State Fault Refusal := .next (doSlotBolt h d s)

/-! ## Management messages -/

/-- MGMT_STOP (R532): die d starts no further main-job list. -/
def execMgmtStop (d : Fin 8) (s : State) : Host.Outcome State Fault Refusal :=
  .next (s.onMgmt (some d) 2 ⟨d, 8, 2⟩ fun _ s => { s with irl := { s.irl with held := s.irl.held ||| 2 ^ d.val } })

/-- The words of a position noted while negotiation runs. -/
def State.noteWords (s : State) (p : Nat) (words : List Nat) : State :=
  (words.take 16).zipIdx.foldl (fun s (w, k) => s.setFld .irlCap_word (16 * p + k) w) s

/-- The argument of a REPORT: its 16 words in bits [527:16]. -/
def reportArg (words : List Nat) : Nat := 3 + leNat (words.flatMap fun w => leBytes 4 w) * 2 ^ 16

/-- REPORT (R532, R538): a die's 16 words reach IO0 during negotiation. -/
def doReport (p : Nat) (words : List Nat) (s : State) : State :=
  s.onMgmt (some 8) 3 ⟨8, p, reportArg words⟩ fun m s =>
    if s.inPhase 3 && !s.outside m.src then
      s.noteWords m.src ((List.range 16).map fun k => bits m.arg (16 + 32 * k) 32)
    else s

/-- REPORT. -/
def execReport (pos : Fin 10) (words : List Nat) (s : State) : Host.Outcome State Fault Refusal :=
  .next (doReport pos words s)

/-- LEVEL (R532, R538): IRL.LEVEL and the joined dies as IO0 sends them as negotiation ends; with no message delivered,
during that phase alone. ORG.IDENT shows the joined dies once the phase has ended (R35). -/
def doLevel (msg : Nat) (s : State) : State :=
  s.onMgmt none 4 ⟨8, 8, msg⟩ fun m s =>
    if m.dest = 8 ∧ !s.inPhase 3 then s
    else
      let v := bits m.arg 16 64
      let s := Reg.irlLevel.fields.foldl (fun s f => s.setFld f 0 (bits v f.info.lo f.info.width)) s
      { s with irl := { s.irl with levelDies := bits m.arg 80 9 } }

/-- LEVEL. -/
def execLevel (msg : Nat) (s : State) : Host.Outcome State Fault Refusal := .next (doLevel msg s)

/-- BAR0 offset of a device address in control space. -/
def controlOff (a : Nat) : Option Nat := if 3 * 2 ^ 40 ≤ a ∧ a < 3 * 2 ^ 40 + 2 ^ 26 then some (a - 3 * 2 ^ 40) else none

/-- The value of a register for a management core, with the effects of a read (R13); outside control space it reads 0. -/
def State.mgmtRead (s : State) (a : Nat) : Nat × State :=
  match controlOff (a % 2 ^ 42) with
  | some o => s.readOut o 8
  | none => (0, s)

/-- The value that a management core was answered last. -/
def State.answered (s : State) (p v : Nat) : State :=
  { s with irl := { s.irl with regData := Tab.put 0 s.irl.regData p v } }

/-- REG_RD (R532): a management core reads a register. The answer to a message that came over Irale goes back in a REG_DATA
slot; with none, the core is IO0's own. -/
def doRegRd (a : Nat) (s : State) : State :=
  s.onMgmt none 5 ⟨8, 8, 5 + a % 2 ^ 42 * 2 ^ 16⟩ fun m s =>
    let (v, s) := s.mgmtRead (bits m.arg 16 42)
    if m.src = m.dest then s.answered m.src v
    else s.slotsOut m.dest m.src 0 3 [⟨8, 0, m.src, m.dest, 0, false, 6 + v % 2 ^ 64 * 2 ^ 64⟩]

/-- REG_RD. -/
def execRegRd (addr : Nat) (s : State) : Host.Outcome State Fault Refusal := .next (doRegRd addr s)

/-- REG_DATA (R532): the answer's value is in bits [127:64]. -/
def doRegData (msg : Nat) (s : State) : State :=
  s.onMgmt none 6 ⟨8, 8, msg⟩ fun m s => s.answered m.dest (bits m.arg 64 64)

/-- REG_DATA. -/
def execRegData (msg : Nat) (s : State) : Host.Outcome State Fault Refusal := .next (doRegData msg s)

/-- REG_WR (R532): a register written by a management core, by its access codes (log 88). -/
def State.mgmtWrite (s : State) (a v : Nat) : State :=
  match controlOff (a % 2 ^ 42) with
  | some o =>
    if s.blockLive o then match regAt o with
      | some (r, i, b) => s.writeBits r i ((2 ^ 64 - 1) * 2 ^ (8 * b)) (v % 2 ^ 64 * 2 ^ (8 * b))
      | none => s
    else s
  | none => s

/-- REG_WR (R532). -/
def doRegWr (a v : Nat) (s : State) : State :=
  s.onMgmt none 7 ⟨8, 8, 7 + a % 2 ^ 42 * 2 ^ 16 + v % 2 ^ 64 * 2 ^ 64⟩ fun m s =>
    s.mgmtWrite (bits m.arg 16 42) (bits m.arg 64 64)

/-- REG_WR. -/
def execRegWr (addr value : Nat) (s : State) : Host.Outcome State Fault Refusal := .next (doRegWr addr value s)

/-- MGMT_EVENT (R532, R658): an event record reaches IO0 as the body in its message's second slot. -/
def doMgmtEvent (record : Nat) (s : State) : State :=
  s.onMgmt (some 8) 8 ⟨8, 8, 8 + record * 2 ^ 512⟩ fun m s => s.report (reportOf (bits m.arg 512 512))

/-- MGMT_EVENT. -/
def execMgmtEvent (record : Nat) (s : State) : Host.Outcome State Fault Refusal := .next (doMgmtEvent record s)

/-- A fold in COL.VERDICT's layout; one that is not VALID folds nothing (R441). -/
def State.foldMessage (s : State) (v : Nat) : State :=
  if bit v 2 then s.foldVerdict (bit v 0) (bit v 1) (bits v 32 32) (bits v 64 32) else s

/-- MGMT_VERDICT (R532, R441): a fold reaches IO0 in bits [143:16] of its message. -/
def doVerdict (v : Nat) (s : State) : State :=
  s.onMgmt (some 8) 9 ⟨8, 8, 9 + v % 2 ^ 128 * 2 ^ 16⟩ fun m s => s.foldMessage (bits m.arg 16 128)

/-- MGMT_VERDICT. -/
def execMgmtVerdict (verdict : Nat) (s : State) : Host.Outcome State Fault Refusal := .next (doVerdict verdict s)

/-! ## Sideband -/

/-- CAP (R534, R535, R538): a frame with one capability word of position `p` on the sideband of a link that it ends, during
negotiation. The links to absent dies are not started. -/
def doCap (p l f : Nat) (s : State) : State :=
  let (a, b) := linkEnds l
  match sbRead f with
  | some (0, i, w) =>
    if s.inPhase 3 && !s.outside a && !s.outside b && (p == a || p == b) then s.setFld .irlCap_word (16 * p + i) w else s
  | _ => s

/-- CAP. -/
def execCap (pos : Fin 10) (l : Fin 14) (frame : Nat) (s : State) : Host.Outcome State Fault Refusal :=
  .next (doCap pos l frame s)

/-- A word received from a position. -/
def State.capHeld (s : State) (p k : Nat) : Nat := s.fld .irlCap_word (16 * p + k)

/-- The number of a link end. -/
def sideNum (k : SideEnd) : Nat := 2 * k.link.val + (match k.e with
  | .near => 0
  | .far => 1)

/-- The other end of its link, and the position there. -/
def sidePeer (k : SideEnd) : Nat × Nat := match k.e with
  | .near => (sideNum k + 1, (linkEnds k.link).2)
  | .far => (sideNum k - 1, (linkEnds k.link).1)

/-- CAP_ACK (R538): the end that received the words of the other returns the CRC it computed. One that disagrees with those
words or with their W15 counts a failed exchange, of 3 at most. -/
def doCapAck (k : SideEnd) (f : Nat) (s : State) : State :=
  match sbData 1 0 f with
  | none => s
  | some crc =>
    let (q, p) := sidePeer k
    if !s.inPhase 3 || (crc == crc32 (capBytes (s.capHeld p)) && crc == s.capHeld p 15) then s
    else { s with irl := { s.irl with attempts := Tab.put 0 s.irl.attempts q (min 3 (Tab.get 0 s.irl.attempts q + 1)) } }

/-- CAP_ACK. -/
def execCapAck (e : SideEnd) (frame : Nat) (s : State) : Host.Outcome State Fault Refusal := .next (doCapAck e frame s)

/-- TRAIN_START (R530, R538): the link trains; its wires are tested, and `bad` are those that fail. -/
def doTrainStart (l f : Nat) (bad : List BadWire) (s : State) : State :=
  if (sbData 1 1 f).isSome && s.inPhase 3 && !s.outside (linkEnds l).1 && !s.outside (linkEnds l).2 then
    { s with irl := { s.irl with
      badWires := s.irl.badWires ++ bad.map fun w => (l, w)
      trained := s.irl.trained.filter fun q => q.1 / 2 != l } }.setFld .irlLinkstat_state l 1
  else s

/-- TRAIN_START. -/
def execTrainStart (test : WireTest) (s : State) : Host.Outcome State Fault Refusal :=
  .next (doTrainStart test.link test.frame test.bad s)

/-- TRAIN_DONE (R530, R535, R538): an end of a link that trains reports: DATA[6:0] spares used in the direction that it
receives, DATA[7] a pass. The link is up when both ends have passed, and fails when one has not or its wires cannot be
repaired. -/
def doTrainDone (k : SideEnd) (f : Nat) (s : State) : State :=
  let l := k.link.val
  match sbData 1 2 f with
  | none => s
  | some v =>
    if s.inPhase 3 && (s.fld .irlLinkstat_state l == 1 || s.irl.trained.any fun q => q.1 / 2 == l) then
      let s := { s with irl := { s.irl with trained := Tab.upd s.irl.trained (sideNum k) (bits v 0 8) } }
      let said : Tab Nat := s.irl.trained.filter fun q => q.1 / 2 == l
      if trainFails (s.badOf l) || said.any (fun q => !bit q.2 7) then s.setFld .irlLinkstat_state l 0
      else if said.length < 2 then s
      else (s.setFld .irlLinkstat_state l 2).setFld .irlLinkstat_sparesUsed l (s.linkSpares l).1
    else s

/-- TRAIN_DONE. -/
def execTrainDone (e : SideEnd) (frame : Nat) (s : State) : Host.Outcome State Fault Refusal := .next (doTrainDone e frame s)

/-- The link end that receives the direction of group `g` of link `l` that is repaired (R531). -/
def State.repairEnd (s : State) (l g : Nat) : Nat := if (s.parityTimes (2 * l) g).length ≥ 16 then 2 * l else 2 * l + 1

/-- Whether a COMMIT has been sent and its APPLY_AT is still to come (R533). -/
def State.commitFlies (s : State) : Bool := s.irl.commit.any fun c => s.timeAt 8 < c.applyAt

/-- REPAIR_REQ (R531, R533, R535): the near end names a group of an up link that shows 16 parity failures, and both ends
pause; no repair starts while a COMMIT is on its way. The direction repaired is the one whose 16 failures are there now. -/
def doRepairReq (l f : Nat) (s : State) : State :=
  match sbData 1 3 f with
  | some v =>
    let g := bits v 0 5
    if s.linkUp l && s.repairDue l g && !s.commitFlies then
      { s with irl := { s.irl with repair := Tab.upd s.irl.repair l (s.repairEnd l g, g) } }.setFlag .irlLinkstat_repairing l true
    else s
  | none => s

/-- REPAIR_REQ. -/
def execRepairReq (l : Fin 14) (frame : Nat) (s : State) : Host.Outcome State Fault Refusal := .next (doRepairReq l frame s)

/-- A link that cannot be repaired: the die beyond it fails (R27, R565); an I/O die's failure is the device's. -/
def State.linkFail (s : State) (l group : Nat) : State :=
  let s := (s.setFld .irlLinkstat_state l 0).raise .iraleLinkFail 8 l 0 group 0
  let d := (linkEnds l).2
  if d < 8 then s.failDie d
  else ({ s with dead := true }.raise .dieFailed 9 0xFF 0 0 0).leaveJob .dieFailed 9

/-- An end goes on after a repair: it replays from the last acknowledged leaf (R531). -/
def State.resume (s : State) (k : Nat) : State :=
  let x := s.side k
  let s := if x.replay.isEmpty then s else s.bump .irlLinkstat_replays (k / 2) 1
  (s.setSide k { x with again := true }).pump k

/-- Spare wires left in group `g` of the direction that link end `k` receives: after its last repair, else those that training
left (R530, R531). -/
def State.groupLeft (s : State) (k : Nat) (g : Fin 32) : Nat :=
  Tab.get (2 - (groupBad (s.badOf (k / 2)) (k % 2 == 1) g).eraseDups.length) s.irl.left (32 * k + g.val)

/-- A repair of group `g` of the direction that link end `k` receives passed or failed, by DATA of its frame: [6:5] spares
left, [7] a pass. The wires mapped are the spares that the group had before and has no longer; its failures are forgotten. -/
def State.repaired (s : State) (l k : Nat) (g : Fin 32) (v : Nat) : State :=
  let before := s.groupLeft k g
  let left := min before (bits v 5 2)
  let s := s.setFlag .irlLinkstat_repairing l false
  let s := { s with irl := { s.irl with
    repair := Tab.erase s.irl.repair l
    parFails := Tab.erase s.irl.parFails (32 * k + g)
    left := Tab.upd s.irl.left (32 * k + g.val) left } }
  if !bit v 7 then s.linkFail l g
  else
    let s := ((s.bump .irlLinkstat_repairs l 1).setFld .irlLinkstat_minLeft l
      (min (s.fld .irlLinkstat_minLeft l) left)).setFld .irlLinkstat_sparesUsed l
      (min 128 (s.fld .irlLinkstat_sparesUsed l + (before - left)))
    let s := (s.history 5 6 (linkEnds l).1 l g).raise .iraleRepair 8 l 0 g 0
    (s.resume (2 * l)).resume (2 * l + 1)

/-- REPAIR_DONE (R531, R535): the repair of a paused link ends. A frame that names another group in DATA[4:0] than REPAIR_REQ
did is of no repair in progress (log 2), and with REFCLK lost the links have stopped (R706). -/
def doRepairDone (l f : Nat) (s : State) : State :=
  match sbData 1 4 f, s.irl.repair.find? fun p => p.1 == l with
  | some v, some (_, k, g) =>
    if s.flag .irlLinkstat_repairing l ∧ s.refclkLost = false ∧ bits v 0 5 = g then s.repaired l k (Fin.ofNat 32 g) v else s
  | _, _ => s

/-- REPAIR_DONE. -/
def execRepairDone (l : Fin 14) (frame : Nat) (s : State) : Host.Outcome State Fault Refusal :=
  .next (doRepairDone l frame s)

/-- The link on whose sideband a position gets local time: the first of which it is the far end (R536; DESIGN CHOICE where
there are two, log 224). -/
def timeLink (p : Nat) : Nat := ((List.range 14).find? fun l => (linkEnds l).2 == p).getD 0xFF

/-- A position's copy of local time loaded with `v`; after negotiation a copy that differs raises IRALE_TIME (R536). -/
def State.loadTime (s : State) (p v : Nat) : State :=
  if p = 8 || !s.posOk p then s
  else
    let s' := { s with irl := { s.irl with skew := Tab.put 0 s.irl.skew p ((v : Int) - s.now) } }
    if s.timeAt p ≠ v ∧ s.negotiated then s'.raise .iraleTime p (timeLink p) 0 p 0 else s'

/-- TIME_FRAME (R535, R536): a pair of TIME frames, INDEX 0 with the low word and INDEX 1 with the high word, arrives at a
position. With REFCLK lost the links, and with them their sideband, have stopped (R706). -/
def doTimeFrame (p low high : Nat) (s : State) : State :=
  match sbData 2 0 low, sbData 2 1 high with
  | some a, some b => if s.refclkLost then s else s.loadTime p (a + b * 2 ^ 32)
  | _, _ => s

/-- TIME_FRAME. -/
def execTimeFrame (pos : Fin 10) (low high : Nat) (s : State) : Host.Outcome State Fault Refusal :=
  .next (doTimeFrame pos low high s)

/-- TIME_SYNC_REPEAT (R536): IO0 repeats its local time to every copy. -/
def doTimeSync (s : State) : State :=
  if s.perst || s.refclkLost then s else (List.range 10).foldl (fun s p => s.loadTime p s.now) s

/-- TIME_SYNC_REPEAT. -/
def execTimeSyncRepeat (s : State) : Host.Outcome State Fault Refusal := .next (doTimeSync s)

end Sys2Proof.Machine
end

