-- ==== Sys2Proof/Machine/Maint.lean ====
section
/-! DEFINITION. Maintenance operations (R258, R336, R556, R567, R568, R571, R684). A row of the table starts the operation
and makes its effect on memory; MAINT_COMPLETE ends it (log 83). -/

namespace Sys2Proof.Machine

/-- The maintenance command that may start operation `op` on die d now (R251, R280, R683). -/
def State.maintReady (s : State) (d op : Nat) : Option QCmd :=
  match s.startable d 13 5 with
  | some c => if cbOp c.word = op ∧ (s.die d).maint.isNone ∧ s.maintPhase d op then some c else none
  | none => none

/-- The operation has started, with `left` bytes of its region for later segments. -/
def State.maintBegin (s : State) (d : Nat) (c : QCmd) (left : Nat) : State :=
  let s := s.popQueue d 13
  s.setDie d { s.die d with
    maint := some c
    maintLeft := left }

/-- Bytes of its region that an operation covers as it starts: all of them, but in a bubble only those of its first segment
(R684, log 83). -/
def State.segment (s : State) (c : QCmd) : Nat :=
  if s.jobRuns then min (cbSize c.word) (64 * Config.segment (cbOp c.word)) else cbSize c.word

/-- SELFTEST or PATTERN has started: it takes the spares that no sample uses, and the tiles that no main-job command uses
(R30, R258). -/
def State.testBegin (s : State) (d : Nat) (c : QCmd) : State :=
  let s := s.maintBegin d c 0
  let x := s.die d
  s.setDie d { x with
    testing := (List.range 272).filter fun p => s.testable d p && !x.cruise.any (·.tile == p)
    notTested := [] }

/-- SELFTEST starts. -/
def doSelftest (d : Nat) (s : State) : State :=
  match s.maintReady d 1 with
  | some c => s.testBegin d c
  | none => s

/-- SELFTEST starts. -/
def execSelftest (d : Fin 8) (s : State) : Host.Outcome State Fault Refusal := .next (doSelftest d s)

/-- First byte of the pattern bundles in the NVM region (R601). -/
def bundleBase : Nat := 0x2D00000

/-- R567, R583, R585: the bundle copied to device memory and verified, at the first PATTERN after a start-up. The length of
the object is what its first 64 bytes say; how is not given (log 84). -/
def State.useBundle (s : State) : State :=
  if s.bundle.isSome then s
  else
    let len := min (2 ^ 26) (Config.bundleLen (s.nvmRd bundleBase 64))
    let (e, o) := s.checkObject 2 none (fun off n => s.nvmRd (bundleBase + off) n) len
    let s := { s with
      bundle := some e
      bundleCopy := s.nvmRd bundleBase len }
    if e = .ok then s else s.objectEvent e o.hdr 0

/-- The patterns that the copied bundle holds, 1 to 256 (R567; how it says so is not given, log 84). -/
def State.patterns (s : State) : Nat := 1 + Config.bundleCount s.bundleCopy % 256

/-- PATTERN starts (R567) with a bundle that was accepted and an ARG that names one of its patterns. Otherwise the command
ends in error (DESIGN CHOICE, log 84). -/
def doPattern (d : Nat) (s : State) : State :=
  match s.maintReady d 2 with
  | some c =>
    let s := s.useBundle
    let e := s.bundle.getD .ok
    if e ≠ .ok then ((s.popQueue d 13).errCmd c e 0 0 0).enrol
    else if cbArg c.word ≥ s.patterns then ((s.popQueue d 13).errCmd c .fieldInvalid 0 0 (cbArg c.word)).enrol
    else s.testBegin d c
  | none => s

/-- PATTERN starts. -/
def execPattern (d : Fin 8) (s : State) : Host.Outcome State Fault Refusal := .next (doPattern d s)

/-- Granules of a region read, and corrected ones written back; the first lost one ends it there (R302). -/
def State.scrubPart (s : State) (a n : Nat) : State × Option Nat :=
  match s.firstPoison a n with
  | some g => ((s.counted a (64 * g - a)).rewritten a (64 * g - a), some g)
  | none => ((s.counted a n).rewritten a n, none)

/-- SCRUB: every granule of the region is read, and corrected ones are written back. A lost granule ends the command there,
with MEM_UNCORRECTABLE (R302). -/
def doScrubOp (d : Nat) (s : State) : State :=
  match s.maintReady d 3 with
  | some c =>
    let n := s.segment c
    match s.scrubPart (cbAddr c.word) n with
    | (t, some g) => (t.popQueue d 13).memFail c (64 * g)
    | (t, none) => t.maintBegin d c (cbSize c.word - n)
  | none => s

/-- SCRUB. -/
def execScrub (d : Fin 8) (s : State) : Host.Outcome State Fault Refusal := .next (doScrubOp d s)

/-- Zero data in every byte of a range, whose errors end (R335, R336). -/
def State.wipeRange (s : State) (a n : Nat) : State :=
  let s := (s.invalidate a n).healAll fun g => a ≤ 64 * g && 64 * g < a + n
  { s with mem := s.mem.filter fun c => !(a ≤ c.1 && c.1 < a + n) }

/-- WIPE: the wipe pattern over the region; every weight cache is emptied (R332). -/
def doWipe (d : Nat) (s : State) : State :=
  match s.maintReady d 4 with
  | some c =>
    let s := (s.maintBegin d c 0).emptyCaches
    if cbSize c.word = 0 then s else s.wipeRange (cbAddr c.word) (cbSize c.word)
  | none => s

/-- WIPE. -/
def execWipe (d : Fin 8) (s : State) : Host.Outcome State Fault Refusal := .next (doWipe d s)

/-- The neighbour on the D axis that ARG[0] of a RESTORE names: the nearest effective member in the D+ direction for 1, in
the D− direction for 0 (R258, R571). -/
def State.dNeighbour (s : State) (arg : Nat) : Option Nat :=
  let e := max 1 (s.extent 4)
  let step (k : Nat) : Nat := if bit arg 0 then (s.ownOn 4 + k) % e else (s.ownOn 4 + e - k) % e
  ((List.range e).map step).find? s.dPeers.contains

/-- RESTORE: the region takes what the neighbour holds. Without an effective neighbour the restore is impossible:
STATE_LOST, and the region stays (R571). -/
def doRestore (d : Nat) (s : State) : State :=
  match s.maintReady d 5 with
  | some c =>
    let n := s.segment c
    let s := s.maintBegin d c (cbSize c.word - n)
    match s.dNeighbour (cbArg c.word) with
    | some _ => s.restoreGranules (cbAddr c.word / 64) (n / 64)
    | none => s.raise .stateLost 15 0xFF 0 0 (cbAddr c.word)
  | none => s

/-- RESTORE. -/
def execRestore (d : Fin 8) (s : State) : Host.Outcome State Fault Refusal := .next (doRestore d s)

/-! ## Completion -/

/-- A suspect tile was tested now and passed. -/
def State.tilePassed (s : State) (d p : Nat) : State :=
  let t := (s.die d).tile p
  if t.st = .suspect then s.setTile d p { t with
    lastTest := s.now
    untested := false }
  else s

/-- The tiles that a test that ends now has used. -/
def State.tested (s : State) (d : Nat) : List Nat := (s.die d).testing.filter (s.testable d)

/-- The tiles that a test used, with those that failed (R555, R568). A spare that a remap has taken is none of them
(R30). -/
def State.testTiles (s : State) (d : Nat) (failed : List Nat) (detail : Nat) : State :=
  let used := s.tested d
  let s := s.setDie d { s.die d with testing := [] }
  used.foldl (fun s p => if failed.contains p then s.tileTestFailed d p detail else s.tilePassed d p) s

/-- R568: a pattern's record and, when it differs, its event. The record names the die (log 84). -/
def State.patternRecord (s : State) (d p : Nat) (fail : Bool) : State :=
  if fail then
    let s := s.history 9 9 d 0 p
    s.raise .patternFail d 0xFF 0 s.nvm.histSeq p
  else s.history 9 10 d 0 p

/-- What the end of an operation leaves. -/
def State.maintResult (s : State) (d : Nat) (c : QCmd) (failed : List Nat) : State :=
  match cbOp c.word with
  | 1 => s.testTiles d failed 0
  | 2 => (s.patternRecord d (cbArg c.word) ((s.tested d).any failed.contains)).testTiles d failed (cbArg c.word)
  | _ => s

/-- The segments that an operation still has to run, up to a granule that is lost (R684). -/
def State.maintRest (s : State) (c : QCmd) (left : Nat) : State × Option Nat :=
  let a := cbAddr c.word + cbSize c.word - left
  match cbOp c.word with
  | 3 => s.scrubPart a left
  | 5 => (if (s.dNeighbour (cbArg c.word)).isSome then s.restoreGranules (a / 64) (left / 64) else s, none)
  | _ => (s, none)

/-- MAINT_COMPLETE (R253, R684): the operation of die d runs what is left of it and ends, in a bubble of a permitted phase or
with no main job. `failed` are the physical tiles that failed. -/
def doMaintComplete (d : Nat) (failed : List (Fin 272)) (s : State) : State :=
  match (s.die d).maint with
  | none => s
  | some c =>
    if s.maintPhase d (cbOp c.word) then
      let left := (s.die d).maintLeft
      let s := s.setDie d { s.die d with
        maint := none
        maintLeft := 0 }
      match s.maintRest c left with
      | (s, some g) => (s.memFail c (64 * g)).enrol
      | (s, none) =>
        ((s.maintResult d c (failed.map Fin.val)).completeCmd c (if cbOp c.word ≥ 4 ∧ cbSize c.word ≠ 0 then [d] else
          [])).enrol
    else s

/-- MAINT_COMPLETE. -/
def execMaintComplete (d : Fin 8) (failed : List (Fin 272)) (s : State) : Host.Outcome State Fault Refusal :=
  .next (doMaintComplete d failed s)

end Sys2Proof.Machine
end

