-- ==== Sys2Proof/Machine/Update.lean ====
section
/-! DEFINITION. The update engine and the press (R467 to R497): constants, operations, blocks, rows, sub-blocks, and the
fold. -/

namespace Sys2Proof.Machine

/-! ## Constants -/

/-- rn64 of a value. -/
def rn64 (v : Val) : Val := (rnTo .fp64 v).1

/-- The quotient of two values in binary64. -/
def div64 (a b : Val) : Val := decodeFloat .fp64 (divT .fp64 false .rne a b).1

/-- pow(b, t) of R475 from bit n − 1 of t down. -/
def powBits (b : Val) (t : Nat) : Nat → Val → Val
  | 0, r => r
  | n + 1, r =>
    let q := rn64 (r.mul r).2
    powBits b t n (if bit t n then rn64 (q.mul b).2 else q)

/-- pow(b, t) of R475. -/
def pow64 (b : Val) (t : Nat) : Val := powBits b t 32 (.fin false 1 0)

/-- LR(k) of R475 in binary64 for k from the first listed step on. -/
def lrFrom : List (Nat × Nat) → Nat → Val
  | [], _ => .zero
  | [(_, e)], _ => decodeFloat .fp32 e
  | (k0, e0) :: (k1, e1) :: r, k =>
    if k < k1 then
      let a := decodeFloat .fp32 e0
      let d := rn64 ((decodeFloat .fp32 e1).add a.negate).2
      let p := rn64 (d.mul (.fin false (k - k0) 0)).2
      rn64 (a.add (div64 p (.fin false (k1 - k0) 0))).2
    else lrFrom ((k1, e1) :: r) k

/-- LR(k) of R475 in binary64, over pairs of step and FP32 rate. -/
def lrAt (l : List (Nat × Nat)) (k : Nat) : Val :=
  match l with
  | (k0, e0) :: _ => if k ≤ k0 then decodeFloat .fp32 e0 else lrFrom l k
  | [] => .zero

/-- The constant bank of R474: step counter `k`, touch count `t`, and GAP. -/
def constBank (p : UProg) (k t gap : Nat) : List Val :=
  let one : Val := .fin false 1 0
  let r32 (v : Val) : Val := (rnTo .fp32 v).1
  let h := p.hdr
  let a := pow64 (decodeFloat .fp32 (uhD1 h)) t
  let b := pow64 (decodeFloat .fp32 (uhD2 h)) t
  let inv (x : Val) : Val := div64 one (rn64 (one.add x.negate).2)
  [.zero, one, .fin true 1 0, r32 (lrAt p.lr k), r32 a, r32 b, r32 (inv a), r32 (inv b), r32 (.fin false t 0),
    .fin false gap 0] ++ (List.range 6).map fun i => (decodeFloat .fp32 (uhQ h i)).noNegZero

/-! ## One lane -/

/-- An operand as an operation reads it (R127, R137). -/
def regIn (ftz : Bool) (v : Val) : Val × Nat :=
  match v with
  | .fin n m e => if m = 0 then (.zero, 0) else if ftz && tiny .x48 m e then (.zero, flFlushed) else (.fin n m e, 0)
  | v => (v, 0)

/-- A result rounded once to a format and held as its decoded value (R476). -/
def regOut (f : Fm) (ftz : Bool) (rm : Rm) (r : Bool × Val) : Val × Nat :=
  if r.1 then (.nan, flInvalid)
  else
    let (p, fl) := encodeT f ftz rm r.2
    ((decode f p).noNegZero, fl)

/-- A function of R182 on a source rounded to FP32 (R477). -/
def regFn (f : Val → Nat × Nat) (v : Val) : Val × Nat :=
  let (x, f1) := rnTo .fp32 v
  let (p, f2) := f x
  ((decodeFloat .fp32 p).noNegZero, f1 ||| f2)

/-- Whether an operation reads SB, and SC (R472). -/
def uopB (o : Nat) : Bool := o == 3 || o == 4 || o == 5 || o == 8 || o == 9 || o == 10 || o == 11
/-- SC. -/
def uopC (o : Nat) : Bool := o == 5 || o == 10 || o == 11

/-- One lane of an operation that computes (R472, R476, R477). -/
def uopLane (w : Nat) (ftz : Bool) (rm : Rm) (a b c : Val) : Val × Nat :=
  let o := uoOp w
  let (x, f1) := regIn ftz a
  let (y, f2) := if uopB o then regIn ftz b else (.zero, 0)
  let (z, f3) := if uopC o then regIn ftz c else (.zero, 0)
  let (v, fl) : Val × Nat := match o with
    | 0x03 => regOut .x48 ftz rm (opTensor 0x02 x y z 0)
    | 0x04 => regOut .x48 ftz rm (opTensor 0x00 x y z 0)
    | 0x05 => regOut .x48 ftz rm (opTensor 0x03 x y z 0)
    | 0x06 => regFn (recip32 ftz) x
    | 0x07 => regFn (rsqrt32 ftz) x
    | 0x08 => ((maxVal x y).noNegZero, 0)
    | 0x09 => ((minVal x y).noNegZero, 0)
    | 0x0A => ((minVal (maxVal x y) z).noNegZero, 0)
    | 0x0B => (if Val.zero.lt x then y else z, 0)
    | 0x0C => (signVal x, 0)
    | 0x0D => regFn (exp2_32 ftz) x
    | 0x0E => regFn (log2_32 ftz) x
    | 0x0F => regOut .x48 ftz rm (false, x.scale (sext 8 (uoImm w)))
    | _ => regOut ((Fm.ofCode (uoFmt w)).getD .fp32) ftz rm (false, x)
  (v, fl ||| f1 ||| f2 ||| f3)

/-! ## Running a program on a block -/

/-- A program at work on a block: registers U0 to U15, constants, the slot element of lane 0, and the lanes in use. -/
structure UpdRun where
  regs : List (List Val)
  bank : List Val
  base : Nat
  lanes : Nat
  ftz : Bool

/-- A source operand, lane by lane (R471). -/
def UpdRun.src (u : UpdRun) (i : Nat) : List Val :=
  if i < 16 then u.regs.getD i [] else List.replicate u.lanes (u.bank.getD (i - 16) .zero)

/-- Rounding of lane `i` for an operation (R476). -/
def State.uopRm (s : State) (c : Coll) (u : UpdRun) (w i : Nat) : Rm :=
  rmTensor (s.collDraw c (uoSite w)) (uoRmode w) (u.base + i)

/-- LD (R472, R480): a slot element that is subnormal in its own format reads as zero under FTZ (R127, R128). -/
def State.uopLoad (s : State) (d k : Nat) (c : Coll) (p : UProg) (u : UpdRun) (w : Nat) : State × UpdRun :=
  let r := s.desc (usHandle (p.slot (uoSlot w)))
  let cur := s.readCopy c.cmd
  match s.elemsPoison cur r u.base u.lanes with
  | some g => (s.collMemFail d k c (64 * g), u)
  | none =>
    let xs := (List.range u.lanes).map fun i => s.rdIn cur r (u.base + i) u.ftz
    ((s.elemsCounted cur r u.base u.lanes).collFlags d (xs.foldl (fun f x => f ||| x.2) 0), { u with regs := u.regs.set (uoDst w) (xs.map (·.1)) })

/-- ST (R472, R480). -/
def State.uopStore (s : State) (d k : Nat) (c : Coll) (p : UProg) (u : UpdRun) (w : Nat) : State :=
  let r := s.writtenDesc (s.desc (usHandle (p.slot (uoSlot w))))
  let vs := (u.src (uoSa w)).map (regIn u.ftz)
  let (cells, fl) := s.encodeRun r u.base u.ftz (s.uopRm c u w) (vs.map fun v => some v.1)
  (s.collFlags d (vs.foldl (fun f v => f ||| v.2) fl)).collPut d k c cells

/-- An operation that computes, on every lane. -/
def State.uopCompute (s : State) (d : Nat) (c : Coll) (u : UpdRun) (w : Nat) : State × UpdRun :=
  let a := u.src (uoSa w)
  let b := u.src (uoSb w)
  let z := u.src (uoSc w)
  let out := (List.range u.lanes).map fun i =>
    uopLane w u.ftz (s.uopRm c u w i) (a.getD i .zero) (b.getD i .zero) (z.getD i .zero)
  (s.collFlags d (out.foldl (fun f v => f ||| v.2) 0), { u with regs := u.regs.set (uoDst w) (out.map (·.1)) })

/-- Operations in program order (R473); an error ends them. -/
def State.runOps (s : State) (d k : Nat) (c : Coll) (p : UProg) (u : UpdRun) : List Nat → State
  | [] => s
  | w :: r =>
    if (s.coll d k).isNone then s
    else match uoOp w with
      | 1 =>
        let (s, u) := s.uopLoad d k c p u w
        State.runOps s d k c p u r
      | 2 => State.runOps (s.uopStore d k c p u w) d k c p u r
      | _ =>
        let (s, u) := s.uopCompute d c u w
        State.runOps s d k c p u r

/-! ## Rows -/

/-- Value of ROWIDX that marks a row not applied (R494). -/
def rowNone : Nat := 0xFFFFFFFF

/-- Entry `q` of ROWIDX. -/
def State.rowEntry (s : State) (p : UProg) (q : Nat) : Nat := s.rdElem 0 (s.desc (uaRowidx p.aux)) q

/-- ROW_ORDER (R496): the nearest earlier entry that names a row is not below this one. -/
def State.rowDisorder (s : State) (p : UProg) (q : Nat) : Bool :=
  match (List.range q).reverse.find? fun i => s.rowEntry p i != rowNone with
  | some i => s.rowEntry p i ≥ s.rowEntry p q
  | none => false

/-- The ranges that the mirror copies for a row: copy-A address, bytes, COPY_OFFSET (R497). -/
def rowRanges (r row : Nat) : List (Nat × Nat × Nat) :=
  let i := row * tdExt r 0
  let n := cdiv (tdExt r 0 * (tdFm r).planeBits) 8
  let more := if tdBlocked r = 1 then [(tdScalePlace 0 r i, tdRowBlocks r, tdCopyOffset r)]
    else if tdFm r = .x48 then [(tdExtPlace 0 r i, 2 * tdExt r 0, tdCopyOffset r)] else []
  ((tdPlace 0 r i).1, n, tdCopyOffset r) :: more

/-- What a row met for the first time shows besides its order (R496). -/
def State.rowErr (s : State) (c : Coll) (p : UProg) (row : Nat) : Err :=
  let hd := s.desc (uaRowhdr p.aux)
  if row ≥ tdExt hd 1 then .rowBounds
  else if s.rdElem s.writtenCopy hd (2 * row + 1) = s.tailStep c then .rowTwice
  else if Tab.get 0 (s.die c.cmd.die).rowCount p.addr ≥ uaLogcap p.aux then .rowlogFull
  else .ok

/-- A row met for the first time by a command: its constants set, its header written, its log entry made (R495 to
R497). -/
def State.openRow (s : State) (d k : Nat) (c : Coll) (p : UProg) (row : Nat) : State :=
  let hd := s.desc (uaRowhdr p.aux)
  let cur := s.readCopy c.cmd
  let n := s.rdElem cur hd (2 * row)
  let last := s.rdElem cur hd (2 * row + 1)
  let t := min (2 ^ 32 - 1) (n + 1)
  let step := s.tailStep c
  let gap := if n = 0 then 0 else step - last - 1
  let c := { c with rows := Tab.upd c.rows row (t, gap) }
  let x := s.die d
  let at_ := Tab.get 0 x.rowCount p.addr
  let stores := p.used.filter fun i => usStore (p.slot i) == 1
  let ranges := stores.flatMap fun i => rowRanges (s.desc (usHandle (p.slot i))) row
  let head := ((tdPlace 0 hd (2 * row)).1, 8, tdCopyOffset hd)
  let s := (s.setColl d k c).setDie d { x with
    rowCount := Tab.put 0 x.rowCount p.addr (at_ + 1)
    rowlog := x.rowlog ++ ranges ++ [head] }
  let w := s.writtenDesc hd
  let s := s.collPut d k c (elemCells w (2 * row) t ++ elemCells w (2 * row + 1) step)
  s.collPut d k c (maskCells (uaRowlog p.aux + 4 * at_) 0 32 row)

/-! ## UPDATE_BLOCK -/

/-- A block done: it leaves the staging buffer. -/
def State.blockDone (s : State) (d k b : Nat) : State :=
  match s.coll d k with
  | none => s
  | some c =>
    s.setColl d k { c with
      queued := c.queued.erase b
      applied := c.applied + 1
      press := Tab.erase c.press b
      fails := Tab.erase c.fails 0 }

/-- The program run on block `b` at slot element `e`, with the constants of touch count `t` (R473). -/
def State.applyBlock (s : State) (d k : Nat) (c : Coll) (p : UProg) (b e t gap : Nat) : State :=
  let n := min 32 (s.cdElems c.desc - 32 * b)
  let g := if uhPress p.hdr = 1 then
      (List.range n).map fun i => (decodeFloat .fp32 (bits (Tab.get 0 c.press b) (32 * i) 32)).noNegZero
    else wireDec 3 n (s.updBlock c b).1
  let u : UpdRun := {
    regs := g :: List.replicate 15 (List.replicate n .zero)
    bank := constBank p (s.tailStep c) t gap
    base := e
    lanes := n
    ftz := uhFtz p.hdr == 1 }
  let s := s.runOps d k c p u p.ops
  if (s.coll d k).isNone then s
  else
    let s := (s.bump .updQstat_applied d 1).blockDone d k b
    if uhRows p.hdr = 1 then s
    else
      let x := s.die d
      s.setDie d { x with stored := (p.ops.filter fun w => uoOp w == 2).foldl (fun t w =>
        let h := usHandle (p.slot (uoSlot w))
        Tab.put 0 t h (Tab.get 0 t h + 1)) x.stored }

/-- A block of a row program (R494 to R496). -/
def State.applyRow (s : State) (d k : Nat) (c : Coll) (p : UProg) (b : Nat) : State :=
  let w := max 1 (tdExt (s.desc (cdSrc c.desc)) 0)
  let q := 32 * b / w
  let col := 32 * b % w
  let ix := s.desc (uaRowidx p.aux)
  let hd := s.desc (uaRowhdr p.aux)
  let cd := cbCdesc c.cmd.word
  match s.elemsPoison 0 ix q 1 with
  | some g => s.collMemFail d k c (64 * g)
  | none =>
    let s := s.elemsCounted 0 ix q 1
    let row := s.rowEntry p q
    if row = rowNone then s.blockDone d k b
    else if s.rowDisorder p q then s.collFail d k c .rowOrder cd (tdPlace 0 ix q).1 cd
    else match c.rows.find? (·.1 == row) with
      | some (_, t, gap) => s.applyBlock d k c p b (row * w + col) t gap
      | none =>
        let e := s.rowErr c p row
        if e ≠ .ok then s.collFail d k c e cd (tdPlace 0 ix q).1 cd
        else match s.elemsPoison (s.readCopy c.cmd) hd (2 * row) 2 with
          | some g => s.collMemFail d k c (64 * g)
          | none =>
            let s := (s.elemsCounted (s.readCopy c.cmd) hd (2 * row) 2).openRow d k c p row
            match s.coll d k with
            | none => s
            | some c => match c.rows.find? (·.1 == row) with
              | some (_, t, gap) => s.applyBlock d k c p b (row * w + col) t gap
              | none => s

/-- The next block of die d that the update engine can take: the first in order of landing in the lowest slot, once
pressed where the program asks for it. -/
def State.nextBlock (s : State) (d : Nat) : Option (Nat × Coll × UProg × Nat) :=
  (List.range 16).findSome? fun k =>
    match s.coll d k with
    | none => none
    | some c => match s.boundProg c with
      | none => none
      | some p => (c.queued.find? fun b => uhPress p.hdr == 0 || c.press.any (·.1 == b)).map fun b => (k, c, p, b)

/-- UPDATE_BLOCK (R435, R473 to R480, R494 to R497). -/
def doUpdateBlock (d : Nat) (s : State) : State :=
  match s.nextBlock d with
  | none => s
  | some (k, c, p, b) =>
    if uhRows p.hdr = 1 then s.applyRow d k c p b
    else s.applyBlock d k c p b (slotIndex (s.resultOf c) (32 * b)) (s.tailStep c) 0

/-- UPDATE_BLOCK. -/
def execUpdateBlock (d : Fin 8) (s : State) : Host.Outcome State Fault Refusal := .next (doUpdateBlock d s)

/-! ## The press -/

/-- A 32 × 32 matrix of values by rows. -/
abbrev Mat32 := List (List Val)

/-- Element of a matrix. -/
def matAt (m : Mat32) (a b : Nat) : Val := (m.getD a []).getD b .zero

/-- Matrix `i` of a tensor of R484: row a, column b is element (b, a, i). -/
def State.rdMat (s : State) (cur r i : Nat) : Mat32 :=
  (List.range 32).map fun a => (List.range 32).map fun b => (s.rdVal cur r (32 * (a + 32 * i) + b)).noNegZero

/-- First uncorrectable granule of such a matrix. -/
def State.matPoison (s : State) (cur r i : Nat) : Option Nat :=
  if s.poison.isEmpty then none else (List.range 32).findSome? fun a => s.elemsPoison cur r (32 * (a + 32 * i)) 32

/-- Corrections of the reading of such a matrix counted. -/
def State.matCounted (s : State) (cur r i : Nat) : State :=
  if s.clean then s else (List.range 32).foldl (fun s a => s.elemsCounted cur r (32 * (a + 32 * i)) 32) s

/-- The product of two matrices: 32 exact products summed exactly, rounded once to FP32 (R485). -/
def matMul (x y : Mat32) : Mat32 × Nat :=
  let rows := (List.range 32).map fun a => (List.range 32).map fun c =>
    let (v, f1) := groupSum ((List.range 32).map fun b => (matAt x a b, matAt y b c))
    let (w, f2) := rnTo .fp32 v
    (w, f1 ||| f2)
  (rows.map fun r => r.map fun p => p.1, rows.foldl (fun f r => r.foldl (fun f p => f ||| p.2) f) 0)

/-- Largest magnitude of a product in units of 2^SX (R486). -/
def statMax : Nat := 2 ^ 94 - 1

/-- A product truncated to units of 2^SX and limited: the units, and whether it was limited; `none` for a product that
is not finite (R486). -/
def statUnits (sx : Int) (v : Val) : Option (Int × Bool) :=
  match v with
  | .fin n m e =>
    let u := if e ≥ sx then m <<< (e - sx).toNat else m >>> (sx - e).toNat
    let w := min u statMax
    some (if n then -(w : Int) else w, decide (u > statMax))
  | _ => none

/-- What one element's 32 products add: units, limited, not finite. -/
def statSum (sx : Int) (ps : List (Val × Val)) : Int × Bool × Bool :=
  ps.foldl (fun (t, l, n) (a, b) => match statUnits sx (a.mul b).2 with
    | some (u, x) => (t + u, l || x, n)
    | none => (t, l, true)) (0, false, false)

/-- Address of accumulator matrix `m` in PWORK: left strips, then right ones, 16 bytes for each element by rows (the
layout is DESIGN CHOICE, log 101). -/
def pworkAt (p : UProg) (m : Nat) : Nat := uaPwork p.aux + 16384 * m

/-- Two's-complement accumulator of element `x` of a matrix. -/
def State.accAt (s : State) (p : UProg) (m x : Nat) : Nat := s.rd (pworkAt p m + 16 * x) 16

/-- The products of a sub-block added to accumulator matrix `m`; `f a b c` gives the factors (R486). -/
def State.addStats (s : State) (d k : Nat) (p : UProg) (m : Nat) (f : Nat → Nat → Nat → Val × Val) : State :=
  match s.coll d k with
  | none => s
  | some c =>
    let sx := sext 8 (uaSx p.aux)
    let out := (List.range 1024).map fun x => statSum sx ((List.range 32).map fun j => f (x / 32) (x % 32) j)
    let bytes := out.zipIdx.flatMap fun (o, x) =>
      leBytes 16 (ofInt 128 ((s.accAt p m x : Int) + o.1))
    let nan := (out.zipIdx.filter fun (o, _) => o.2.2).map fun (_, x) => 1024 * m + x
    let s := (s.store (pworkAt p m) bytes).setColl d k { c with pressNan := nub (c.pressNan ++ nan) }
    s.collFlags d (flagIf (out.any fun o => o.2.1) flSaturated)

/-- The next sub-block of die d all of whose blocks have landed (R485). -/
def State.nextSub (s : State) (d : Nat) : Option (Nat × Coll × UProg × Nat) :=
  (List.range 16).findSome? fun k =>
    match s.coll d k with
    | none => none
    | some c => match s.boundProg c with
      | none => none
      | some p =>
        if uhPress p.hdr = 0 then none
        else ((nub (c.queued.map (· / 32))).find? fun q =>
          !c.pressed.contains q && (List.range 32).all fun a => c.queued.contains (32 * q + a)).map fun q => (k, c, p, q)

/-- PRESS_SUBBLOCK (R485, R486, R488). -/
def doPressSub (d : Nat) (s : State) : State :=
  match s.nextSub d with
  | none => s
  | some (k, c, p, q) =>
    let src := s.desc (cdSrc c.desc)
    let e2 := max 1 (tdExt src 2)
    let j := q % e2
    let i := q / e2
    let cur := s.readCopy c.cmd
    let lr := s.desc (uaLroot p.aux)
    let rr := s.desc (uaRroot p.aux)
    let mr := tdExt src 3 + j
    let bad := (s.matPoison cur lr i) <|> (s.matPoison cur rr j) <|>
      (if c.held then none else (s.firstPoison (pworkAt p i) 16384) <|> (s.firstPoison (pworkAt p mr) 16384))
    match bad with
    | some g => s.collMemFail d k c (64 * g)
    | none =>
      let s := (s.matCounted cur lr i).matCounted cur rr j
      let s := if c.held then s else (s.counted (pworkAt p i) 16384).counted (pworkAt p mr) 16384
      let g : Mat32 := (List.range 32).map fun a => wireDec 3 32 (s.updBlock c (32 * q + a)).1
      let (t, f1) := matMul (s.rdMat cur lr i) g
      let (y, f2) := matMul t (s.rdMat cur rr j)
      let rows := y.zipIdx.map fun (r, a) => (32 * q + a, packFields 32 (r.map fun v => (encodeT .fp32 false .rne v).1))
      let s := (s.collFlags d (f1 ||| f2)).setColl d k { c with
        pressed := c.pressed ++ [q]
        fails := Tab.erase c.fails 1
        press := rows.foldl (fun t p => Tab.upd t p.1 p.2) c.press }
      if c.held then s
      else (s.addStats d k p i fun a b x => (matAt g a x, matAt g b x)).addStats d k p mr fun a b x =>
        (matAt g x a, matAt g x b)

/-- PRESS_SUBBLOCK. -/
def execPressSubblock (d : Fin 8) (s : State) : Host.Outcome State Fault Refusal := .next (doPressSub d s)

/-! ## The fold -/

/-- One statistic element folded: SDECAY × current + S × 2^SX, rounded once (R487, R488). -/
def foldVal (p : UProg) (held nan : Bool) (cur : Val) (acc : Nat) : Bool × Val :=
  if held then (false, cur)
  else if nan then (false, .nan)
  else
    let a := sext 128 acc
    let (i, v) := (decodeFloat .fp32 (uaSdecay p.aux)).mul cur
    let (j, w) := v.add (.fin (decide (a < 0)) a.natAbs (sext 8 (uaSx p.aux)))
    (i || j, w)

/-- One matrix of statistics folded into the written copy: matrix `i` of tensor `r`, accumulator matrix `m`. -/
def State.foldMat (s : State) (d k : Nat) (c : Coll) (p : UProg) (r i m : Nat) : State :=
  let cur := s.readCopy c.cmd
  let w := s.writtenDesc r
  (List.range 32).foldl (fun s a =>
    let vs := (List.range 32).map fun b =>
      let x := 32 * a + b
      foldVal p c.held (c.pressNan.contains (1024 * m + x)) (s.rdVal cur r (1024 * i + x)).noNegZero (s.accAt p m x)
    let (cells, fl) := s.encodeRun w (1024 * i + 32 * a) false (fun _ => .rne)
      (vs.map fun v => some (if v.1 then .nan else v.2))
    (s.collFlags d (fl ||| flagIf (vs.any (·.1)) flInvalid)).collPut d k c cells) s

/-- A root tensor copied, matrix by matrix, from copy `cur` of `src` into the written copy of `dst`. -/
def State.copyRoots (s : State) (d k : Nat) (c : Coll) (src cur dst n : Nat) : State :=
  let w := s.writtenDesc dst
  (List.range (32 * n)).foldl (fun s a => s.collPut d k c (rawCells w (32 * a) 32 (s.rawPayload cur src (32 * a) 32))) s

/-- Whether every element of a root tensor is finite (R492). -/
def State.rootsFinite (s : State) (r n : Nat) : Bool :=
  (List.range (1024 * n)).all fun i => (s.rdVal 0 r i).isFin

/-- Whether new roots are due at this fold (R491). -/
def State.rootsDue (s : State) (c : Coll) (p : UProg) : Bool :=
  uaRefresh p.aux != 0 && s.tailStep c % uaRefresh p.aux == 0

/-- New roots installed, or the current ones carried (R491, R492). -/
def State.foldRoots (s : State) (d k : Nat) (c : Coll) (p : UProg) (nl nr : Nat) : State :=
  let x := p.aux
  let cur := s.readCopy c.cmd
  let due := s.rootsDue c p
  let ln := s.desc (uaLnew x)
  let rn := s.desc (uaRnew x)
  let fin := s.rootsFinite ln nl && s.rootsFinite rn nr
  let s := if due && !fin then s.schedEvent c.cmd .rootRejected (uaLroot x) else s
  if due && fin then
    (s.copyRoots d k c ln 0 (s.desc (uaLroot x)) nl).copyRoots d k c rn 0 (s.desc (uaRroot x)) nr
  else
    (s.copyRoots d k c (s.desc (uaLroot x)) cur (s.desc (uaLroot x)) nl).copyRoots d k c (s.desc (uaRroot x)) cur
      (s.desc (uaRroot x)) nr

/-- The tensors that the fold reads, with the copy: the statistics, the new roots where they are due, and the roots where
they are carried (R487, R491). -/
def State.foldReads (s : State) (c : Coll) (p : UProg) (nl nr : Nat) : List (Nat × Nat) :=
  let x := p.aux
  let cur := s.readCopy c.cmd
  let due := s.rootsDue c p
  let carry := !(due && s.rootsFinite (s.desc (uaLnew x)) nl && s.rootsFinite (s.desc (uaRnew x)) nr)
  [(cur, s.desc (uaLstat x)), (cur, s.desc (uaRstat x))] ++
    (if due then [(0, s.desc (uaLnew x)), (0, s.desc (uaRnew x))] else []) ++
    if carry then [(cur, s.desc (uaLroot x)), (cur, s.desc (uaRroot x))] else []

/-- First uncorrectable granule that the fold reads. -/
def State.foldPoison (s : State) (c : Coll) (p : UProg) (nl nr : Nat) : Option Nat :=
  ((s.foldReads c p nl nr).findSome? fun x => s.tensorPoison x.1 x.2) <|>
    s.firstPoison (uaPwork p.aux) (16384 * (nl + nr))

/-- The corrections of those reads counted (R302). -/
def State.foldCounted (s : State) (c : Coll) (p : UProg) (nl nr : Nat) : State :=
  if s.clean then s
  else ((s.foldReads c p nl nr).foldl (fun s x => s.tensorCounted x.1 x.2) s).counted (uaPwork p.aux) (16384 * (nl + nr))

/-- PRESS_FOLD (R487, R488, R491, R492): once the last sub-block has been pressed. -/
def doPressFold (d k : Nat) (s : State) : State :=
  match s.coll d k with
  | none => s
  | some c =>
    match s.boundProg c with
    | none => s
    | some p =>
      let src := s.desc (cdSrc c.desc)
      let nl := tdExt src 3
      let nr := tdExt src 2
      if uhPress p.hdr = 0 || c.folded || c.pressed.length < nl * nr then s
      else match s.foldPoison c p nl nr with
        | some g => s.collMemFail d k c (64 * g)
        | none =>
          let s := s.foldCounted c p nl nr
          let s := (List.range nl).foldl (fun s i => s.foldMat d k c p (s.desc (uaLstat p.aux)) i i) s
          let s := (List.range nr).foldl (fun s j => s.foldMat d k c p (s.desc (uaRstat p.aux)) j (nl + j)) s
          let s := s.foldRoots d k c p nl nr
          match s.coll d k with
          | none => s
          | some c => s.setColl d k { c with folded := true }

/-- PRESS_FOLD. -/
def execPressFold (d : Fin 8) (slot : Fin 16) (s : State) : Host.Outcome State Fault Refusal :=
  .next (doPressFold d slot s)

end Sys2Proof.Machine
end

