-- ==== Sys2Proof/Machine/Replay.lean ====
section
/-! DEFINITION. Recovery from check failures inside a die (R498 to R501, R547 to R560): tile replay, replay boundaries,
cruise samples and the repetitions of the other engines. -/

namespace Sys2Proof.Machine

/-! ## Replay -/

/-- What one mismatch does to its tile (R555). `before` counts the mismatches of the same tile in this block, and `ip` is
the instruction address. -/
def State.tileMismatch (s : State) (d g t before ip : Nat) : State :=
  let k := 32 * g + t
  let p := (s.die d).phys g t
  let r := (s.die d).tile p
  if before ≥ 2 then (if r.st = .retired then s else s.retireTile d p ip).remapTile d k ip
  else
    match r.st with
    | .good => if before = 1 then (s.suspectTile d p).history 1 2 d p ip else s
    | .suspect =>
      let m := r.mism + 1
      if m ≥ s.fld .fltCfg_suspectLimit 0 then s.retireTile d p ip
      else
        let s := s.setTile d p { r with
          mism := m
          since := s.now
          served := 0 }
        if before = 1 then s.history 1 2 d p ip else s
    | .retired => s

/-- TILE_REPLAY (R547, R549, R553 to R555): a check on logical tile t fails in an instruction that has not completed or was
issued since the last boundary (log 58). The gathering goes back to the boundary before it and issues again. -/
def doTileReplay (d g t : Nat) (s : State) : State :=
  let x := s.gath d g
  match x.cmd, x.replayFrom x.suspectOrder with
  | some _, some (c, older) =>
    if x.order > c.order then
      let ip := x.core.ip
      let p := (s.die d).phys g t
      let before := (x.replays.filter (·.1 == p)).length
      let s := s.bump .fltDiestat_mismatches d 1
      let s := s.setGath d g { x with replays := x.replays ++ [(p, ip)] }
      ((s.restore d g c older).tileMismatch d g t before ip).enrol
    else s
  | _, _ => s

/-- TILE_REPLAY. -/
def execTileReplay (d g : Fin 8) (tile : Fin 32) (s : State) : Host.Outcome State Fault Refusal :=
  .next (doTileReplay d g tile s)

/-- REPLAY_BOUNDARY (R552): issued work completes and a new checkpoint is taken. Which tile holds a line of scratch, and
so when a buffer is full, is not stated: the command is that occurrence (log 58). -/
def doReplayBoundary (d g : Nat) (s : State) : State :=
  let x := s.gath d g
  match x.cmd, x.ckpt with
  | some _, some c =>
    if x.order > c.order && !x.ended then
      ((s.landAll d g).bump .fltDiestat_boundaries d 1).passBoundary d g
    else s
  | _, _ => s

/-- REPLAY_BOUNDARY. -/
def execReplayBoundary (d g : Fin 8) (s : State) : Host.Outcome State Fault Refusal := .next (doReplayBoundary d g s)

/-! ## Cruise samples -/

/-- WORST of CRZ.STAT for a difference (R501): 128 + ⌈log2 d⌉ within 1 to 255; 0 for no difference. -/
def worstOf (c : CruiseRec) : Nat :=
  if c.m = 0 then 0
  else
    let f := floorLog2 c.m c.e
    let up := if c.m = 2 ^ (bitLen c.m - 1) ∧ !c.st then f else f + 1
    (max 1 (min 255 (128 + up))).toNat

/-- CRUISE_SAMPLE (R499 to R501): the oldest sample taken on a die is judged, and its tile is free again. -/
def doCruise (d : Nat) (s : State) : State :=
  match (s.die d).cruise with
  | [] => s
  | c :: r =>
    let s := (s.setDie d { s.die d with cruise := r }).bump .crzStat_samples d 1
    let s := s.setFld .crzStat_worst d (max (s.fld .crzStat_worst d) (worstOf c))
    let s := s.monFeed 7 (selDie d) (if c.nan then none else some ⟨c.m, c.e, c.st⟩)
    if c.bad then (s.bump .crzStat_mismatches d 1).raise .cruiseMismatch d 0xFF 0 0 c.ip else s

/-- CRUISE_SAMPLE. -/
def execCruiseSample (d : Fin 8) (s : State) : Host.Outcome State Fault Refusal := .next (doCruise d s)

/-! ## Other engines -/

/-- Number of a check unit. -/
def checkUnitNum : CheckUnit → Nat
  | .update => 0
  | .press => 1
  | .collective => 2

/-- The collective in whose block a unit's check fails: for the update engine and the press that of the block or sub-block
which they take next, else the one that runs in the lowest slot (DESIGN CHOICE, log 250). -/
def State.checkedColl (s : State) (d : Nat) (u : CheckUnit) : Option (Nat × Coll) :=
  let runs := (List.range 16).findSome? fun k => ((s.coll d k).filter fun c => !c.done).map fun c => (k, c)
  match u with
  | .update => ((s.nextBlock d).map fun x => (x.1, x.2.1)) <|> runs
  | .press => ((s.nextSub d).map fun x => (x.1, x.2.1)) <|> runs
  | .collective => runs

/-- ENGINE_CHECK_RETRY (R560): a block is done again, and recorded; a third failure in one block fails the die. -/
def doCheckRetry (d : Nat) (u : CheckUnit) (s : State) : State :=
  match s.checkedColl d u with
  | none => s
  | some (k, c) =>
    let n := Tab.get 0 c.fails (checkUnitNum u) + 1
    let s := (s.bump .fltDiestat_mismatches d 1).setColl d k { c with fails := Tab.upd c.fails (checkUnitNum u) n }
    if n ≥ 3 then s.failDie d else s.history 11 1 d (16 * d + 12) 0

/-- ENGINE_CHECK_RETRY. -/
def execEngineCheckRetry (d : Fin 8) (unit : CheckUnit) (s : State) : Host.Outcome State Fault Refusal :=
  .next (doCheckRetry d unit s)

end Sys2Proof.Machine
end

