-- ==== Sys2Proof/Machine/Sideband.lean ====
section
/-! DEFINITION. The sideband interfaces: I3C with its telemetry map (R650 to R652) and JTAG (R588, R654). -/

namespace Sys2Proof.Machine

/-! ## I3C -/

/-- The target serves from the end of ROM start (R650). -/
def State.i3cServes (s : State) : Bool := !s.perst && s.fld .startStatus_phase 0 ≥ 2

/-- The static address of R650. -/
def State.i3cStatic (s : State) : Nat := 0x50 + s.slot

/-- LC_STATE shows the fuses at all times (R651 Reset column). -/
def State.lcBits (s : State) : Nat := s.fuses.state * 2 ^ 96

/-- The telemetry map as of now (R651). -/
def State.telemetryMap (s : State) : Nat :=
  let hot (f : Field) := maxOf (s.joinedDies.map fun d => s.fld f d)
  s.viewReg .orgIdent 0 % 2 ^ 32 + s.viewReg .startStatus 0 % 2 ^ 32 * 2 ^ 32 + s.fld .budPower_watts 0 * 2 ^ 64 +
    hot .budStatus_hotLogic * 2 ^ 80 + hot .budStatus_hotStack * 2 ^ 88 + s.lcBits +
    hot .budStatus_state * 2 ^ 104 + s.idTag * 2 ^ 128 + s.fld .irlCap_word 141 * 2 ^ 192 +
    s.fld .irlCap_word 142 * 2 ^ 224 + s.now % 2 ^ 64 * 2 ^ 256

/-- TELEMETRY_REFRESH (R651). -/
def doTelemetry (s : State) : State :=
  if s.perst then s else { s with hif := { s.hif with telemetry := s.telemetryMap } }

/-- TELEMETRY_REFRESH. -/
def execTelemetryRefresh (s : State) : Host.Outcome State Fault Refusal := .next (doTelemetry s)

/-- Byte k of the map that private reads return. -/
def State.telemetryByte (s : State) (k : Nat) : Nat :=
  bits (if s.hif.telemetry = 0 then s.lcBits else s.hif.telemetry) (8 * (k % 64)) 8

/-- I3C_PRIVATE_WRITE (R651): the first byte sets the read offset, the others are ignored. -/
def doI3cWrite (data : List Nat) (s : State) : State :=
  match data with
  | b :: _ => if s.i3cServes then { s with hif := { s.hif with i3cOff := b % 256 % 64 } } else s
  | [] => s

/-- I3C_PRIVATE_WRITE. -/
def execI3cPrivateWrite (data : List Nat) (s : State) : Host.Outcome State Fault Refusal := .next (doI3cWrite data s)

/-- I3C_PRIVATE_READ (R651): `n` bytes from the offset, wrapping at 64; the offset stays as set (DEDUCED, log 81). -/
def doI3cRead (n : Nat) (s : State) : State :=
  if s.i3cServes then s.answer (.bytes ((List.range n).map fun i => s.telemetryByte (s.hif.i3cOff + i))) else s

/-- I3C_PRIVATE_READ. -/
def execI3cPrivateRead (n : Nat) (s : State) : Host.Outcome State Fault Refusal := .next (doI3cRead n s)

/-- A dynamic address taken, when the target has none (I3C Basic; PRESUMED, log 81). -/
def State.i3cAssign (s : State) (a : Nat) : State :=
  if s.i3cServes && s.hif.i3cDyn == 0 then { s with hif := { s.hif with i3cDyn := a % 128 } } else s

/-- ENTDAA: the controller assigns a dynamic address. -/
def execEntdaa (addr : Nat) (s : State) : Host.Outcome State Fault Refusal := .next (s.i3cAssign addr)
/-- SETDASA: the dynamic address is set through the static one. -/
def execSetdasa (addr : Nat) (s : State) : Host.Outcome State Fault Refusal := .next (s.i3cAssign addr)
/-- RSTDAA: the dynamic address is reset. -/
def execRstdaa (s : State) : Host.Outcome State Fault Refusal :=
  .next (if s.i3cServes then { s with hif := { s.hif with i3cDyn := 0 } } else s)

/-- A constant that the spec does not give, answered in `w` bits. -/
def State.i3cAnswer (s : State) (k w : Nat) : State :=
  if s.i3cServes then s.answer (.data (Config.sideband k % 2 ^ w)) else s

/-- GETPID: the 48-bit provisioned ID, which the spec does not give. -/
def execGetpid (s : State) : Host.Outcome State Fault Refusal := .next (s.i3cAnswer 0 48)
/-- GETBCR. -/
def execGetbcr (s : State) : Host.Outcome State Fault Refusal := .next (s.i3cAnswer 1 8)
/-- GETDCR. -/
def execGetdcr (s : State) : Host.Outcome State Fault Refusal := .next (s.i3cAnswer 2 8)
/-- GETMWL. -/
def execGetmwl (s : State) : Host.Outcome State Fault Refusal := .next (s.i3cAnswer 3 16)
/-- GETMRL. -/
def execGetmrl (s : State) : Host.Outcome State Fault Refusal := .next (s.i3cAnswer 4 16)

/-- GETSTATUS: the 16-bit status is a free value, since no rule gives its contents. -/
def doGetstatus (s : State) : State :=
  if s.i3cServes then
    let (v, s) := s.draw
    s.answer (.data (v % 2 ^ 16))
  else s

/-- GETSTATUS. -/
def execGetstatus (s : State) : Host.Outcome State Fault Refusal := .next (doGetstatus s)

/-- ENEC: in-band interrupts enabled (R652). -/
def execEnec (s : State) : Host.Outcome State Fault Refusal :=
  .next (if s.i3cServes then { s with hif := { s.hif with ibi := true } } else s)
/-- DISEC: in-band interrupts disabled. -/
def execDisec (s : State) : Host.Outcome State Fault Refusal :=
  .next (if s.i3cServes then { s with hif := { s.hif with ibi := false } } else s)

/-! ## JTAG -/

/-- The instructions of R654, as `HostIf.jtag` holds them. -/
inductive Jtag where
  | bypass | idcode | sample | extest | extestPulse | extestTrain | clamp | highz
  deriving DecidableEq, Repr

/-- The number of an instruction. -/
def Jtag.num (j : Jtag) : Nat := j.ctorIdx

/-- R654: the instruction that takes effect: the last five act as BYPASS unless PERST_N is asserted. -/
def State.jtagActs (s : State) : Nat := if s.hif.jtag ≥ 3 && !s.perst then Jtag.num .bypass else s.hif.jtag

/-- The pins that the scan chain drives, when it drives them: EXTEST and its 1149.6 forms and CLAMP drive the scan
register; HIGHZ and the others do not. -/
def State.scanDrives (s : State) : Option Nat :=
  if 3 ≤ s.jtagActs && s.jtagActs ≤ 6 then some s.hif.scan else none

/-- IDCODE (R654): bits [27:12] read 0x5E80 and bit 0 reads 1; the other bits are not given. -/
def idcode : Nat :=
  let x := Config.sideband 5
  1 + bits x 1 11 * 2 + 0x5E80 * 2 ^ 12 + bits x 28 4 * 2 ^ 28

/-- An instruction loaded. What the selected register captures: the bypass bit 0, the IDCODE, or the scan register. -/
def State.jtagLoad (s : State) (j : Jtag) : State :=
  let s := { s with hif := { s.hif with jtag := j.num } }
  s.answer (.data (if s.jtagActs = 0 then 0 else if s.jtagActs = 1 then idcode else s.hif.scan))

/-- BYPASS. -/
def execBypass (s : State) : Host.Outcome State Fault Refusal := .next (s.jtagLoad .bypass)
/-- IDCODE. -/
def execIdcode (s : State) : Host.Outcome State Fault Refusal := .next (s.jtagLoad .idcode)

/-- SAMPLE/PRELOAD: the pins are sampled, a free value, and the scan register takes what is shifted in. -/
def doSample (scan : Nat) (s : State) : State :=
  let (v, s) := s.draw
  { s with hif := { s.hif with
    jtag := Jtag.num .sample
    scan := scan
    resp := .data v } }

/-- SAMPLE_PRELOAD. -/
def execSamplePreload (scan : Nat) (s : State) : Host.Outcome State Fault Refusal := .next (doSample scan s)
/-- EXTEST. -/
def execExtest (s : State) : Host.Outcome State Fault Refusal := .next (s.jtagLoad .extest)
/-- EXTEST_PULSE. -/
def execExtestPulse (s : State) : Host.Outcome State Fault Refusal := .next (s.jtagLoad .extestPulse)
/-- EXTEST_TRAIN. -/
def execExtestTrain (s : State) : Host.Outcome State Fault Refusal := .next (s.jtagLoad .extestTrain)
/-- CLAMP. -/
def execClamp (s : State) : Host.Outcome State Fault Refusal := .next (s.jtagLoad .clamp)
/-- HIGHZ. -/
def execHighz (s : State) : Host.Outcome State Fault Refusal := .next (s.jtagLoad .highz)

/-- A value of a gathering's cells by its internal address (R187; the addresses are DESIGN CHOICE, log 82): from bit 3 up
the register of `State.cellState` in 3 bits, the element in 3, slice in 5, column and row in 11 each, face in 2, and the
gathering in 6. -/
structure CellAddr where
  reg : Nat
  elem : Nat
  slice : Nat
  col : Nat
  row : Nat
  face : Nat
  gath : Nat
  deriving DecidableEq, Repr

/-- The fields of an internal address from 2^48 up. -/
def cellAddr (a : Nat) : CellAddr :=
  ⟨bits a 3 3, bits a 6 3, bits a 9 5, bits a 14 11, bits a 25 11, bits a 36 2, bits a 38 6⟩

/-- What an internal read of 8 bytes finds at an address, and what the read leaves: memories, registers with their RC
fields (R13), and from 2^48 up the cells of the gatherings. -/
def State.internalRead (s : State) (a : Nat) : Nat × State :=
  if a ≥ 2 ^ 48 then
    let x := cellAddr a
    let v := if x.reg ≥ 6 || s.absent (x.gath / 8) then 0
      else s.cellState (Tab.get {} s.gaths x.gath).core x.face x.row x.col x.slice x.reg x.elem
    (v, { s with fresh := s.fresh + 2 ^ 36 })
  else match s.region a with
    | .control => s.readOut (a - 3 * 2 ^ 40) 8
    | .unmapped => (0, s)
    | _ => match s.firstPoison a 8 with
      | some g => (0, s.uncorrectable (64 * g))
      | none => (s.rd a 8, s.counted a 8)

/-- JTAG_INTERNAL_READ (R588): in BLANK, PROVISIONED and SERVICE, 8 bytes at a multiple of 8 (log 82). Other states,
and a device held in reset, answer as BYPASS. -/
def doJtagRead (a : Nat) (s : State) : State :=
  if s.perst then s.answer (.data 0)
  else if s.fuses.state = 0 ∨ s.fuses.state = 1 ∨ s.fuses.state = 3 then
    let (v, s) := s.internalRead (a / 8 * 8)
    s.answer (.data v)
  else s.answer (.data 0)

/-- JTAG_INTERNAL_READ. -/
def execJtagInternalRead (addr : Nat) (s : State) : Host.Outcome State Fault Refusal := .next (doJtagRead addr s)

/-- A value of the cells written (R588). -/
def GCore.setCell (k : GCore) (x : CellAddr) (v : Nat) : GCore :=
  let a := accKey x.face x.row x.col x.slice
  let e := (x.col * 32 + x.slice) * 8 + x.elem
  match x.reg with
  | 0 => { k with acc := Tab.upd k.acc a { Tab.get {} k.acc a with run := v % 2 ^ 32 } }
  | 1 => { k with acc := Tab.upd k.acc a { Tab.get {} k.acc a with landing := v } }
  | 2 => { k with shadow := Tab.upd k.shadow a { Tab.get {} k.shadow a with run := v % 2 ^ 32 } }
  | 3 => { k with shadow := Tab.upd k.shadow a { Tab.get {} k.shadow a with landing := v } }
  | 4 => { k with stat0 := Tab.upd k.stat0 e v }
  | 5 => { k with stat1 := Tab.upd k.stat1 e v }
  | _ => k

/-- JTAG_INTERNAL_WRITE (R588): in BLANK alone, 8 bytes of a memory, or a register by its access codes, before
ready as well (R615 speaks of host writes). -/
def doJtagWrite (a v : Nat) (s : State) : State :=
  let a := a / 8 * 8
  if s.perst || s.fuses.state != 0 then s
  else if a ≥ 2 ^ 48 then
    let x := cellAddr a
    if s.absent (x.gath / 8) then s
    else
      let g := Tab.get {} s.gaths x.gath
      s.setGath (x.gath / 8) (x.gath % 8) { g with core := g.core.setCell x (v % 2 ^ 64) }
  else match s.region a with
    | .control => s.putSpace (a - 3 * 2 ^ 40) 8 v
    | .unmapped => s
    | _ => s.storeSplit 8 a (leBytes 8 v)

/-- JTAG_INTERNAL_WRITE. -/
def execJtagInternalWrite (addr value : Nat) (s : State) : Host.Outcome State Fault Refusal :=
  .next (doJtagWrite addr value s)

end Sys2Proof.Machine
end

