-- ==== Sys2Proof/Machine/Dispatch.lean ====
section
/-! DEFINITION. The dispatcher: one arm per command, each one call of its meaning. -/

namespace Sys2Proof.Machine

/-- The effect of a command on everything but the queue. -/
def exec (i : Instr) (s : State) : Host.Outcome State Fault Refusal :=
  match i with
  | .perstNRelease slot => Sys2Proof.Machine.execPerstNRelease slot s
  | .perstNAssert => Sys2Proof.Machine.execPerstNAssert s
  | .railOutOfRange rail us => Sys2Proof.Machine.execRailOutOfRange rail us s
  | .refclkLoss => Sys2Proof.Machine.execRefclkLoss s
  | .pcieHotReset kind => Sys2Proof.Machine.execPcieHotReset kind s
  | .busMasterEnableChange en => Sys2Proof.Machine.execBusMasterEnableChange en s
  | .romStart sfdp => Sys2Proof.Machine.execRomStart sfdp s
  | .imageCheck avsFail => Sys2Proof.Machine.execImageCheck avsFail s
  | .iraleNegotiation words crcBad near far => Sys2Proof.Machine.execIraleNegotiation words crcBad near far s
  | .training stackFail packages => Sys2Proof.Machine.execTraining stackFail packages s
  | .startWipe => Sys2Proof.Machine.execStartWipe s
  | .retireErase => Sys2Proof.Machine.execRetireErase s
  | .portBringUp => Sys2Proof.Machine.execPortBringUp s
  | .portTrainingTimeout p => Sys2Proof.Machine.execPortTrainingTimeout p s
  | .surveyTimeout p => Sys2Proof.Machine.execSurveyTimeout p s
  | .surveyJudgement => Sys2Proof.Machine.execSurveyJudgement s
  | .budgetEvaluation d t avsOk => Sys2Proof.Machine.execBudgetEvaluation d t avsOk s
  | .thermalLimit sensor celsius => Sys2Proof.Machine.execThermalLimit sensor celsius s
  | .thermalTrip sensor celsius => Sys2Proof.Machine.execThermalTrip sensor celsius s
  | .packagePowerReadback reads avsFail => Sys2Proof.Machine.execPackagePowerReadback reads avsFail s
  | .beatMeterWindow d g beats throughout => Sys2Proof.Machine.execBeatMeterWindow d g beats throughout s
  | .periodEnd => Sys2Proof.Machine.execPeriodEnd s
  | .idlePeriodBoundary => Sys2Proof.Machine.execIdlePeriodBoundary s
  | .congestionSample => Sys2Proof.Machine.execCongestionSample s
  | .timeSyncRepeat => Sys2Proof.Machine.execTimeSyncRepeat s
  | .tokenWaitLong d u => Sys2Proof.Machine.execTokenWaitLong d u s
  | .collectiveStall d slot => Sys2Proof.Machine.execCollectiveStall d slot s
  | .scrubGranule w f => Sys2Proof.Machine.execScrubGranule w f s
  | .refreshRateChange d celsius => Sys2Proof.Machine.execRefreshRateChange d celsius s
  | .lpddrRecentre iface ch => Sys2Proof.Machine.execLpddrRecentre iface ch s
  | .suspectTileTest d tile pass => Sys2Proof.Machine.execSuspectTileTest d tile pass s
  | .tileUntested d tile => Sys2Proof.Machine.execTileUntested d tile s
  | .observationWindowExpiry d tile => Sys2Proof.Machine.execObservationWindowExpiry d tile s
  | .transferRingPoll => Sys2Proof.Machine.execTransferRingPoll s
  | .telemetryRefresh => Sys2Proof.Machine.execTelemetryRefresh s
  | .eventPersistBatch => Sys2Proof.Machine.execEventPersistBatch s
  | .timeNowLowRead => Sys2Proof.Machine.execTimeNowLowRead s
  | .readToClear off size => Sys2Proof.Machine.execReadToClear off size s
  | .registerWrite off size value => Sys2Proof.Machine.execRegisterWrite off size value s
  | .budLimitWrite value => Sys2Proof.Machine.execBudLimitWrite value s
  | .memQosWrite value => Sys2Proof.Machine.execMemQosWrite value s
  | .yrdRegWrite d cls value => Sys2Proof.Machine.execYrdRegWrite d cls value s
  | .crzCfgWrite d value => Sys2Proof.Machine.execCrzCfgWrite d value s
  | .fltCfgWrite value => Sys2Proof.Machine.execFltCfgWrite value s
  | .monCfgWrite ch value => Sys2Proof.Machine.execMonCfgWrite ch value s
  | .haltReq d g value => Sys2Proof.Machine.execHaltReq d g value s
  | .debugStep d g value => Sys2Proof.Machine.execDebugStep d g value s
  | .resume d g value => Sys2Proof.Machine.execResume d g value s
  | .clearLog d g value => Sys2Proof.Machine.execClearLog d g value s
  | .debugStateRead d g => Sys2Proof.Machine.execDebugStateRead d g s
  | .xentryWrite n value => Sys2Proof.Machine.execXentryWrite n value s
  | .stageDone value => Sys2Proof.Machine.execStageDone value s
  | .editionSwitch value => Sys2Proof.Machine.execEditionSwitch value s
  | .editionRetire value => Sys2Proof.Machine.execEditionRetire value s
  | .fltStop => Sys2Proof.Machine.execFltStop s
  | .recoverGo value => Sys2Proof.Machine.execRecoverGo value s
  | .portRestart mask => Sys2Proof.Machine.execPortRestart mask s
  | .ringEnable ring value => Sys2Proof.Machine.execRingEnable ring value s
  | .nvmRead offset => Sys2Proof.Machine.execNvmRead offset s
  | .nvmProgram offset => Sys2Proof.Machine.execNvmProgram offset s
  | .nvmErase offset => Sys2Proof.Machine.execNvmErase offset s
  | .nvmUnit ok => Sys2Proof.Machine.execNvmUnit ok s
  | .nvmOperationComplete => Sys2Proof.Machine.execNvmOperationComplete s
  | .nonceRead => Sys2Proof.Machine.execNonceRead s
  | .attestGo addr => Sys2Proof.Machine.execAttestGo addr s
  | .attestComplete => Sys2Proof.Machine.execAttestComplete s
  | .bar0BadAccess write off size => Sys2Proof.Machine.execBar0BadAccess write off size s
  | .bar2Read off len => Sys2Proof.Machine.execBar2Read off len s
  | .bar2Write off data => Sys2Proof.Machine.execBar2Write off data s
  | .manifest => Sys2Proof.Machine.execManifest s
  | .jobStart => Sys2Proof.Machine.execJobStart s
  | .provision => Sys2Proof.Machine.execProvision s
  | .toField => Sys2Proof.Machine.execToField s
  | .toService => Sys2Proof.Machine.execToService s
  | .retire => Sys2Proof.Machine.execRetire s
  | .runMaint => Sys2Proof.Machine.execRunMaint s
  | .clearEvents => Sys2Proof.Machine.execClearEvents s
  | .clearFailed => Sys2Proof.Machine.execClearFailed s
  | .raiseSvn => Sys2Proof.Machine.execRaiseSvn s
  | .raiseKeygen => Sys2Proof.Machine.execRaiseKeygen s
  | .toDevice => Sys2Proof.Machine.execToDevice s
  | .toHost => Sys2Proof.Machine.execToHost s
  | .toHostCommitted => Sys2Proof.Machine.execToHostCommitted s
  | .transferComplete => Sys2Proof.Machine.execTransferComplete s
  | .listStart d => Sys2Proof.Machine.execListStart d s
  | .dispatchResume d => Sys2Proof.Machine.execDispatchResume d s
  | .waitGrant w => Sys2Proof.Machine.execWaitGrant w s
  | .tokenSignal d token count => Sys2Proof.Machine.execTokenSignal d token count s
  | .signalRelease => Sys2Proof.Machine.execSignalRelease s
  | .fence d u => Sys2Proof.Machine.execFence d u s
  | .run d g f => Sys2Proof.Machine.execRun d g f s
  | .programLoad d g => Sys2Proof.Machine.execProgramLoad d g s
  | .stream d y => Sys2Proof.Machine.execStream d y s
  | .selftest d => Sys2Proof.Machine.execSelftest d s
  | .pattern d => Sys2Proof.Machine.execPattern d s
  | .scrub d => Sys2Proof.Machine.execScrub d s
  | .wipe d => Sys2Proof.Machine.execWipe d s
  | .restore d => Sys2Proof.Machine.execRestore d s
  | .maintComplete d failed => Sys2Proof.Machine.execMaintComplete d failed s
  | .nop d g => Sys2Proof.Machine.execNop d g s
  | .end_ d g => Sys2Proof.Machine.execEnd d g s
  | .loop d g => Sys2Proof.Machine.execLoop d g s
  | .waitb d g => Sys2Proof.Machine.execWaitb d g s
  | .mode d g => Sys2Proof.Machine.execMode d g s
  | .smovi d g => Sys2Proof.Machine.execSmovi d g s
  | .salu d g => Sys2Proof.Machine.execSalu d g s
  | .sld d g => Sys2Proof.Machine.execSld d g s
  | .sst d g => Sys2Proof.Machine.execSst d g s
  | .ctset d g => Sys2Proof.Machine.execCtset d g s
  | .agset d g => Sys2Proof.Machine.execAgset d g s
  | .tokw d g => Sys2Proof.Machine.execTokw d g s
  | .toks d g => Sys2Proof.Machine.execToks d g s
  | .toksSignal d g => Sys2Proof.Machine.execToksSignal d g s
  | .mma d g bad => Sys2Proof.Machine.execMma d g bad s
  | .vop d g => Sys2Proof.Machine.execVop d g s
  | .vld d g bad => Sys2Proof.Machine.execVld d g bad s
  | .vst d g => Sys2Proof.Machine.execVst d g s
  | .xmov d g => Sys2Proof.Machine.execXmov d g s
  | .red d g => Sys2Proof.Machine.execRed d g s
  | .writeLand d g => Sys2Proof.Machine.execWriteLand d g s
  | .drainComplete d g => Sys2Proof.Machine.execDrainComplete d g s
  | .programComplete d g => Sys2Proof.Machine.execProgramComplete d g s
  | .debugHalt d g => Sys2Proof.Machine.execDebugHalt d g s
  | .tileReplay d g tile => Sys2Proof.Machine.execTileReplay d g tile s
  | .replayBoundary d g => Sys2Proof.Machine.execReplayBoundary d g s
  | .tileRemap d tile => Sys2Proof.Machine.execTileRemap d tile s
  | .cruiseSample d => Sys2Proof.Machine.execCruiseSample d s
  | .engineCheckRetry d unit => Sys2Proof.Machine.execEngineCheckRetry d unit s
  | .streamLatch d y slot => Sys2Proof.Machine.execStreamLatch d y slot s
  | .streamGranule d y f => Sys2Proof.Machine.execStreamGranule d y f s
  | .streamComplete d y slot => Sys2Proof.Machine.execStreamComplete d y slot s
  | .rowRemap d => Sys2Proof.Machine.execRowRemap d s
  | .raftSend p => Sys2Proof.Machine.execRaftSend p s
  | .raftReceive p r errs => Sys2Proof.Machine.execRaftReceive p r errs s
  | .retrainComplete p mask => Sys2Proof.Machine.execRetrainComplete p mask s
  | .boltRoute src => Sys2Proof.Machine.execBoltRoute src s
  | .data b f => Sys2Proof.Machine.execData b f s
  | .a2a b => Sys2Proof.Machine.execA2a b s
  | .tail b => Sys2Proof.Machine.execTail b s
  | .done b => Sys2Proof.Machine.execDone b s
  | .barrierVote b => Sys2Proof.Machine.execBarrierVote b s
  | .counts b => Sys2Proof.Machine.execCounts b s
  | .loadReq b => Sys2Proof.Machine.execLoadReq b s
  | .storeReq b => Sys2Proof.Machine.execStoreReq b s
  | .storeData b => Sys2Proof.Machine.execStoreData b s
  | .loadData b => Sys2Proof.Machine.execLoadData b s
  | .accessAck b => Sys2Proof.Machine.execAccessAck b s
  | .credit b => Sys2Proof.Machine.execCredit b s
  | .survey p b => Sys2Proof.Machine.execSurvey p b s
  | .map b => Sys2Proof.Machine.execMap b s
  | .leafReceive l e leaf par => Sys2Proof.Machine.execLeafReceive l e leaf par s
  | .slotRd sl => Sys2Proof.Machine.execSlotRd sl s
  | .slotWr sl => Sys2Proof.Machine.execSlotWr sl s
  | .slotData sl => Sys2Proof.Machine.execSlotData sl s
  | .slotAck sl => Sys2Proof.Machine.execSlotAck sl s
  | .slotToken sl => Sys2Proof.Machine.execSlotToken sl s
  | .slotBolt h d => Sys2Proof.Machine.execSlotBolt h d s
  | .commit => Sys2Proof.Machine.execCommit s
  | .commitApply => Sys2Proof.Machine.execCommitApply s
  | .mgmtStop d => Sys2Proof.Machine.execMgmtStop d s
  | .report pos words => Sys2Proof.Machine.execReport pos words s
  | .level msg => Sys2Proof.Machine.execLevel msg s
  | .regRd addr => Sys2Proof.Machine.execRegRd addr s
  | .regData msg => Sys2Proof.Machine.execRegData msg s
  | .regWr addr value => Sys2Proof.Machine.execRegWr addr value s
  | .mgmtEvent record => Sys2Proof.Machine.execMgmtEvent record s
  | .mgmtVerdict verdict => Sys2Proof.Machine.execMgmtVerdict verdict s
  | .cap pos l frame => Sys2Proof.Machine.execCap pos l frame s
  | .capAck e frame => Sys2Proof.Machine.execCapAck e frame s
  | .trainStart test => Sys2Proof.Machine.execTrainStart test s
  | .trainDone e frame => Sys2Proof.Machine.execTrainDone e frame s
  | .repairReq l frame => Sys2Proof.Machine.execRepairReq l frame s
  | .repairDone l frame => Sys2Proof.Machine.execRepairDone l frame s
  | .timeFrame pos low high => Sys2Proof.Machine.execTimeFrame pos low high s
  | .allReduce d => Sys2Proof.Machine.execAllReduce d s
  | .reduceScatter d => Sys2Proof.Machine.execReduceScatter d s
  | .allGather d => Sys2Proof.Machine.execAllGather d s
  | .broadcast d => Sys2Proof.Machine.execBroadcast d s
  | .allToAll d => Sys2Proof.Machine.execAllToAll d s
  | .barrier d => Sys2Proof.Machine.execBarrier d s
  | .collectiveComplete d slot => Sys2Proof.Machine.execCollectiveComplete d slot s
  | .updateBlock d => Sys2Proof.Machine.execUpdateBlock d s
  | .pressSubblock d => Sys2Proof.Machine.execPressSubblock d s
  | .pressFold d slot => Sys2Proof.Machine.execPressFold d slot s
  | .stepClose => Sys2Proof.Machine.execStepClose s
  | .rollback => Sys2Proof.Machine.execRollback s
  | .stateRestoreInPlace => Sys2Proof.Machine.execStateRestoreInPlace s
  | .eventReport => Sys2Proof.Machine.execEventReport s
  | .i3cPrivateWrite data => Sys2Proof.Machine.execI3cPrivateWrite data s
  | .i3cPrivateRead n => Sys2Proof.Machine.execI3cPrivateRead n s
  | .entdaa addr => Sys2Proof.Machine.execEntdaa addr s
  | .setdasa addr => Sys2Proof.Machine.execSetdasa addr s
  | .rstdaa => Sys2Proof.Machine.execRstdaa s
  | .getpid => Sys2Proof.Machine.execGetpid s
  | .getbcr => Sys2Proof.Machine.execGetbcr s
  | .getdcr => Sys2Proof.Machine.execGetdcr s
  | .getstatus => Sys2Proof.Machine.execGetstatus s
  | .getmwl => Sys2Proof.Machine.execGetmwl s
  | .getmrl => Sys2Proof.Machine.execGetmrl s
  | .enec => Sys2Proof.Machine.execEnec s
  | .disec => Sys2Proof.Machine.execDisec s
  | .bypass => Sys2Proof.Machine.execBypass s
  | .idcode => Sys2Proof.Machine.execIdcode s
  | .samplePreload scan => Sys2Proof.Machine.execSamplePreload scan s
  | .extest => Sys2Proof.Machine.execExtest s
  | .extestPulse => Sys2Proof.Machine.execExtestPulse s
  | .extestTrain => Sys2Proof.Machine.execExtestTrain s
  | .clamp => Sys2Proof.Machine.execClamp s
  | .highz => Sys2Proof.Machine.execHighz s
  | .portTrainingComplete p mask => Sys2Proof.Machine.execPortTrainingComplete p mask s
  | .lpddrInterfaceLost iface => Sys2Proof.Machine.execLpddrInterfaceLost iface s
  | .stackChannelLost d ch => Sys2Proof.Machine.execStackChannelLost d ch s
  | .channelDegraded d ch => Sys2Proof.Machine.execChannelDegraded d ch s
  | .jtagInternalRead addr => Sys2Proof.Machine.execJtagInternalRead addr s
  | .jtagInternalWrite addr value => Sys2Proof.Machine.execJtagInternalWrite addr value s
  | .railRamp order ms => Sys2Proof.Machine.execRailRamp order ms s

end Sys2Proof.Machine
end

