-- ==== Sys2Proof/Machine/Step.lean ====
section
/-! DEFINITION. One step: the command at the front of the queue runs on the rest; on an empty queue one nanosecond of
local time passes (log 1). -/

namespace Sys2Proof.Machine

/-- One tick of local time (R55): the counter runs while PERST_N is released and the 64 bits wrap. DESIGN CHOICE
(log 1): this is what the block does when no command waits. -/
def tick (s : State) : State := if s.perst then s else { s with now := (s.now + 1) % 2 ^ 64 }

/-- One step. -/
def step (s : State) : Host.Outcome State Fault Refusal :=
  match s.pending with
  | [] => .next (tick s)
  | c :: cs => exec c { s with pending := cs }

/-- The command a word spells, at the front of the queue; no row of the table gives bits, so the state is unchanged. -/
def State.withFetchWord (s : State) (nbits w : Nat) : State :=
  match Sys2Proof.decodeTableWord nbits w with
  | none => s
  | some c => { s with pending := c :: s.pending }

end Sys2Proof.Machine
end

