-- ==== Sys2Proof/WellFormed.lean ====
section
/-! DEFINITION. Well-formed commands: every operand that comes from outside fits the field, the record or the count
that the spec gives it. The meanings are total and take ill-formed operands too; statements that need the ranges assume
`Instr.wf`. -/

namespace Sys2Proof

/-- Fields of a bolt header (R377) and a 64-byte payload. -/
def Bolt.wf (b : Bolt) : Bool :=
  decide (b.dest < 2 ^ 17) && decide (b.ctx < 2 ^ 12) && decide (b.op < 16) && decide (b.edition < 4) &&
    decide (b.seq < 2 ^ 12) && decide (b.scale1 < 256) && decide (b.scale0 < 256) && decide (b.payload < 2 ^ 512)

/-- Fields of a link word (R383): four credit counts of 8 bits, and the bolts with a bit in the raft, which are at most
144 of 576 bits in 82,160 bits, the first and the last cut short. -/
def Raft.wf (r : Raft) : Bool :=
  decide (r.seq < 2 ^ 12) && decide (r.ack < 2 ^ 12) && r.cred.length == 4 && r.cred.all (fun c => decide (c < 256)) &&
    decide (r.skip < 576) && decide (r.bolts.length ≤ 144) && r.bolts.all fun p => p.2.wf

/-- Fields of a slot tag (R522), DEST and SRC 0 to 9, and a 64-byte payload. -/
def Slot.wf (x : Slot) : Bool :=
  decide (x.kind < 16) && decide (x.cls < 4) && decide (x.dest < 10) && decide (x.src < 10) && decide (x.tid < 2 ^ 12) &&
    decide (x.payload < 2 ^ 512)

/-- Fields of a leaf control word (R521); a leaf holds at most 15 traffic slots. -/
def Leaf.wf (l : Leaf) : Bool :=
  decide (l.seq < 64) && decide (l.ack < 64) && decide (l.cvc < 4) && decide (l.cred < 256) &&
    decide (l.slots.length ≤ 15) && l.slots.all Slot.wf

/-- 5 logic sensors and 2 stack sensors of the die, 8 logic sensors of the I/O dies (R71). -/
def Temps.wf (t : Temps) : Bool := t.logic.length == 5 && t.stack.length == 2 && t.io.length == 8

/-- A package's density is one of R307: 16, 32, 64 or 128 GiB by the codes of R314. -/
def LpPkg.wf (p : LpPkg) : Bool := decide (1 ≤ p.density) && decide (p.density ≤ 4)

/-- Words of a capability record: sixteen of 32 bits (R537). -/
def capWf (l : List Nat) : Bool := l.length == 16 && l.all fun w => decide (w < 2 ^ 32)

/-- Bytes. -/
def bytesWf (l : List Nat) : Bool := l.all fun v => decide (v < 256)

/-- A value of `n` bytes. -/
def valueWf (n v : Nat) : Bool := decide (v < 256 ^ n)

/-- An access of R627: 4 or 8 bytes, aligned, in the 64 MiB of BAR0. -/
def accessWf (off size : Nat) : Bool := (size == 4 || size == 8) && off % size == 0 && decide (off < 2 ^ 26)

/-- Whether every operand of a command fits what the spec gives it. -/
def Instr.wf : Instr → Bool
  | .perstNRelease _ => true
  | .perstNAssert => true
  | .railOutOfRange _ _ => true
  | .refclkLoss => true
  | .pcieHotReset _ => true
  | .busMasterEnableChange _ => true
  | .romStart _ => true
  | .imageCheck _ => true
  | .iraleNegotiation words _ _ _ => words.length == 10 && words.all fun w => w.isEmpty || capWf w
  | .training _ ps => decide (ps.length ≤ 8) && ps.all LpPkg.wf
  | .startWipe => true
  | .retireErase => true
  | .portBringUp => true
  | .portTrainingTimeout _ => true
  | .surveyTimeout _ => true
  | .surveyJudgement => true
  | .budgetEvaluation _ t _ => t.wf
  | .thermalLimit _ _ => true
  | .thermalTrip _ _ => true
  | .packagePowerReadback l _ => decide (l.length ≤ 12) && l.all fun r => decide (r.select ≤ 14)
  | .beatMeterWindow _ _ beats _ => decide (beats < 2 ^ 12)
  | .periodEnd => true
  | .idlePeriodBoundary => true
  | .congestionSample => true
  | .timeSyncRepeat => true
  | .tokenWaitLong _ _ => true
  | .collectiveStall _ _ => true
  | .scrubGranule _ _ => true
  | .refreshRateChange _ _ => true
  | .lpddrRecentre _ _ => true
  | .suspectTileTest _ _ _ => true
  | .tileUntested _ _ => true
  | .observationWindowExpiry _ _ => true
  | .transferRingPoll => true
  | .telemetryRefresh => true
  | .eventPersistBatch => true
  | .timeNowLowRead => true
  | .readToClear off size => accessWf off size
  | .registerWrite off size value => accessWf off size && valueWf size value
  | .budLimitWrite value => valueWf 8 value
  | .memQosWrite value => valueWf 8 value
  | .yrdRegWrite _ _ value => valueWf 8 value
  | .crzCfgWrite _ value => valueWf 8 value
  | .fltCfgWrite value => valueWf 8 value
  | .monCfgWrite _ value => valueWf 8 value
  | .haltReq _ _ value => valueWf 8 value
  | .debugStep _ _ value => valueWf 8 value
  | .resume _ _ value => valueWf 8 value
  | .clearLog _ _ value => valueWf 8 value
  | .debugStateRead _ _ => true
  | .xentryWrite _ value => valueWf 8 value
  | .stageDone value => valueWf 8 value
  | .editionSwitch value => valueWf 8 value
  | .editionRetire value => valueWf 8 value
  | .fltStop => true
  | .recoverGo value => valueWf 8 value
  | .portRestart mask => valueWf 8 mask
  | .ringEnable _ value => valueWf 8 value
  | .nvmRead offset => decide (offset < 2 ^ 32)
  | .nvmProgram offset => decide (offset < 2 ^ 32)
  | .nvmErase offset => decide (offset < 2 ^ 32)
  | .nvmUnit _ => true
  | .nvmOperationComplete => true
  | .nonceRead => true
  | .attestGo addr => decide (addr < 2 ^ 48)
  | .attestComplete => true
  | .bar0BadAccess _ _ _ => true
  | .bar2Read off len => decide (off + len ≤ 2 ^ 32)
  | .bar2Write off l => decide (off + l.length ≤ 2 ^ 32) && bytesWf l
  | .manifest => true
  | .jobStart => true
  | .provision => true
  | .toField => true
  | .toService => true
  | .retire => true
  | .runMaint => true
  | .clearEvents => true
  | .clearFailed => true
  | .raiseSvn => true
  | .raiseKeygen => true
  | .toDevice => true
  | .toHost => true
  | .toHostCommitted => true
  | .transferComplete => true
  | .listStart _ => true
  | .dispatchResume _ => true
  | .waitGrant _ => true
  | .tokenSignal _ _ count => decide (count < 2 ^ 20)
  | .signalRelease => true
  | .fence _ _ => true
  | .run _ _ _ => true
  | .programLoad _ _ => true
  | .stream _ _ => true
  | .selftest _ => true
  | .pattern _ => true
  | .scrub _ => true
  | .wipe _ => true
  | .restore _ => true
  | .maintComplete _ _ => true
  | .nop _ _ => true
  | .end_ _ _ => true
  | .loop _ _ => true
  | .waitb _ _ => true
  | .mode _ _ => true
  | .smovi _ _ => true
  | .salu _ _ => true
  | .sld _ _ => true
  | .sst _ _ => true
  | .ctset _ _ => true
  | .agset _ _ => true
  | .tokw _ _ => true
  | .toks _ _ => true
  | .toksSignal _ _ => true
  | .mma _ _ _ => true
  | .vop _ _ => true
  | .vld _ _ _ => true
  | .vst _ _ => true
  | .xmov _ _ => true
  | .red _ _ => true
  | .writeLand _ _ => true
  | .drainComplete _ _ => true
  | .programComplete _ _ => true
  | .debugHalt _ _ => true
  | .tileReplay _ _ _ => true
  | .replayBoundary _ _ => true
  | .tileRemap _ _ => true
  | .cruiseSample _ => true
  | .engineCheckRetry _ _ => true
  | .streamLatch _ _ _ => true
  | .streamGranule _ _ _ => true
  | .streamComplete _ _ _ => true
  | .rowRemap _ => true
  | .raftSend _ => true
  | .raftReceive _ r _ => r.wf
  | .retrainComplete _ mask => decide (mask < 16)
  | .boltRoute _ => true
  | .data b _ => b.wf
  | .a2a b => b.wf
  | .tail b => b.wf
  | .done b => b.wf
  | .barrierVote b => b.wf
  | .counts b => b.wf
  | .loadReq b => b.wf
  | .storeReq b => b.wf
  | .storeData b => b.wf
  | .loadData b => b.wf
  | .accessAck b => b.wf
  | .credit b => b.wf
  | .survey _ b => b.wf
  | .map b => b.wf
  | .leafReceive _ _ leaf par => leaf.wf && decide (par < 2 ^ 128)
  | .slotRd sl => sl.wf
  | .slotWr sl => sl.wf
  | .slotData sl => sl.wf
  | .slotAck sl => sl.wf
  | .slotToken sl => sl.wf
  | .slotBolt h d => h.wf && d.wf
  | .commit => true
  | .commitApply => true
  | .mgmtStop _ => true
  | .report _ words => capWf words
  | .level msg => decide (msg < 2 ^ 512)
  | .regRd addr => decide (addr < 2 ^ 44)
  | .regData msg => decide (msg < 2 ^ 512)
  | .regWr addr value => decide (addr < 2 ^ 44) && valueWf 8 value
  | .mgmtEvent record => decide (record < 2 ^ 512)
  | .mgmtVerdict verdict => decide (verdict < 2 ^ 512)
  | .cap _ _ f => decide (f < 2 ^ 42)
  | .capAck _ f => decide (f < 2 ^ 42)
  | .trainStart x => decide (x.frame < 2 ^ 42)
  | .trainDone _ f => decide (f < 2 ^ 42)
  | .repairReq _ f => decide (f < 2 ^ 42)
  | .repairDone _ f => decide (f < 2 ^ 42)
  | .timeFrame _ low high => decide (low < 2 ^ 42) && decide (high < 2 ^ 42)
  | .allReduce _ => true
  | .reduceScatter _ => true
  | .allGather _ => true
  | .broadcast _ => true
  | .allToAll _ => true
  | .barrier _ => true
  | .collectiveComplete _ _ => true
  | .updateBlock _ => true
  | .pressSubblock _ => true
  | .pressFold _ _ => true
  | .stepClose => true
  | .rollback => true
  | .stateRestoreInPlace => true
  | .eventReport => true
  | .i3cPrivateWrite l => bytesWf l
  | .i3cPrivateRead _ => true
  | .entdaa addr => decide (addr < 128)
  | .setdasa addr => decide (addr < 128)
  | .rstdaa => true
  | .getpid => true
  | .getbcr => true
  | .getdcr => true
  | .getstatus => true
  | .getmwl => true
  | .getmrl => true
  | .enec => true
  | .disec => true
  | .bypass => true
  | .idcode => true
  | .samplePreload _ => true
  | .extest => true
  | .extestPulse => true
  | .extestTrain => true
  | .clamp => true
  | .highz => true
  | .portTrainingComplete _ mask => decide (mask < 16)
  | .lpddrInterfaceLost _ => true
  | .stackChannelLost _ _ => true
  | .channelDegraded _ _ => true
  | .jtagInternalRead addr => decide (addr < 2 ^ 49)
  | .jtagInternalWrite addr value => decide (addr < 2 ^ 49) && valueWf 8 value
  | .railRamp _ _ => true

end Sys2Proof
end

