-- ==== Sys2Proof/Safety.lean ====
section
/-! DEFINITION. The terms in which statements speak: a command that runs, what it leaves alone, and the forms that every
step keeps. -/

namespace Sys2Proof.Machine

/-- The command runs to a next state, and that state satisfies `p`. -/
def Completes (c : Instr) (s : State) (p : State → Prop) : Prop := ∃ t, exec c s = .next t ∧ p t

/-- Every byte of device memory reads as before. -/
def MemKept (s t : State) : Prop := ∀ a, t.rdB a = s.rdB a

/-- Every byte of device memory outside the `n` bytes from `a` reads as before. -/
def MemKeptOutside (a n : Nat) (s t : State) : Prop := ∀ b, b < a ∨ a + n ≤ b → t.rdB b = s.rdB b

/-- Every register field outside a list holds what it held. -/
def RegsKept (l : List Field) (s t : State) : Prop := ∀ f i, f ∉ l → t.fld f i = s.fld f i

/-- Device memory reads as masked cells leave it: a bit of a byte is that of the last cell whose mask has it, and one that no
cell has reads as before. -/
def Written (cells : List (Nat × Nat)) (s t : State) : Prop :=
  ∀ a j, j < 8 → bit (t.rdB a) j =
    match cells.reverse.find? fun c => c.1 == a && bit (c.2 / 256) j with
    | some c => bit (c.2 % 256) j
    | none => bit (s.rdB a) j

/-- The counts of corrected errors (R306, R311), which a read of stacked DRAM or of the tier may raise. -/
def correctedFields : List Field := [.memStackstat_corrected, .memLpcfg_corrected]

/-- The forms of the plain data: each memory has its canonical form (addresses strictly rising, no entry equal to what
an unlisted address reads as). -/
def MemForm (s : State) : Prop :=
  Memory.wf memDefault s.mem = true ∧ Memory.wf memDefault s.host = true ∧ Memory.wf nvmDefault s.nvm.cells = true

/-- No partial write that a gathering lands by beat `t` meets a line in error (R297). -/
def LandsWhole (s : State) (d g t : Nat) : Prop := ((s.landTo d g t).gath d g).badWrite = none

/-- A gathering's sequencer, not in debug mode, can issue now; its instruction word is `w` with opcode `op`, and `c` is
its RUN command. What lands by its beat lands whole. -/
def Issuing (s : State) (d g op : Nat) (c : QCmd) (w : Nat) : Prop :=
  s.issuable d g op = some (c, w) ∧ s.flag .gthCfg_debug (gi d g) = false ∧ (s.gath d g).dropDue = false ∧
    LandsWhole s d g (s.gath d g).beat

/-- No line of scratch that a plan reads has an uncorrectable error. -/
def CleanReads (s : State) (p : Plan) : Prop :=
  ∀ q ∈ p.reads, ∀ l, q = .line l → p.bad ≠ some l ∧ s.poisoned (64 * l) 64 = false

/-- What an issue at beat `t` leaves in a gathering: the core of the plan at the next instruction address, the beat of
the next issue `span` later, one more instruction issued, and the plan's writes among the pending ones. -/
def Issued (s : State) (d g t : Nat) (p : Plan) (u : State) : Prop :=
  let x := s.gath d g
  let y := (s.landTo d g t).gath d g
  (u.gath d g).core = p.core.goto p.next ∧ (u.gath d g).beat = t + p.span ∧ (u.gath d g).order = x.order + 1 ∧
    (u.gath d g).pend = y.pend ++ p.writes.map fun q => ⟨t + q.1, x.order, q.2.1, q.2.2⟩

/-- The register fields that an issue may change: the instruction address, the hazard record, the sticky flags of
GTH.NUMSTAT, the count of samples missed, and the counts of dropped reports. -/
def issueRegs : List Field :=
  [.crzStat_missed, .gthSeqstat_ip, .gthSeqstat_hazards, .gthSeqstat_hazard, .gthSeqstat_hazardIp, .gthSeqstat_hazardRes,
    .evtLost_debug, .evtLost_info, .evtLost_warning, .evtLost_error, .evtLost_fatal] ++ numFields

/-- An issue of a plan that changes no register but those of `issueRegs`; device memory is that of the landings of its
beat. -/
def IssuedAlone (s : State) (d g t : Nat) (p : Plan) (u : State) : Prop :=
  Issued s d g t p u ∧ RegsKept issueRegs s u ∧ MemKept (s.landTo d g t) u

/-- Addresses of the bytes that hold `n` elements of one row of a tensor from element `e`, and their blocks' scales. -/
def runBytes (r e n : Nat) : List Nat := (rawCells r e n 0).map (·.1)

/-- The bytes to which a tensor's elements from `e` go in the copy that an update writes (R462, R480). -/
def State.writtenBytes (s : State) (h e n : Nat) : List Nat := runBytes (s.writtenDesc (s.desc h)) e n

/-- None of the addresses is in a descriptor that one of the handles names. -/
def State.ClearOf (s : State) (as hs : List Nat) : Prop :=
  ∀ a ∈ as, ∀ h ∈ hs, a < s.job.descTable + 64 * h ∨ s.job.descTable + 64 * h + 64 ≤ a

/-- Handles of the tensors that a program stores to. -/
def UProg.stored (p : UProg) : List Nat :=
  (p.ops.filter fun w => uoOp w == 2).map fun w => usHandle (p.slot (uoSlot w))

/-- The bytes that the stores of a program write for the `n` lanes from slot element `e`. -/
def State.blockBytes (s : State) (p : UProg) (e n : Nat) : List Nat := p.stored.flatMap fun h => s.writtenBytes h e n

/-- Handles of the tensors that a fold writes: statistics and roots (R487, R491). -/
def UProg.foldHandles (p : UProg) : List Nat := [uaLstat p.aux, uaRstat p.aux, uaLroot p.aux, uaRroot p.aux]

/-- The bytes that a fold writes, with `nl` and `nr` matrices of 32 rows of 32 on the two sides. -/
def State.foldBytes (s : State) (p : UProg) (nl nr : Nat) : List Nat :=
  (p.foldHandles.zip [nl, nr, nl, nr]).flatMap fun q =>
    (List.range (32 * q.2)).flatMap fun a => s.writtenBytes q.1 (32 * a) 32

/-- Every byte of device memory that is not listed reads as before. -/
def MemKeptBut (as : List Nat) (s t : State) : Prop := ∀ a, a ∉ as → t.rdB a = s.rdB a

/-- Every byte of the NVM outside the `n` bytes from `a` reads as before. -/
def NvmKeptOutside (a n : Nat) (s t : State) : Prop := ∀ b, b < a ∨ a + n ≤ b → t.nvmRd b 1 = s.nvmRd b 1

/-- A signed command of code `k` stands at the front of the manifest ring, passes every check of R583 and R586, and
finds no error in memory: `a` and `e` are its entry's address and contents, `o` the object. -/
def CommandReady (s : State) (k a e : Nat) (o : Signed) : Prop :=
  (∃ rest, s.hif.taken = (a, e) :: rest) ∧ meKind e = 2 ∧ s.clearing = false ∧ s.commandEntryOk e = true ∧
    s.poisoned (meAddr e) (meLength e) = false ∧
    s.checkObject 3 s.nonce (fun off n => s.rd (meAddr e + off) n) (meLength e) = (.ok, o) ∧
    bodyFits (fun off n => s.rd (meAddr e + off) n) o.hdr = true ∧ trCmd o.hdr = k ∧
    s.commandErr (fun off n => s.rd (meAddr e + off) n) k = .ok

/-- Registers whose writes act or can be refused, or whose fields show other state. -/
def actingRegs : List Reg :=
  [.hifMring, .hifXring, .hifNvmctl, .budLimit, .memQos, .yrdReg, .crzCfg, .fltCfg, .colCfg, .gthDbgctl, .torXentry,
    .torEdition, .fltStop, .fltRecover, .cfgPortctl, .secAttest]

/-- A bolt of a context of kind `k` passes the checks of R396 on arrival. -/
def Arrives (s : State) (b : Bolt) (k : Nat) : Prop :=
  s.epochOk b = true ∧ b.seq = s.fld .ctxEntry_rxSeq b.ctx ∧ s.fld .ctxEntry_kind b.ctx = k

/-- The last bolts of injection queue `k`, by OP, LAST and payload. -/
def Injected (t : State) (k : Nat) (l : List (Nat × Bool × Nat)) : Prop :=
  ∃ pre, (Tab.get [] t.tor.inject k).map (fun b => (b.op, b.last, b.payload)) = pre ++ l

/-- The command of a delivered bolt of a collective, by the kind of bolt: DATA, A2A, TAIL, DONE, BARRIER, COUNTS. -/
def boltCmd (b : Bolt) : Nat → Instr
  | 0 => .data b .good
  | 1 => .a2a b
  | 2 => .tail b
  | 3 => .done b
  | 4 => .barrierVote b
  | _ => .counts b

/-- The command that starts a collective, by its type (R420). -/
def collCmd (d : Fin 8) : Nat → Instr
  | 0 => .allReduce d
  | 1 => .reduceScatter d
  | 2 => .allGather d
  | 3 => .broadcast d
  | 4 => .allToAll d
  | _ => .barrier d

/-- Counts of dropped reports (R658). -/
def lostFields : List Field := [.evtLost_debug, .evtLost_info, .evtLost_warning, .evtLost_error, .evtLost_fatal]

end Sys2Proof.Machine
end

