-- ==== Sys2Proof/Certificates/Slice0/Obligations.lean ====
section
/-! DEFINITION. The statements for the provers. -/

open Sys2Proof Sys2Proof.Machine

/-! ## The step, reset and the forms of the state -/

/-- A step runs the command at the front of the queue on the rest of it. -/
def Obligations.StepRunsFront : Prop :=
  ∀ (s : State) (c : Instr) (cs : List Instr), s.pending = c :: cs → step s = exec c { s with pending := cs }

/-- The model's own tick (log 1): on an empty queue a step lets one nanosecond of local time pass, unless PERST_N is
asserted, and changes nothing else. -/
def Obligations.IdleTick : Prop :=
  ∀ s : State, s.pending = [] →
    step s = .next (if s.perst then s else { s with now := (s.now + 1) % 2 ^ 64 })

/-- R15: after reset every field is stored at its Reset value; the stored values that are not 0 are these, and every
other field is stored as 0. A field whose Reset the spec takes from fuses or the plan (ORG.IDENT, SEC.STATE) is stored
as 0 too and read from where it comes (the model's choice of log 141). That SPARES_FREE and WORST_FREE stand at 16 and
32, the values of an empty fault history, is the model's choice of log 212. -/
def Obligations.ResetFields : Prop :=
  let nonzero : List (Field × Nat) := [
    (.startStatus_phase, 1), (.perCfg_catchupCap, 8), (.perCfg_arrearsEvent, 4), (.perStatus_armed, 1),
    (.budLimit_watts, 2000), (.budStatus_vcoreMv, 700), (.colCfg_lagThreshold, 100000), (.memQos_minC1, 64),
    (.memQos_minC2, 32), (.memQos_minC3, 8), (.fltCfg_observeH, 168), (.fltCfg_testMin, 15),
    (.fltCfg_suspectLimit, 3), (.fltCfg_spareLow, 2), (.torEdition_previous, 3), (.torPstat_finding, 5),
    (.fltDiestat_sparesFree, 16), (.memStackstat_worstFree, 32), (.evtCtl_minSev, 1), (.evtRate_rate, 100), (.evtRate_burst, 64), (.monCfg_window, 1), (.gthCfg_buck, 64),
    (.gthBeatmeter_minRate, 4095), (.gthNumstat_conforming, 1), (.yrdReg_depth, 16777152), (.crzCfg_threshold, 10)]
  ∀ (f : Field) (i : Nat), State.reset.fld f i = Tab.get 0 (nonzero.map fun p => (p.1.key 0, p.2)) (f.key 0)

/-- After reset each memory is in its canonical form. -/
def Obligations.ResetForm : Prop := MemForm State.reset

/-- The canonical form of every memory is kept by every step, from every state that has it. -/
def Obligations.StepKeepsForm : Prop :=
  ∀ s t : State, MemForm s → step s = .next t → MemForm t

/-! ## Reset pins, rails, clock -/

/-- PERST_N_RELEASE starts local time from 0 and samples the straps, with every register at its Reset value (R55); an
assertion abandons whatever runs (R616). After a ramp out of order the start-up that a release begins is undefined, so
that its first phase has no next state, until an assertion and the release that follows find every rail in range (R701).
Fuses, the NVM's contents and device memory stay. RAIL_RAMP takes note of the order of R700; that the time it takes
changes nothing is the model's reading (log 26). Commands shown to complete: perstNRelease, perstNAssert, railRamp. -/
def Obligations.ResetPins : Prop :=
  (∀ (s : State) (slot : Fin 4), s.perst = true →
    Completes (.perstNRelease slot) s fun t =>
      t.perst = false ∧ t.now = 0 ∧ t.slot = slot.val ∧ (∀ f i, t.fld f i = f.reset) ∧ MemKept s t ∧
        (t.badRamp = true ↔ s.badRamp = true ∧ ¬(s.rampCure = true ∧ s.railUntil ≤ s.now)) ∧ t.fuses = s.fuses ∧ t.nvm.cells = s.nvm.cells) ∧
  (∀ (s : State) (f : Sfdp), s.inPhase 1 = true → s.badRamp = true →
    exec (.romStart f) s = .fault .startUndefined) ∧
  (∀ s : State, Completes .perstNAssert s fun t =>
      t.perst = true ∧ t.job.active = none ∧ t.queues = [] ∧ (∀ f i, t.fld f i = f.reset) ∧
        MemKept s t ∧ t.fuses = s.fuses ∧ t.nvm.cells = s.nvm.cells) ∧
  (∀ s : State, s.perst = false → Completes .perstNAssert s fun t =>
      t.badRamp = s.badRamp ∧ (t.rampCure = true ↔ s.railUntil ≤ s.now)) ∧
  (∀ (s : State) (order : List Rail) (ms : Nat), s.perst = true →
    Completes (.railRamp order ms) s fun t =>
      t = { s with badRamp := t.badRamp, rampCure := false } ∧
      (t.badRamp = false ↔
        (∀ i j : Nat, (hi : i < order.length) → (hj : j < order.length) → i < j →
          rampStep order[i] ≤ rampStep order[j]) ∧ ∀ r ∈ allRails, r ∈ order))

/-- R702, R706: a VCORE rail out of its range for more than 1 ms fails its die, VDRAM or VPP every die of the package,
and of any other rail the behaviour is undefined. A shorter excursion does nothing but keep the rail out of range,
during which no fuse and no NVM region is written (log 185). Loss of REFCLK fails the device and stops its links.
Commands shown to complete: railOutOfRange, refclkLoss. -/
def Obligations.RailsAndClock : Prop :=
  (∀ (s : State) (d : Fin 8) (us : Nat), s.perst = false → 1000 < us → s.absent d = false →
    Completes (.railOutOfRange (.vcore d) us) s fun t => (t.die d).failed = true) ∧
  (∀ (s : State) (d : Fin 8) (us : Nat), s.perst = false → us ≤ 1000 →
    exec (.railOutOfRange (.vcore d) us) s = .next { s with railUntil := max s.railUntil (s.now + 1000 * us) }) ∧
  (∀ (s : State) (us : Nat) (d : Fin 8), s.perst = false → s.absent d = false →
    Completes (.railOutOfRange .vdram us) s (fun t => (t.die d).failed = true) ∧
    Completes (.railOutOfRange .vpp us) s (fun t => (t.die d).failed = true)) ∧
  (∀ (s : State) (us : Nat) (r : Rail), s.perst = false → r ∈ [.vaux, .vio, .avdd, .virl, .vlpq, .avddh] →
    exec (.railOutOfRange r us) s = .fault .railUndefined) ∧
  (∀ s : State, s.perst = false → s.refclkLost = false →
    Completes .refclkLoss s fun t => t.refclkLost = true ∧ t.dead = true ∧
      ∀ l, l < 14 → t.fld .irlLinkstat_state l = 0 ∨ t.fld .irlLinkstat_state l = 3)

/-! ## Start-up -/

/-- R610: each phase, at its end, gives way to the next; the first writes the time of its end. Commands shown to
complete: romStart, imageCheck, iraleNegotiation, training. -/
def Obligations.StartPhases : Prop :=
  (∀ (s : State) (f : Sfdp), s.inPhase 1 = true → s.badRamp = false →
    Completes (.romStart f) s fun t =>
      t.fld .startStatus_phase 0 = 2 ∧ t.fld .startPhaseend_tEnd 0 = s.now % 2 ^ 64 ∧
      (t.nvm.present = true ↔ f ≠ .absent)) ∧
  (∀ (s : State) (l : List (Fin 8)), s.inPhase 2 = true →
    Completes (.imageCheck l) s fun t => t.fld .startStatus_phase 0 = 3 ∧ t.fld .startPhaseend_tEnd 1 = t.now % 2 ^ 64) ∧
  (∀ (s : State) (w : List (List Nat)) (a : List (Fin 14)) (b c : List (Fin 14 × BadWire)), s.inPhase 3 = true →
    let s' := s.noteWires (b ++ c)
    let words := (List.range 10).map (s'.wordsOf w)
    Completes (.iraleNegotiation w a b c) s fun t =>
      t.fld .startStatus_phase 0 = 4 ∧ t.fld .startPhaseend_tEnd 2 = t.now % 2 ^ 64 ∧
      t.fld .orgIdent_io1Joined 0 =
        b2n (((s'.causes words a s'.failedLinks).filter (·.2 == 0)).any fun p => p.1 == 9)) ∧
  (∀ (s : State) (l : List (Fin 8)) (ps : List LpPkg), s.inPhase 4 = true →
    Completes (.training l ps) s fun t => t.fld .startStatus_phase 0 = 5 ∧ t.fld .startPhaseend_tEnd 3 = t.now % 2 ^ 64)

/-- R335, R610, R612: the wipe leaves every byte of memory 0, but for a stack that failed training, and writes the time
of its end. BLANK is then ready; RETIRED is not, and erases under RETIRE_ERASE first (R589); PROVISIONED, FIELD and
SERVICE go on to phase 6, in which every usable port trains and no other is waited for, and are ready once every port is
judged. That erase waits while a rail is out of range (the model's choice of log 185). Commands shown to complete:
startWipe, retireErase, portBringUp. -/
def Obligations.WipeToReady : Prop :=
  (∀ s : State, s.inPhase 5 = true →
    Completes .startWipe s fun t =>
      (∀ a, (a < 2 ^ 40 → (s.die (a / 2 ^ 37)).stackOut = false) → t.rdB a = 0)) ∧
  (∀ s : State, s.inPhase 5 = true → s.fuses.state = 0 →
    Completes .startWipe s fun t => t.ready = true ∧ t.fld .startStatus_phase 0 = 7) ∧
  (∀ s : State, s.inPhase 5 = true → s.fuses.state = 4 →
    Completes .startWipe s fun t => t.ready = false ∧ t.fld .startStatus_phase 0 = 7 ∧
      t.flag .startStatus_retireErase 0 = true ∧ t.fld .startPhaseend_tEnd 4 = s.now % 2 ^ 64) ∧
  (∀ s : State, s.inPhase 5 = true → s.provisioned = true →
    Completes .startWipe s fun t => t.ready = false ∧ t.fld .startStatus_phase 0 = 6 ∧
      t.fld .startPhaseend_tEnd 4 = s.now % 2 ^ 64 ∧
      ∀ p, p < 12 → if s.portUsable p then t.fld .torPstat_state p = 1 ∧ (t.port p).judged = false
        else (t.port p).judged = true) ∧
  (∀ s : State, s.inPhase 7 = true → s.flag .startStatus_retireErase 0 = true → s.railsOk = true →
    Completes .retireErase s fun t => t.ready = true ∧ t.flag .startStatus_retireErase 0 = false ∧
      (s.flag .startStatus_nvmFail 0 = false → ∀ k ∈ retireBlocks, ∀ a, k ≤ a → a < k + 65536 →
        t.nvmRd a 1 = 255)) ∧
  (∀ s : State, s.inPhase 6 = true → (∀ p, p < 12 → (s.port p).judged = true) →
    Completes .portBringUp s fun t => t.ready = true ∧ t.fld .startStatus_phase 0 = 7 ∧
      t.fld .startPhaseend_tEnd 5 = s.now % 2 ^ 64)

/-! ## Ports and the cable survey -/

/-- R412 to R416, R621: a usable port that finishes training on two lanes or more is surveyed, a time-out is noted, the
first SURVEY gives the peer's coordinate and port, one whose edition routes nowhere is dropped and counted (R407), and
the ports that wait, all of start-up or all of a restart, are judged together. A restart takes the named usable ports
down. That an occurrence of a training with fewer than two good lanes changes nothing, since by R387 no port comes up on
one lane, is the model's choice (log 2). Commands shown to complete: portTrainingTimeout, surveyTimeout,
surveyJudgement, portRestart, survey, portTrainingComplete. -/
def Obligations.PortSurvey : Prop :=
  (∀ (s : State) (p : Fin 12) (mask : Nat), [0, 1, 4].contains (s.fld .torPstat_state p) = true →
    s.portUsable p = true → s.dead = false → s.tripped = false → 6 ≤ s.fld .startStatus_phase 0 →
    (s.port p).retraining = false → 2 ≤ onesIn 4 (goodLanes mask) →
    Completes (.portTrainingComplete p mask) s fun t =>
      t.fld .torPstat_state p = 2 ∧ t.fld .torPstat_laneMask p = goodLanes mask ∧ (t.port p).judged = false ∧
        (t.port p).surveyed = none) ∧
  (∀ (s : State) (p : Fin 12) (mask : Nat), onesIn 4 (goodLanes mask) < 2 →
    exec (.portTrainingComplete p mask) s = .next s) ∧
  (∀ (s : State) (p : Fin 12), s.fld .torPstat_state p ≤ 1 → (s.port p).judged = false →
    Completes (.portTrainingTimeout p) s fun t => (t.port p).timedOut = true ∧ RegsKept [] s t ∧ MemKept s t) ∧
  (∀ (s : State) (p : Fin 12), s.fld .torPstat_state p = 2 → (s.port p).judged = false → (s.port p).surveyed = none →
    Completes (.surveyTimeout p) s fun t => (t.port p).timedOut = true ∧ RegsKept [] s t ∧ MemKept s t) ∧
  (∀ (s : State) (p : Fin 12) (b : Bolt), s.fld .torPstat_state p = 2 → (s.port p).judged = false →
    (s.port p).surveyed = none → b.edition = s.fld .torEdition_current 0 → s.tripped = false →
    Completes (.survey p b) s fun t =>
      (t.port p).surveyed = some b.payload ∧ t.fld .torPstat_peerCoord p = svCoord b.payload ∧
      t.fld .torPstat_peerPort p = svPort b.payload ∧ RegsKept [.torPstat_peerCoord, .torPstat_peerPort] s t ∧
      MemKept s t) ∧
  (∀ (s : State) (p : Fin 12) (b : Bolt), s.editionCheck b = none → s.tripped = false →
    Completes (.survey p b) s fun t =>
      t.fld .torDrops_edition 0 = min (2 ^ Field.torDrops_edition.info.width - 1) (s.fld .torDrops_edition 0 + 1) ∧
        RegsKept [.torDrops_edition] s t ∧ MemKept s t) ∧
  (∀ (s : State) (r : Bool), s.tripped = false → s.unjudged ≠ [] → (∀ p ∈ s.unjudged, s.restarting p = r) →
    (∀ p ∈ s.unjudged, (s.port p).surveyed.isSome = true ∨ (s.port p).timedOut = true) →
    Completes .surveyJudgement s fun t =>
      ∀ p ∈ s.unjudged, (t.port p).judged = true ∧ t.fld .torPstat_finding p = s.findingOf p) ∧
  (∀ (s : State) (mask p : Nat), s.ready = true → s.jobRuns = false → s.tripped = false → p < 12 →
    bit mask p = true → s.portUsable p = true →
    Completes (.portRestart mask) s fun t =>
      t.fld .torPstat_state p = 1 ∧ t.fld .torPstat_lanes p = 0 ∧ bit (t.fld .cfgPortctl_busy 0) p = true)

/-! ## Budget -/

/-- R74: the budget state of a joined die whose inputs are all low before and whose rail is managed is that of its worst
input: limit from 105 °C of logic or 95 °C of a stack, red from the power limit, 100 °C or 90 °C, amber from 90 % of the
limit, 95 °C or 85 °C. The hottest sensors are shown. Commands shown to complete: budgetEvaluation. -/
def Obligations.BudgetState : Prop :=
  ∀ (s : State) (d : Fin 8) (t : Temps) (ok : Bool), s.perst = false → s.joined d = true →
    (s.die d).inPower = 0 → (s.die d).inLogic = 0 → (s.die d).inStack = 0 → s.flag .budStatus_unmanaged d = false →
    let p := s.fld .budPower_watts 0
    let lim := s.inForce .budLimit_watts 0
    let lg := maxOf (t.logic ++ s.ioTemps t)
    let sk := maxOf t.stack
    Completes (.budgetEvaluation d t ok) s fun u =>
      u.fld .budStatus_state d =
        (if 105 ≤ lg ∨ 95 ≤ sk then 3 else if lim ≤ p ∨ 100 ≤ lg ∨ 90 ≤ sk then 2
        else if 90 * lim ≤ 100 * p ∨ 95 ≤ lg ∨ 85 ≤ sk then 1 else 0) ∧
      u.fld .budStatus_hotLogic d = min 255 lg ∧ u.fld .budStatus_hotStack d = min 255 sk ∧ MemKept s u

/-- R89, R90: at a sensor's limit, 105 °C of logic and of an I/O die and 95 °C of a stack, every compute die that the
sensor counts for is at limit, those of them that were not have the sensor's cause and, with an image accepted, the
request VCORE_MIN, and THERMAL_LIMIT is reported with the sensor. At the trip temperature THERMTRIP_N goes low and the
device is tripped: no main job runs, no maintenance list goes on, and every rail is asked for VCORE_MIN. The event's
source is the die of the sensor, and the requests succeed on the bus (the model's choices of logs 196 and 202). Commands
shown to complete: thermalLimit, thermalTrip. -/
def Obligations.Thermal : Prop :=
  let low (s t : State) (d : Nat) : Prop := s.fld .secState_image 0 ≠ 0 →
    t.fld .budStatus_vcoreMv d = s.vmin % 2 ^ Field.budStatus_vcoreMv.info.width
  (∀ (s : State) (k : Fin 64) (c : Nat), s.perst = false → (if sensorStack k then 95 else 105) ≤ c →
    (∃ d ∈ s.sensorDies k, s.fld .budStatus_state d ≠ 3) →
    Completes (.thermalLimit k c) s fun t =>
      (∀ d ∈ s.sensorDies k, t.fld .budStatus_state d = 3 ∧ (s.fld .budStatus_state d ≠ 3 →
        t.fld .budStatus_cause d = (if sensorStack k then 3 else 2) ∧ low s t d)) ∧
      (s.recorder.queue.length < 1024 → ∃ r, t.recorder.queue = s.recorder.queue ++ [r] ∧
        r.code = Err.thermalLimit.code ∧ r.die = sensorDie k ∧ r.unit = k.val ∧ r.arg1 = c) ∧ MemKept s t) ∧
  (∀ (s : State) (k : Fin 64) (c : Nat), s.perst = false → (k.val < 56 → s.joined (k / 7) = true) →
    s.tripped = false → (if sensorStack k then 100 else 110) ≤ c →
    Completes (.thermalTrip k c) s fun t => t.tripped = true ∧ t.thermTripN = false ∧ t.job.active = none ∧
      (∀ r ∈ t.job.maintRuns, r.ended = true) ∧ (∀ d, d < 8 → low s t d) ∧
      (s.recorder.queue.length < 1024 → ∃ r ∈ t.recorder.queue,
        r.code = Err.thermalTrip.code ∧ r.die = sensorDie k ∧ r.unit = k.val ∧ r.arg1 = c))

/-- R49, R72, R306, R310: the power read back of the rails in use joins the last ten readings and BUD.POWER shows their
average, rounded down (the model's reading, log 35), of those so far while there are fewer than ten (the model's choice,
log 203); a beat meter shows, at a multiple of 1,000 ns and once, the beats of the window that ends there, 0 where the
gathering issued nothing in it, and the lowest rate since it was read of windows with instructions throughout, and at
any other time nothing changes (the model's choice, log 105); refresh doubles from 85 °C and is normal from 83 °C down;
recentring a channel alters nothing. Commands shown to complete: packagePowerReadback, beatMeterWindow,
refreshRateChange, lpddrRecentre. -/
def Obligations.MetersAndRefresh : Prop :=
  (∀ (s : State) (l : List RailReading), s.perst = false → s.fld .secState_image 0 ≠ 0 →
    let h := (s.packageUw (s.readRails l) :: s.powerUw).take 10
    Completes (.packagePowerReadback l []) s fun t =>
      t.rails = s.readRails l ∧ t.powerUw = h ∧
        t.fld .budPower_watts 0 = h.foldl (· + ·) 0 / (1000000 * h.length) % 2 ^ 16 ∧
        RegsKept [.budPower_watts] s t ∧ MemKept s t) ∧
  (∀ (s : State) (d g : Fin 8) (n : Nat) (b : Bool), s.perst = false → s.absent d = false →
    let x := s.gath d g
    let issued := s.issuedInWindow d g
    let r := if issued then min 4095 n else 0
    (s.now % 1000 = 0 → x.window < s.now / 1000 → Completes (.beatMeterWindow d g n b) s fun t =>
      t.fld .gthBeatmeter_rate (gi d g) = r ∧
      t.fld .gthBeatmeter_minRate (gi d g) =
        (if b && issued then min r (s.fld .gthBeatmeter_minRate (gi d g))
          else s.fld .gthBeatmeter_minRate (gi d g)) ∧
        RegsKept [.gthBeatmeter_rate, .gthBeatmeter_minRate] s t ∧ MemKept s t) ∧
    (s.now % 1000 ≠ 0 ∨ s.now / 1000 ≤ x.window → exec (.beatMeterWindow d g n b) s = .next s)) ∧
  (∀ (s : State) (d : Fin 8) (c : Nat), s.perst = false → s.absent d = false →
    Completes (.refreshRateChange d c) s fun t =>
      t.flag .memStackstat_refresh2x d =
        (if 85 ≤ c then true else if c ≤ 83 then false else s.flag .memStackstat_refresh2x d) ∧
        RegsKept [.memStackstat_refresh2x] s t ∧ MemKept s t) ∧
  (∀ (s : State) (i : Fin 8) (ch : Fin 4), exec (.lpddrRecentre i ch) s = .next s)

/-! ## Periods and steps -/

/-- R61, R65, R686: a period that is over ends: the arrears become A + D − N, not below 0, PER.COUNT counts it and the
timer goes to the next period, or after the last of a step to the next step. R64, R688: an idle boundary, due 1,000 µs
after the last one, counts no period, and from it the written BUD.LIMIT is in force; a boundary that starts the accepted
job is JOB_START's (R637). Commands shown to complete: periodEnd, idlePeriodBoundary. -/
def Obligations.PeriodBoundaries : Prop :=
  (∀ (s : State) (m : Manifest), s.job.active = some m → s.periodOver = true →
    Completes .periodEnd s fun t =>
      t.fld .perStatus_arrears 0 =
        min (2 ^ 40 - 1) (s.fld .perStatus_arrears 0 + (s.now - s.job.sTime) - s.nominal) ∧
      t.fld .perCount_period 0 = (s.fld .perCount_period 0 + 1) % 2 ^ 64 ∧
      t.job.sTime = s.now ∧
      (t.job.tstep, t.job.period) =
        (if s.job.period + 1 < m.periods then (s.job.tstep, s.job.period + 1) else (s.job.tstep + 1, 0)) ∧
      MemKept s t) ∧
  (∀ s : State, s.idleOver = true → s.startsNext = true → exec .idlePeriodBoundary s = .next s) ∧
  (∀ s : State, s.jobRuns = false → s.perst = false → s.job.sTime + 1000000 ≤ s.now → s.startsNext = false →
    Completes .idlePeriodBoundary s fun t =>
      t.job.sTime = s.now ∧ t.inForce .budLimit_watts 0 = s.fld .budLimit_watts 0 ∧
      t.fld .perCount_period 0 = s.fld .perCount_period 0 ∧ MemKept s t)

/-- R417, R632, R633: a congestion sample counts every port once, in the bin of its occupancy; one held by arrears is
counted as missed instead. With the transfer engine idle the next valid ring entry is taken, with the current copy.
Commands shown to complete: congestionSample, transferRingPoll. -/
def Obligations.SamplesAndPoll : Prop :=
  (∀ s : State, s.ready = true → (s.jobRuns = false ∨ s.fld .perStatus_arrears 0 = 0 ∨ s.inBubble = true) →
    Completes .congestionSample s fun t =>
      t.tor.samples = s.tor.samples + 1 ∧ t.tor.missed = s.tor.missed ∧
      (∀ p, p < 12 →
        let n := (s.port p).egress.length
        let k := 4 * p + (if n < 512 then 0 else if n < 2048 then 1 else if n < 3584 then 2 else 3)
        Tab.get 0 t.tor.bins k = Tab.get 0 s.tor.bins k + 1) ∧ RegsKept [] s t ∧ MemKept s t) ∧
  (∀ s : State, s.ready = true → s.jobRuns = true → 0 < s.fld .perStatus_arrears 0 → s.inBubble = false →
    Completes .congestionSample s fun t =>
      t.tor = { s.tor with missed := s.tor.missed + 1 } ∧ RegsKept [] s t ∧ MemKept s t) ∧
  (∀ (s : State) (a v : Nat), s.hif.xfer = none → s.fuses.state ≠ 4 → s.ringEntry .transfer 0 = some (a, v) →
    exec .transferRingPoll s =
      .next { s with hif := { s.hif with xfer := some ⟨a, v, s.fld .updStep_cur 0, none, false⟩ } })

/-- R462, R463, R532, R533: a step whose lists have completed, whose verdict permits it and whose stores are covered
closes for the other copy and the next step number, and no register or memory changes until APPLY_AT (the model's
reading, log 24); at 2^32 − 1 the number stays (the model's reading, log 159); IO0 sends the COMMIT to apply 1,000 ns
later, unless a link is in a repair pause; once every die has reached that time by its own clock CUR, STEP and every
die's commit tokens change at once and the next step is the open one; where no row waits for its mirror, no memory
changes. A step that is undone changes CUR, STEP and CLOSED alike, its tokens go to 0 where the host has signalled none,
and the next step is the open one (R287); COMMITTED is not spoken of there. Commands shown to complete: commit,
commitApply, stepClose, rollback. -/
def Obligations.StepCloses : Prop :=
  (∀ (s : State) (m : Manifest), s.job.active = some m → s.job.closing = none → s.job.pos ≤ s.job.tstep →
    s.stepWork s.job.pos = true → s.verdictOk = true → s.covered = true →
    Completes .stepClose s fun t =>
      t.job.closing = some (⟨1 - s.fld .updStep_cur 0, min (2 ^ 32 - 1) (s.fld .updStep_step 0 + 1), s.job.pos,
        s.job.pos, 0⟩, outCommitted) ∧ RegsKept [] s t ∧ MemKept s t) ∧
  (∀ (s : State) (c : CommitMsg) (o : Nat), s.job.closing = some (c, o) → s.irl.commit = none →
    Completes .commit s fun t =>
      (if s.repairing then t = s else t.irl.commit = some { c with applyAt := s.now + 1000 }) ∧
        RegsKept [] s t ∧ MemKept s t) ∧
  (∀ (s : State) (m : Manifest) (c c' : CommitMsg), s.job.active = some m →
    s.job.closing = some (c', outCommitted) → s.irl.commit = some c → s.commitDue c = true → s.lastStep m = false →
    s.poison = [] →
    Completes .commitApply s fun t =>
      t.fld .updStep_cur 0 = c.cur % 2 ∧ t.fld .updStep_step 0 = c.step % 2 ^ 32 ∧
      (∀ d, d < 8 → t.fld .tokCommit_closed d = c.closed % 2 ^ 32 ∧
        t.fld .tokCommit_committed d = c.committed % 2 ^ 32) ∧
      t.job.pos = s.job.pos + 1 ∧ t.job.closing = none ∧ t.irl.commit = none ∧
      ((∀ p ∈ s.dies, p.2.rowlog = []) → MemKept s t)) ∧
  (∀ (s : State) (m : Manifest) (c c' : CommitMsg) (o : Nat), s.job.active = some m →
    s.job.closing = some (c', o) → o ≠ outCommitted → s.irl.commit = some c → s.commitDue c = true →
    s.lastStep m = false → s.poison = [] →
    Completes .rollback s fun t =>
      t.fld .updStep_cur 0 = c.cur % 2 ∧ t.fld .updStep_step 0 = c.step % 2 ^ 32 ∧
      (∀ d, d < 8 → t.fld .tokCommit_closed d = c.closed % 2 ^ 32) ∧
      (s.hif.hostSig = [] → ∀ d k, t.token d k = 0) ∧ t.job.pos = s.job.pos + 1 ∧ t.job.rolling = false)

/-! ## Event recorder and NVM -/

/-- R658 to R660: a report below MIN_SEV is dropped; one that no bucket holds back is given the next SEQ and, where R659
gives it a place, stands there as a record with REPEAT 0. Of several empty slots the lowest-numbered takes it (placeFor;
the model's choice, log 37). While a clear erases the persisted region no report is taken (R667). Commands shown to
complete: eventReport. -/
def Obligations.EventRecords : Prop :=
  (∀ (s : State), s.clearing = true → exec .eventReport s = .next s) ∧
  (∀ (s : State) (r : Report) (q : List Report), s.clearing = false → s.recorder.queue = r :: q → r.sev < s.minSev →
    exec .eventReport s = .next { s with recorder := { s.recorder with queue := q } }) ∧
  (∀ (s : State) (r : Report) (q : List Report), s.clearing = false → s.recorder.queue = r :: q → s.minSev ≤ r.sev →
    s.rateFree r = true →
    Completes .eventReport s fun t =>
      t.recorder.queue = q ∧ t.recorder.next = s.recorder.next + 1 ∧
      t.fld .evtHead_headSeq 0 = s.recorder.next % 2 ^ 48 ∧
      (∀ k, placeFor s.recorder.ring r.sev = some k →
        t.recorder.ring = Tab.upd s.recorder.ring k
          ⟨s.recorder.next, r, 0, 0, s.fld .startStatus_boot 0 % 2 ^ 24⟩) ∧ MemKept s t)

/-- R599, R646, R647, R664 to R667, R692: GO makes HIF.NVMCTL busy and starts the operation, or ends it as refused; the
block of a clear is erased, the last of which ends it with the record EVENTS_CLEARED; a unit of a host's erase erases
its block, one of its program clears in a page the bits that are 0 in the buffer, and one of its read brings a page to
the buffer; the end clears BUSY, shows RESULT and signals vector 8; a batch that is due empties its queue. That the
erases of a clear follow the history records that wait, and EVENTS_CLEARED the last of them, is the model's reading (log
32); that it takes slot 0 its choice (log 37); that programming sets no bit is taken from NOR flash (log 38); and a rail
out of range holds the units back (the model's choice, log 185). Commands shown to complete: eventPersistBatch, nvmRead,
nvmProgram, nvmErase, nvmUnit, nvmOperationComplete. -/
def Obligations.NvmOperations : Prop :=
  (∀ (s : State) (off : Nat), s.ready = true → s.flag .hifNvmctl_busy 0 = false →
    let go (op : Nat) (t : State) : Prop :=
      t.flag .hifNvmctl_busy 0 = true ∧
        (if s.nvmRefused op (off % 2 ^ 27) (s.fld .hifNvmctl_length 0) (s.fld .hifNvmctl_buf 0) then
          t.nvm.opEnd = some 2 ∧ t.nvm.op = s.nvm.op
        else t.nvm.op = some (op, off % 2 ^ 27, s.fld .hifNvmctl_length 0, s.fld .hifNvmctl_buf 0)) ∧
        RegsKept [.hifNvmctl_op, .hifNvmctl_offset, .hifNvmctl_busy, .hifNvmctl_result] s t ∧ MemKept s t
    Completes (.nvmRead off) s (go 1) ∧ Completes (.nvmProgram off) s (go 2) ∧ Completes (.nvmErase off) s (go 3)) ∧
  (∀ (s : State) (ok : Bool) (a : Nat) (r : List Nat), s.nvmServes = true → s.railsOk = true → s.nvm.histQ = [] →
    s.nvm.erases = a :: r →
    Completes (.nvmUnit ok) s fun t =>
      t.nvm.erases = r ∧ (∀ b, a ≤ b → b < a + 65536 → t.nvmRd b 1 = 255) ∧ NvmKeptOutside a 65536 s t ∧
        (r ≠ [] → RegsKept [] s t ∧ t.recorder = s.recorder) ∧ (r = [] → t.recorder.clear = none) ∧ MemKept s t) ∧
  (∀ (s : State) (ok : Bool) (a h l1 l2 k : Nat), s.nvmServes = true → s.railsOk = true → s.nvm.histQ = [] →
    s.nvm.erases = [a] → s.recorder.clear = some (h, l1, l2, k) → s.recorder.ring = [] →
    Completes (.nvmUnit ok) s fun t =>
      t.recorder.clear = none ∧ t.recorder.ring = [(0, ⟨s.recorder.next,
        ⟨Err.code .eventsCleared, 2, 15, 0xFF, s.now, s.evStep, h, l1, l2, k⟩, 0, 0, s.fld .startStatus_boot 0 % 2 ^ 24⟩)]) ∧
  (∀ (s : State) (off buf : Nat), s.nvmServes = true → s.railsOk = true → s.nvm.histQ = [] → s.nvm.erases = [] →
    s.recorder.persistQ = [] → s.nvm.op = some (3, off, 1, buf) →
    Completes (.nvmUnit true) s fun t =>
      t.nvm.op = none ∧ t.nvm.opEnd = some 1 ∧ (∀ b, off ≤ b → b < off + 65536 → t.nvmRd b 1 = 255) ∧
        NvmKeptOutside off 65536 s t) ∧
  (∀ (s : State) (off n buf : Nat), s.nvmServes = true → s.railsOk = true → s.nvm.histQ = [] → s.nvm.erases = [] →
    s.recorder.persistQ = [] → s.nvm.op = some (2, off, n, buf) → s.firstPoison buf 256 = none →
    Completes (.nvmUnit true) s fun t =>
      (∀ i, i < 256 → t.nvmRd (off + i) 1 = s.nvmRd (off + i) 1 &&& s.rdB (buf + i)) ∧ NvmKeptOutside off 256 s t ∧
        MemKept s t ∧ (n ≤ 1 → t.nvm.op = none ∧ t.nvm.opEnd = some 1) ∧
        (1 < n → t.nvm.op = some (2, off + 256, n - 1, buf + 256))) ∧
  (∀ (s : State) (off n buf : Nat), s.nvmServes = true → s.railsOk = true → s.nvm.histQ = [] → s.nvm.erases = [] →
    s.recorder.persistQ = [] → s.nvm.op = some (1, off, n, buf) →
    Completes (.nvmUnit true) s fun t =>
      (∀ i, i < 256 → t.rdB (buf + i) = s.nvmRd (off + i) 1) ∧ MemKeptOutside buf 256 s t ∧
        t.nvm.cells = s.nvm.cells ∧ (n ≤ 1 → t.nvm.op = none ∧ t.nvm.opEnd = some 1) ∧
        (1 < n → t.nvm.op = some (1, off + 256, n - 1, buf + 256))) ∧
  (∀ (s : State) (r : Nat), s.nvm.opEnd = some r →
    Completes .nvmOperationComplete s fun t =>
      t.nvm.opEnd = none ∧ t.fld .hifNvmctl_result 0 = r % 8 ∧ t.flag .hifNvmctl_busy 0 = false ∧
        bit (t.fld .hifCause_cause 0) 8 = true ∧ MemKept s t) ∧
  (∀ s : State, s.nvmServes = true → s.batchDue = true → s.batchFree = true →
    Completes .eventPersistBatch s fun t => t.recorder.persistQ = [] ∧ RegsKept [] s t ∧ MemKept s t)

/-! ## Memory errors -/

/-- R303, R333, R334: a scrubber that may go on reads one granule and steps to the next, or after the last begins a new
pass; the first row that waits for repair leaves the queue for a spare row of its bank. Commands shown to complete:
scrubGranule, rowRemap. -/
def Obligations.ScrubAndRows : Prop :=
  (∀ (s : State) (w : Scrubber), s.ready = true → (s.die (scrubIdx w)).scrubPos < (s.scrubArea w).2 →
    (s.region ((s.scrubArea w).1 + 64 * (s.die (scrubIdx w)).scrubPos)).isDram = true → s.deferred = false →
    s.scrubStarts w = true → s.tripped = false →
    Completes (.scrubGranule w .good) s fun t =>
      (t.die (scrubIdx w)).scrubPos =
        (if (s.die (scrubIdx w)).scrubPos + 1 < (s.scrubArea w).2 then (s.die (scrubIdx w)).scrubPos + 1 else 0) ∧
      MemKept s t) ∧
  (∀ (s : State) (d : Fin 8) (row : Nat) (rest : List Nat), (s.die d).rowQ = row :: rest → s.tripped = false →
    let b := 32 * (rowPlace row).1 + (rowPlace row).2.1
    Tab.get 0 (s.die d).bankUsed b < 32 →
    Completes (.rowRemap d) s fun t =>
      (t.die d).rowQ = rest ∧ Tab.get 0 (t.die d).bankUsed b = Tab.get 0 (s.die d).bankUsed b + 1 ∧
        t.nvm.histSeq = s.nvm.histSeq + 1)

/-- R565: the loss of a channel of a stack fails its die, the loss of an interface in use loses the tier, which is no
longer mapped (the model's reading, log 19), and a degraded channel is noted. Commands shown to complete:
lpddrInterfaceLost, stackChannelLost, channelDegraded. -/
def Obligations.LostChannels : Prop :=
  (∀ (s : State) (d : Fin 8) (ch : Fin 128), s.perst = false → s.absent d = false →
    Completes (.stackChannelLost d ch) s fun t => (t.die d).failed = true) ∧
  (∀ (s : State) (d : Fin 8) (ch : Fin 128), s.perst = false → s.absent d = false →
    Completes (.channelDegraded d ch) s fun t =>
      ch.val ∈ (t.die d).deadWires ∧ (s.symErr = [] → MemKept s t) ∧ RegsKept lostFields s t) ∧
  (∀ (s : State) (i : Fin 8), s.perst = false → s.lpLost = false → bit (s.fld .memLpcfg_used 0) i = true →
    Completes (.lpddrInterfaceLost i) s fun t => t.lpLost = true ∧ t.tierSize = 0)

/-! ## Lists and tokens -/

/-- R78, R265: the list that the die controller chooses starts now, by its die's copy of local time (R536); a paused one
goes on where its queue has room. Commands shown to complete: listStart, dispatchResume. -/
def Obligations.ListsStart : Prop :=
  (∀ (s : State) (d : Fin 8) (r : ListRun), s.running d < 32 → s.dead = false → s.tripped = false →
    s.choice d = some r →
    Completes (.listStart d) s fun t =>
      (∃ x ∈ t.job.runs, x.same r = true ∧ x.phase = .running ∧ x.tStart = s.timeAt d) ∧
        t.job.starts = s.job.starts + 1 ∧ RegsKept [] s t ∧ MemKept s t) ∧
  (∀ (s : State) (d : Fin 8) (m : Bool) (r : ListRun) (c : QCmd), s.paused d = some (m, r) → mkCmd r m r.next = some c →
    (s.queue d (cmEngine c.word % 16)).length < 256 →
    Completes (.dispatchResume d) s fun t =>
      (∃ x ∈ t.queue d (cmEngine c.word % 16), x.word = c.word ∧ x.listId = r.src.id ∧ x.index = r.next + 1) ∧
        RegsKept [] s t ∧ MemKept s t)

/-- R270: a signal adds its count to the token; a sum above 1,048,575 leaves the token at it and sets OVF, and the first
since OVF was cleared raises TOKEN_OVERFLOW with severity WARNING (the report waits with those of R658). Nothing else
changes. Commands shown to complete: tokenSignal. -/
def Obligations.TokenSignals : Prop :=
  ∀ (s : State) (d : Fin 8) (k : Fin 4096) (n : Nat),
    let i := 4096 * d.val + k.val
    let others (t : State) : Prop :=
      (∀ j, j ≠ i → t.fld .tokEntry_value j = s.fld .tokEntry_value j ∧ t.fld .tokEntry_ovf j = s.fld .tokEntry_ovf j) ∧
        MemKept s t
    (s.token d k + n ≤ 1048575 → Completes (.tokenSignal d k n) s fun t =>
      t.token d k = s.token d k + n ∧ others t ∧ RegsKept [.tokEntry_value] s t ∧ t.recorder = s.recorder) ∧
    (1048575 < s.token d k + n → Completes (.tokenSignal d k n) s fun t =>
      t.token d k = 1048575 ∧ t.flag .tokEntry_ovf i = true ∧ others t ∧
      (s.flag .tokEntry_ovf i = true → t.recorder = s.recorder ∧ RegsKept [.tokEntry_value, .tokEntry_ovf] s t) ∧
      (s.flag .tokEntry_ovf i = false → s.recorder.queue.length < 1024 →
        (∃ r, t.recorder.queue = s.recorder.queue ++ [r] ∧ r.code = Err.tokenOverflow.code ∧ r.sev = 2 ∧
          r.die = d.val) ∧ RegsKept [.tokEntry_value, .tokEntry_ovf] s t))

/-- R271, R272, R274, R277: a grant takes every token of the wait at once; the signals of the oldest command whose
writes are acknowledged go; a fence whose waits are granted leaves its queue; a wait of more than 8 N is reported once,
with the die and the token that is waited for. Commands shown to complete: tokenWaitLong, waitGrant, signalRelease,
fence. -/
def Obligations.WaitsAndFences : Prop :=
  (∀ (s : State) (w : Waiter) (d : Nat) (l : List (Nat × Nat)), s.enrol.grantable w = true →
    s.enrol.waiterNeeds w = some (d, false, l) →
    Completes (.waitGrant w) s fun t =>
      (∀ p ∈ l, t.token d p.1 = (s.token d p.1 - p.2) % 2 ^ 20) ∧ RegsKept [.tokEntry_value] s t ∧ MemKept s t) ∧
  (∀ (s : State) (p : PendSignal) (r : List PendSignal), s.signals = p :: r →
    Completes .signalRelease s fun t =>
      t.signals = r ∧ MemKept s t ∧
      ∀ d k n, p.maint = false → p.sigs = [(d, k, n)] → s.token d k + n ≤ 1048575 →
        t.token d k = s.token d k + n) ∧
  (∀ (s : State) (d : Fin 8) (u : Fin 14) (c : QCmd), s.startable d u 0 = some c →
    Completes (.fence d u) s fun t => (t.queue d u).map (·.word) = ((s.queue d u).drop 1).map (·.word)) ∧
  (∀ (s : State) (d : Fin 8) (u : Fin 14) (c : QCmd) (q : List QCmd) (t0 : Nat), s.queue d u = c :: q →
    c.since = some t0 → s.jobRuns = true → c.warned = false →
    8 * s.nominal < s.now - t0 →
    Completes (.tokenWaitLong d u) s fun t => t.queue d u = { c with warned := true } :: q ∧
      (s.recorder.queue.length < 1024 → ∃ r, t.recorder.queue = s.recorder.queue ++ [r] ∧
        r.code = Err.tokenWaitLong.code ∧ r.sev = Err.tokenWaitLong.sev ∧ r.die = c.die ∧ r.arg1 = s.headToken d u c) ∧
      RegsKept lostFields s t ∧ MemKept s t)

/-! ## Host accesses -/

/-- R13, R14, R628: a write of a register without side effects changes the bits it covers of the register's RW fields,
clears those of its W1C fields that it writes 1 to, and no others: a field covered whole reads what was written, RO, RC
and WO fields and every other register hold what they held, and no memory changes. A write of a register that acts does
what the command of its row does, and COL.CFG takes what is written but for a LAG_THRESHOLD of 0 (R449). Commands shown
to complete: registerWrite. -/
def Obligations.PlainRegisterWrite : Prop :=
  (∀ (s : State) (off n v : Nat) (r : Reg) (i b : Nat), s.perst = false → s.ready = true → bar0Ok off n = true →
    s.blockLive off = true → ¬ (0x8000 ≤ off ∧ off < 0x8400) → regAt off = some (r, i, b) → r ∉ actingRegs →
    let covered (k : Nat) : Prop := 8 * b ≤ k ∧ k < 8 * (b + n)
    Completes (.registerWrite off n v) s fun t =>
      (∀ f ∈ r.fields, f.info.acc = .rw → ∀ j, j < f.info.width →
        (covered (f.info.lo + j) → bit (t.fld f i) j = bit v (f.info.lo + j - 8 * b)) ∧
        (¬ covered (f.info.lo + j) → bit (t.fld f i) j = bit (s.fld f i) j)) ∧
      (∀ f ∈ r.fields, f.info.acc = .w1c → ∀ j, j < f.info.width →
        (bit (t.fld f i) j = true ↔
          bit (s.fld f i) j = true ∧ ¬(covered (f.info.lo + j) ∧ bit v (f.info.lo + j - 8 * b) = true))) ∧
      (∀ f ∈ r.fields, f.info.acc = .rw → 8 * b ≤ f.info.lo → f.info.lo + f.info.width ≤ 8 * (b + n) →
        t.fld f i = bits v (f.info.lo - 8 * b) f.info.width) ∧
      (∀ f ∈ r.fields, f.info.acc ≠ .rw → f.info.acc ≠ .w1c → t.fld f i = s.fld f i) ∧
      (∀ f j, f ∉ r.fields ∨ j ≠ i → t.fld f j = s.fld f j) ∧ MemKept s t) ∧
  (∀ (s : State) (off v : Nat) (r : Reg) (i : Nat), s.perst = false → s.ready = true → bar0Ok off 8 = true →
    s.blockLive off = true → ¬ (0x8000 ≤ off ∧ off < 0x8400) → v < 2 ^ 64 →
    let same (c : Instr) : Prop := exec (.registerWrite off 8 v) s = exec c s
    (regAt off = some (.colCfg, 0, 0) → Completes (.registerWrite off 8 v) s fun t =>
      t.fld .colCfg_stallUs 0 = bits v 32 24 ∧
      t.fld .colCfg_lagThreshold 0 = (if bits v 0 32 = 0 then s.fld .colCfg_lagThreshold 0 else bits v 0 32) ∧
      RegsKept [.colCfg_stallUs, .colCfg_lagThreshold] s t ∧ MemKept s t) ∧
    (regAt off = some (r, i, 0) →
      (r = .budLimit → same (.budLimitWrite v)) ∧ (r = .memQos → same (.memQosWrite v)) ∧
      (r = .fltCfg → same (.fltCfgWrite v)) ∧
      (∀ d : Fin 8, s.absent d = false → r = .crzCfg → i = d.val → same (.crzCfgWrite d v)) ∧
      (∀ (d : Fin 8) (c : Fin 4), s.absent d = false → r = .yrdReg → i = 4 * d.val + c.val →
        same (.yrdRegWrite d c v)) ∧
      (∀ d g : Fin 8, s.absent d = false → r = .gthDbgctl → i = 8 * d.val + g.val → bit v 1 = true →
        same (.haltReq d g v)) ∧
      (∀ n : Fin 256, r = .torXentry → i = n.val → same (.xentryWrite n v)) ∧
      (r = .torEdition → (bit v 6 = true → same (.stageDone v)) ∧ (bit v 7 = true → same (.editionSwitch v)) ∧
        (bit v 8 = true → same (.editionRetire v))) ∧
      (r = .fltStop → bit v 0 = true → same .fltStop) ∧ (r = .fltRecover → bit v 38 = true → same (.recoverGo v)) ∧
      (r = .cfgPortctl → same (.portRestart (bits v 0 12))) ∧
      (r = .secAttest → bit v 48 = true → same (.attestGo (bits v 0 48)))) ∧
    (regAt off = some (.hifMring, 0, 8) → bit v 32 = true → same (.ringEnable .manifest v)) ∧
    (regAt off = some (.hifXring, 0, 8) → bit v 32 = true → same (.ringEnable .transfer v)))

/-- R13, R627, R628: a read of a register answers the bytes it shows; it returns the RC fields it covers whole to their
Reset values and leaves every other field. An access that R627 refuses has no effect but its count, and a read of it is
an Unsupported Request. R59: a 4-byte read of the low half of TIME.NOW answers it and latches the high half. Commands
shown to complete: timeNowLowRead, readToClear, bar0BadAccess. -/
def Obligations.RegisterRead : Prop :=
  (∀ (s : State) (off n : Nat) (r : Reg) (i b : Nat), s.perst = false → bar0Ok off n = true →
    s.blockLive off = true → regAt off = some (r, i, b) → r ≠ .timeNow → r ≠ .secNonce →
    Completes (.readToClear off n) s fun t =>
      t.hif.resp = .data (s.viewBytes off n) ∧
      (∀ f ∈ r.fields, f.info.acc = .rc → 8 * b ≤ f.info.lo → f.info.lo + f.info.width ≤ 8 * (b + n) →
        t.fld f i = f.reset) ∧
      (∀ f j, f ∉ r.fields ∨ f.info.acc ≠ .rc ∨ j ≠ i → t.fld f j = s.fld f j) ∧ MemKept s t) ∧
  (∀ (s : State) (off n : Nat), s.perst = false → bar0Ok off n = false →
    Completes (.bar0BadAccess false off n) s fun t =>
      t.hif.resp = .ur ∧ t.fld .hifCause_badAccess 0 = min 65535 (s.fld .hifCause_badAccess 0 + 1) ∧
        RegsKept [.hifCause_badAccess] s t ∧ MemKept s t) ∧
  (∀ (s : State) (off n : Nat), s.perst = false → bar0Ok off n = false →
    Completes (.bar0BadAccess true off n) s fun t =>
      t.fld .hifCause_badAccess 0 = min 65535 (s.fld .hifCause_badAccess 0 + 1) ∧
        RegsKept [.hifCause_badAccess] s t ∧ MemKept s t) ∧
  (∀ s : State, s.perst = false →
    Completes .timeNowLowRead s fun t =>
      t.hif.resp = .data (s.now % 2 ^ 32) ∧ t.hif.timeLatch = some (s.now / 2 ^ 32 % 2 ^ 32) ∧
        RegsKept [] s t ∧ MemKept s t)

/-- R73, R328, R369: the limit takes multiples of 10 from 1,200 to 2,400 W alone; the QOS weights take sums up to 192; a
regulator takes a rate of 0 or at least 64 and a depth that is a multiple of 64 up to 16,777,152. Anything else leaves
the register. R501, R560, R675: a field of CRZ.CFG or FLT.CFG outside its range keeps its value, and the others are
written; MON.CFG takes what is written. Commands shown to complete: budLimitWrite, memQosWrite, yrdRegWrite,
crzCfgWrite, fltCfgWrite, monCfgWrite. -/
def Obligations.LimitedRegisters : Prop :=
  (∀ (s : State) (v : Nat), s.ready = true →
    Completes (.budLimitWrite v) s fun t =>
      t.fld .budLimit_watts 0 =
        (if 1200 ≤ v % 4096 ∧ v % 4096 ≤ 2400 ∧ v % 4096 % 10 = 0 then v % 4096 else s.fld .budLimit_watts 0) ∧
      RegsKept [.budLimit_watts] s t ∧ MemKept s t) ∧
  (∀ (s : State) (v : Nat), s.ready = true →
    Completes (.memQosWrite v) s fun t =>
      (if bits v 0 8 + bits v 8 8 + bits v 16 8 ≤ 192 then
        t.fld .memQos_minC1 0 = bits v 0 8 ∧ t.fld .memQos_minC2 0 = bits v 8 8 ∧ t.fld .memQos_minC3 0 = bits v 16 8
      else t.rf = s.rf) ∧ RegsKept [.memQos_minC1, .memQos_minC2, .memQos_minC3] s t ∧ MemKept s t) ∧
  (∀ (s : State) (d : Fin 8) (c : Fin 4) (v : Nat), s.ready = true → s.absent d = false →
    let i := 4 * d.val + c.val
    Completes (.yrdRegWrite d c v) s fun t =>
      (if (bits v 0 24 = 0 ∨ 64 ≤ bits v 0 24) ∧ bits v 24 24 % 64 = 0 ∧ 64 ≤ bits v 24 24 ∧ bits v 24 24 ≤ 16777152 then
        t.fld .yrdReg_rate i = bits v 0 24 ∧ t.fld .yrdReg_depth i = bits v 24 24
      else t.rf = s.rf) ∧ RegsKept [.yrdReg_rate, .yrdReg_depth] s t ∧ MemKept s t) ∧
  (∀ (s : State) (d : Fin 8) (v : Nat), s.ready = true → s.absent d = false →
    Completes (.crzCfgWrite d v) s fun t =>
      t.fld .crzCfg_prob d = bits v 0 16 ∧
      t.fld .crzCfg_threshold d =
        (if 1 ≤ bits v 16 6 ∧ bits v 16 6 ≤ 60 then bits v 16 6 else s.fld .crzCfg_threshold d) ∧
      RegsKept [.crzCfg_prob, .crzCfg_threshold] s t ∧ MemKept s t) ∧
  (∀ (s : State) (v : Nat), s.ready = true →
    Completes (.fltCfgWrite v) s fun t =>
      t.fld .fltCfg_observeH 0 = (if 1 ≤ bits v 0 16 then bits v 0 16 else s.fld .fltCfg_observeH 0) ∧
      t.fld .fltCfg_testMin 0 =
        (if 1 ≤ bits v 16 11 ∧ bits v 16 11 ≤ 1440 then bits v 16 11 else s.fld .fltCfg_testMin 0) ∧
      t.fld .fltCfg_suspectLimit 0 = (if 1 ≤ bits v 27 4 then bits v 27 4 else s.fld .fltCfg_suspectLimit 0) ∧
      t.fld .fltCfg_spareLow 0 = (if bits v 31 5 ≤ 16 then bits v 31 5 else s.fld .fltCfg_spareLow 0) ∧
      RegsKept [.fltCfg_observeH, .fltCfg_testMin, .fltCfg_suspectLimit, .fltCfg_spareLow] s t ∧ MemKept s t) ∧
  (∀ (s : State) (c : Fin 48) (v : Nat), s.ready = true →
    Completes (.monCfgWrite c v) s fun t =>
      t.fld .monCfg_source c = bits v 0 4 ∧ t.fld .monCfg_select c = bits v 8 8 ∧ t.fld .monCfg_base c = bits v 16 8 ∧
      t.fld .monCfg_window c = bits v 24 16 ∧
      RegsKept [.monCfg_source, .monCfg_select, .monCfg_base, .monCfg_window] s t ∧ MemKept s t ∧ t.eff = s.eff)

/-- R632: a ring that is enabled numbers its entries from 0 again, and what was taken of it before is dropped (the
model's reading, log 74). R625: a hot reset resets the HIF block and no other register, and the status records held
until then are lost and counted; that it clears Bus Master Enable is taken from PCI Express (log 12). R624: Bus Master
Enable takes the value the host gives it, and once set nothing is held. Commands shown to complete: pcieHotReset,
busMasterEnableChange, ringEnable. -/
def Obligations.HostLink : Prop :=
  (∀ (s : State) (v : Nat), s.ready = true → s.flag .hifMring_enable 0 = false →
    Completes (.ringEnable .manifest v) s fun t =>
      t.flag .hifMring_enable 0 = true ∧ t.fld .hifMring_head 0 = 0 ∧ t.fld .hifMring_slot 0 = 0 ∧
        t.hif.taken = [] ∧ MemKept s t) ∧
  (∀ (s : State) (v : Nat), s.ready = true → s.flag .hifXring_enable 0 = false →
    Completes (.ringEnable .transfer v) s fun t =>
      t.flag .hifXring_enable 0 = true ∧ t.fld .hifXring_head 0 = 0 ∧ t.fld .hifXring_slot 0 = 0 ∧
        t.hif.xfer = none ∧ MemKept s t) ∧
  (∀ (s : State) (k : PcieReset),
    Completes (.pcieHotReset k) s fun t =>
      (∀ f, f.reg ∈ hifRegs → f ≠ .hifCause_lostRecords → t.fld f 0 = f.reset) ∧
        t.fld .hifCause_lostRecords 0 = min (2 ^ Field.hifCause_lostRecords.info.width - 1)
          (s.hif.heldWrites.filter fun w => w.2.length ≥ 128).length ∧
        (∀ f i, f.reg ∉ hifRegs → t.fld f i = s.fld f i) ∧
        t.hif.busMaster = false ∧ MemKept s t) ∧
  (∀ (s : State) (en : Bool),
    Completes (.busMasterEnableChange en) s fun t =>
      t.hif.busMaster = en ∧ (en = true → t.hif.heldWrites = []) ∧ RegsKept [] s t ∧ MemKept s t)

/-- R630, R297: the window reads and writes stacked DRAM and the tier byte for byte, and stores nothing outside the
range; elsewhere a read answers 0 and an access is counted. In RETIRED a write is not served (R592, log 187). Commands
shown to complete: bar2Read, bar2Write. -/
def Obligations.Window : Prop :=
  (∀ (s : State) (off n : Nat), s.perst = false → s.dram (s.windowAddr off) n = true →
    s.poisoned (s.windowAddr off) n = false →
    Completes (.bar2Read off n) s fun t =>
      t.hif.resp = .data (s.rd (s.windowAddr off) n) ∧ RegsKept correctedFields s t ∧ MemKept s t) ∧
  (∀ (s : State) (off n : Nat), s.perst = false → s.dram (s.windowAddr off) n = false →
    Completes (.bar2Read off n) s fun t =>
      t.hif.resp = .data 0 ∧ t.fld .hifCause_badAccess 0 = min 65535 (s.fld .hifCause_badAccess 0 + 1) ∧
        RegsKept [.hifCause_badAccess] s t ∧ MemKept s t) ∧
  (∀ (s : State) (off : Nat) (data : List Nat), s.fuses.state = 4 → exec (.bar2Write off data) s = .next s) ∧
  (∀ (s : State) (off : Nat) (data : List Nat), s.perst = false → s.fuses.state ≠ 4 → data ≠ [] → (∀ x ∈ data, x < 256) →
    s.dram (s.windowAddr off) data.length = true → s.poisoned (s.windowAddr off) data.length = false →
    Completes (.bar2Write off data) s fun t =>
      t.rdL (s.windowAddr off) data.length = data ∧ MemKeptOutside (s.windowAddr off) data.length s t ∧
        RegsKept correctedFields s t) ∧
  (∀ (s : State) (off : Nat) (data : List Nat), s.perst = false → s.fuses.state ≠ 4 → data ≠ [] →
    s.dram (s.windowAddr off) data.length = false →
    Completes (.bar2Write off data) s fun t =>
      t.fld .hifCause_badAccess 0 = min 65535 (s.fld .hifCause_badAccess 0 + 1) ∧
        RegsKept [.hifCause_badAccess] s t ∧ MemKept s t)

/-- R642 to R645: a valid transfer moves its bytes: KIND 1 from host memory to the device, KIND 2 back, KIND 3 from the
copy of a state tensor that was current when the entry was taken, and TORN where the copy has changed since. The end
writes the result, advances HEAD and signals vector 4. Commands shown to complete: toDevice, toHost, toHostCommitted,
transferComplete. -/
def Obligations.Transfers : Prop :=
  (∀ (s : State) (x : Xfer), s.hif.xfer = some x → x.result = none → s.hif.busMaster = true →
    s.xferErr x.entry = .ok →
    (xeKind x.entry = 1 → Completes .toDevice s fun t =>
      t.rdL (xeDevice x.entry) (xeLength x.entry) = leBytes (xeLength x.entry) (s.hrd (xeHost x.entry) (xeLength x.entry)) ∧
      t.hif.xfer = some { x with result := some (1, 0) } ∧
      MemKeptOutside (xeDevice x.entry) (xeLength x.entry) s t ∧ RegsKept [] s t) ∧
    (xeKind x.entry = 2 → s.poisoned (xeDevice x.entry) (xeLength x.entry) = false →
      Completes .toHost s fun t =>
        t.hrd (xeHost x.entry) (xeLength x.entry) = s.rd (xeDevice x.entry) (xeLength x.entry) ∧
        t.hif.xfer = some { x with result := some (1, 0) } ∧ RegsKept correctedFields s t ∧ MemKept s t) ∧
    (xeKind x.entry = 3 → x.torn = false → s.poisoned (s.xferAddr x) (xeLength x.entry) = false →
      Completes .toHostCommitted s fun t =>
        t.hrd (xeHost x.entry) (xeLength x.entry) = s.rd (s.xferAddr x) (xeLength x.entry) ∧
        t.hif.xfer = some { x with result := some (1, 0) } ∧ RegsKept correctedFields s t ∧ MemKept s t) ∧
    (xeKind x.entry = 3 → x.torn = true →
      Completes .toHostCommitted s fun t =>
        t.hif.xfer = some { x with result := some (3, 0) } ∧ RegsKept [] s t ∧ MemKept s t)) ∧
  (∀ (s : State) (x : Xfer) (r e : Nat), s.hif.xfer = some x → x.result = some (r, e) → xeCount x.entry = 0 →
    s.hif.busMaster = true →
    Completes .transferComplete s fun t =>
      t.hif.xfer = none ∧ t.fld .hifXring_head 0 = (s.fld .hifXring_head 0 + 1) % 2 ^ 16 ∧
      t.hrd (x.slotAddr + 56) 8 = (r + e * 2 ^ 16) % 2 ^ 64 ∧ bit (t.fld .hifCause_cause 0) 4 = true ∧ MemKept s t)

/-! ## Security -/

/-- R586, R588, R589: a life-cycle command that passes every check burns both cells of its fuse (R577), which then read
blown, and resets the device as a release of PERST_N does. No fuse is burned while a rail is out of range (R702): that
such a command, raiseSvn and raiseKeygen among them, then waits and changes nothing is the model's choice (log 185).
Commands shown to complete: provision, toField, toService, retire. -/
def Obligations.LifeCycle : Prop :=
  (∀ (s : State) (a e : Nat) (o : Signed), CommandReady s 1 a e o → s.railsOk = true →
    Completes .provision s fun t =>
      t.fuses = s.fuses.burn (fun c => { c with lcProv := true, rootHash := c.rootHash ||| keyHash o.key }) ∧
        t.fuses.lcProv = true ∧ t.fuses.rootHash = s.fuses.rootHash ||| keyHash o.key ∧
        t.now = 0 ∧ t.perst = false ∧ (∀ f i, t.fld f i = f.reset)) ∧
  (∀ (s : State) (a e : Nat) (o : Signed), CommandReady s 2 a e o → s.railsOk = true →
    Completes .toField s fun t =>
      t.fuses = s.fuses.burn (fun c => { c with lcCount := max c.lcCount (s.fuses.lcCount + 1) }) ∧
        t.fuses.lcCount = s.fuses.lcCount + 1 ∧ t.now = 0 ∧ (∀ f i, t.fld f i = f.reset)) ∧
  (∀ (s : State) (a e : Nat) (o : Signed), CommandReady s 3 a e o → s.railsOk = true →
    Completes .toService s fun t =>
      t.fuses = s.fuses.burn (fun c => { c with lcCount := max c.lcCount (s.fuses.lcCount + 1) }) ∧
        t.fuses.lcCount = s.fuses.lcCount + 1 ∧ t.now = 0 ∧ (∀ f i, t.fld f i = f.reset)) ∧
  (∀ (s : State) (a e : Nat) (o : Signed), CommandReady s 4 a e o → s.railsOk = true →
    Completes .retire s fun t =>
      t.fuses = s.fuses.burn (fun c => { c with lcRetired := true }) ∧ t.fuses.lcRetired = true ∧
        t.now = 0 ∧ (∀ f i, t.fld f i = f.reset)) ∧
  (∀ (s : State) (a e k : Nat) (c : Instr) (rest : List (Nat × Nat)), s.hif.taken = (a, e) :: rest →
    s.frontCode e = some k → s.railsOk = false →
    (c, k) ∈ [(.provision, 1), (.toField, 2), (.toService, 3), (.retire, 4), (.raiseSvn, 8), (.raiseKeygen, 9)] →
    exec c s = .next s)

/-- R586, R667, R279: the signed commands that do not reset the device. Each consumes the challenge (R587). That a clear
is pending until its erases are done, and ends at once with NVM_FAIL, is the model's reading (log 32), and so is how the
list of RUN_MAINT is judged and numbered (log 120). Commands shown to complete: runMaint, clearEvents, clearFailed,
raiseSvn, raiseKeygen. -/
def Obligations.SignedCommands : Prop :=
  (∀ (s : State) (a e : Nat) (o : Signed), CommandReady s 6 a e o →
    Completes .clearEvents s fun t =>
      t.nonce = none ∧ (∀ f, f.reg = .evtLost → t.fld f 0 = 0) ∧
      (s.flag .startStatus_nvmFail 0 = false → t.clearing = true ∧ t.recorder.ring = [] ∧
        t.nvm.erases = (List.range 16).map fun k => 0x2C00000 + 65536 * k) ∧
      (s.flag .startStatus_nvmFail 0 = true → t.clearing = false ∧ t.nvm.erases = [] ∧
        ∀ p ∈ t.recorder.ring, p.2.rep.code = Err.code .eventsCleared)) ∧
  (∀ (s : State) (a e : Nat) (o : Signed), CommandReady s 7 a e o →
    Completes .clearFailed s fun t =>
      t.nonce = none ∧ ∀ d, d < 8 → (s.die d).failed = true → s.fused d = false →
        ∃ r ∈ t.nvm.histQ, r.unit = 9 ∧ r.kind = 4 ∧ r.die = d) ∧
  (∀ (s : State) (a e : Nat) (o : Signed), CommandReady s 8 a e o → s.railsOk = true →
    Completes .raiseSvn s fun t => t.nonce = none ∧ t.fuses = s.fuses.raiseSvn (s.rd (meAddr e) 1) ∧
      t.fuses.svnMin = s.rd (meAddr e) 1) ∧
  (∀ (s : State) (a e : Nat) (o : Signed), CommandReady s 9 a e o → s.railsOk = true →
    Completes .raiseKeygen s fun t => t.nonce = none ∧ t.fuses = s.fuses.raiseKeygen (s.rd (meAddr e) 1) ∧
      t.fuses.keyGen = s.rd (meAddr e) 1) ∧
  (∀ (s : State) (a e : Nat) (o : Signed), CommandReady s 5 a e o →
    (s.checkList none [] (fun i => s.listRecord (meAddr e) i) {}).fails = [] →
    Completes .runMaint s fun t =>
      t.nonce = none ∧
        t.job.maintRuns = mkRuns (s.checkList none [] (fun i => s.listRecord (meAddr e) i) {}).lists 0)

/-- R587, R594: a read of SEC.NONCE leaves one fresh challenge outstanding, and two reads draw two of them; GO with an
ADDR of the right form makes SEC.ATTEST busy, and its end writes the report at ADDR, nothing outside the 16,480 bytes of
report and signature, and sets DONE. Commands shown to complete: nonceRead, attestGo, attestComplete. -/
def Obligations.Attestation : Prop :=
  (∀ s : State, Completes .nonceRead s fun t =>
      t.nonce = some (Config.random s.fresh % 2 ^ 128) ∧ t.fresh = s.fresh + 1 ∧
        t.hif.resp = .data (Config.random s.fresh % 2 ^ 128) ∧ RegsKept [] s t ∧ MemKept s t) ∧
  (∀ (s : State) (a : Nat), s.ready = true → s.flag .secAttest_busy 0 = false → s.provisioned = true →
    a < 2 ^ 48 → a % 64 = 0 → s.dram a 16480 = true →
    Completes (.attestGo a) s fun t =>
      t.flag .secAttest_busy 0 = true ∧ t.flag .secAttest_done 0 = false ∧
      t.attest = some (a, s.fld .secChallenge_challenge 0) ∧
        RegsKept [.secAttest_addr, .secAttest_busy, .secAttest_done] s t ∧ MemKept s t) ∧
  (∀ (s : State) (a c : Nat), s.attest = some (a, c) →
    Completes .attestComplete s fun t =>
      t.flag .secAttest_busy 0 = false ∧ t.flag .secAttest_done 0 = true ∧ t.attest = none ∧
      t.rd a 256 = s.attestReport c % 2 ^ 2048 ∧ MemKeptOutside a 16480 s t)

/-! ## Jobs -/

/-- R394, R457, R461, R570, R634, R637: a manifest that passes every check is accepted, or held where it is a standby's,
and RESULT 1 goes to its ring entry; an accepted one starts at the next boundary with the step, the copy and the mirrors
it gives, on a device that is not degraded and has not left its job; a stop ends the main job and its collectives, and
commits no step (R268, R290). Commands shown to complete: fltStop, manifest, jobStart. -/
def Obligations.JobsRun : Prop :=
  (∀ (s : State) (a e : Nat) (rest : List (Nat × Nat)), s.hif.taken = (a, e) :: rest → meKind e = 1 →
    meLength e = 128 → s.tableOk (meAddr e) 128 = true → s.firstPoison (meAddr e) 128 = none →
    let h := s.rd (meAddr e) 64
    let r := s.rd (meAddr e + 64) 64
    s.manifestErr e h r = .ok → s.manifestPoison (meAddr e) h = none → (s.checkLists h (s.ctxEntries h)).fails = [] →
    let m := mkManifest h r (s.ctxEntries h) (meSeq e)
    Completes .manifest s fun t =>
      (mfStandby h = 0 → t.job.accepted = some m ∧ t.job.standby = none) ∧
      (mfStandby h = 1 → t.job.accepted = none ∧ t.job.standby = some m ∧ t.fld .fltRecover_status 0 = 3) ∧
      t.job.lists = (s.checkLists h (s.ctxEntries h)).lists ∧ t.jobRuns = false ∧
      (s.hif.busMaster = true → t.hrd (a + 56) 8 % 2 ^ 16 = 1) ∧
      t.fld .hifMring_head 0 = (s.fld .hifMring_head 0 + 1) % 2 ^ 16 ∧ MemKept s t) ∧
  (∀ (s : State) (m : Manifest), s.job.accepted = some m → s.idleOver = true → s.outOfService = false →
    Completes .jobStart s fun t =>
      t.job.active = some m ∧ t.job.accepted = none ∧ t.job.pos = 1 ∧
      t.fld .updStep_step 0 = m.step % 2 ^ 32 ∧ t.fld .updStep_cur 0 = m.cur % 2 ∧
      t.fld .perCfg_nominalUs 0 = m.nominal % 2 ^ Field.perCfg_nominalUs.info.width ∧
      (∀ d, d < 8 → t.fld .tokCommit_closed d = 0 ∧ t.fld .tokCommit_committed d = 0) ∧
      t.fld .perStatus_arrears 0 = 0 ∧ t.fld .perCount_period 0 = 0 ∧ MemKept s t) ∧
  (∀ (s : State) (m : Manifest), s.job.active = some m →
    Completes .fltStop s fun t =>
      t.job.active = none ∧ t.job.stopped = some m ∧ t.flag .fltStop_stopped 0 = true ∧
        t.fld .fltStop_cause 0 = causeHost ∧ t.fld .updStep_step 0 = s.fld .updStep_step 0 ∧
        t.fld .updStep_cur 0 = s.fld .updStep_cur 0 ∧ ∀ p ∈ t.colls, p.2.cmd.maint = true)

/-- R572, R576, R571: a write with GO of FLT.RECOVER cuts the named coordinates from the D axis and goes on from the
committed copy at the next schedule position (R461); a device that is itself cut holds its manifest as a standby's; one
that takes over sets LOGICAL to the cut block's D coordinate and runs, with a step, a copy and a position that the spec
does not give (free, log 71), or without a member to restore from raises STATE_LOST and stays restoring (the model's
choice of log 226; that a held standby manifest lets GO act is its reading, log 65). The first lost granule outside the
committed state needs no restore; one inside it has its row restored, a row being an aligned 2 KiB (the model's reading,
log 36), or is reported as lost. Commands shown to complete: recoverGo, stateRestoreInPlace. -/
def Obligations.Recovery : Prop :=
  (∀ (s : State) (m : Manifest) (v : Nat), s.ready = true → s.job.accepted = none → s.jobRuns = false →
    s.job.stopped = some m → s.flag .fltStop_stopped 0 = true → s.outOfService = false →
    s.job.lastEdition ≠ some (s.fld .torEdition_current 0) → bit v 37 = false → m.standby = false →
    bit v (s.ownOn 4) = false →
    Completes (.recoverGo v) s fun t =>
      t.fld .colFence_mask 4 = bits v 0 32 ∧ t.job.active = some m ∧ t.job.pos = s.job.pos + 1 ∧
        t.fld .fltRecover_status 0 = 2) ∧
  (∀ (s : State) (m : Manifest) (v : Nat), s.ready = true → s.job.accepted = none → s.jobRuns = false →
    s.job.stopped = some m → s.flag .fltStop_stopped 0 = true → s.outOfService = false →
    s.job.lastEdition ≠ some (s.fld .torEdition_current 0) → bit v 37 = false → bit v (s.ownOn 4) = true →
    Completes (.recoverGo v) s fun t =>
      t.job.standby = some { m with standby := true } ∧ t.job.stopped = none ∧ t.fld .fltRecover_status 0 = 3) ∧
  (∀ (s : State) (m : Manifest) (v : Nat), s.ready = true → s.job.accepted = none → s.jobRuns = false →
    (s.job.stopped = some m ∧ s.flag .fltStop_stopped 0 = true ∨ s.job.stopped = none ∧ s.job.standby = some m) →
    s.outOfService = false → s.job.lastEdition ≠ some (s.fld .torEdition_current 0) → bit v 37 = true →
    let others := (List.range (s.extent 4)).filter fun c => c != s.ownOn 4 && !bit (bits v 0 32) c
    Completes (.recoverGo v) s fun t =>
      t.fld .colFence_mask 4 = bits v 0 32 ∧
      (others ≠ [] → t.fld .fltRecover_status 0 = 2 ∧ t.job.active =
        some { m with logical := setCoordOn m.logical 4 (bits v 32 5), standby := false }) ∧
      (others = [] → t.fld .fltRecover_status 0 = 1 ∧ t.jobRuns = false ∧ MemKept s t ∧
        (s.recorder.queue.length < 1024 → ∃ r, t.recorder.queue = s.recorder.queue ++ [r] ∧
          r.code = Err.stateLost.code))) ∧
  (∀ (s : State) (g : Nat) (rest : List Nat), s.jobRuns = false → s.tripped = false → s.job.lost = g :: rest →
    (∀ r ∈ s.committedRanges, 64 * g + 64 ≤ r.1 ∨ r.1 + r.2 ≤ 64 * g) →
    exec .stateRestoreInPlace s = .next { s with job := { s.job with lost := rest } }) ∧
  (∀ (s : State) (g : Nat) (rest : List Nat), s.jobRuns = false → s.tripped = false → s.job.lost = g :: rest →
    (∃ r ∈ s.committedRanges, r.1 ≤ 64 * g + 63 ∧ 64 * g < r.1 + r.2) → s.dPeers ≠ [] →
    Completes .stateRestoreInPlace s fun t =>
      t.job.lost = rest ∧ g ∉ t.poison ∧ MemKeptOutside (64 * (g / 32 * 32)) 2048 s t) ∧
  (∀ (s : State) (g : Nat) (rest : List Nat), s.jobRuns = false → s.tripped = false → s.job.lost = g :: rest →
    (∃ r ∈ s.committedRanges, r.1 ≤ 64 * g + 63 ∧ 64 * g < r.1 + r.2) → s.dPeers = [] →
    Completes .stateRestoreInPlace s fun t =>
      t.job.lost = rest ∧ MemKept s t ∧ (s.recorder.queue.length < 1024 →
        ∃ r, t.recorder.queue = s.recorder.queue ++ [r] ∧ r.code = Err.stateLost.code ∧ r.arg2 = 64 * g))

/-! ## Gatherings: control and scalars -/

/-- R202 to R204, R222, R227: NOP goes on; LOOP opens a loop, or with a count of 0 goes past its body; WAITB spends its
beats, at least one; END has issued. Each reads the state after the landings of its beat. Commands shown to complete:
nop, end_, loop, waitb. -/
def Obligations.ControlInstructions : Prop :=
  ∀ (s : State) (d g : Fin 8) (c : QCmd) (w : Nat),
    let t := (s.gath d g).beat
    let k := ((s.landTo d g t).gath d g).core
    (Issuing s d g 0x00 c w → Completes (.nop d g) s (IssuedAlone s d g t { core := k, next := k.ip + 1 })) ∧
    (Issuing s d g 0x01 c w → Completes (.end_ d g) s fun u =>
      IssuedAlone s d g t { core := k, next := k.ip + 1 } u ∧ (u.gath d g).ended = true) ∧
    (Issuing s d g 0x02 c w → Tab.get 0 k.ct (ct1Ctl w) = 0 →
      Completes (.loop d g) s (IssuedAlone s d g t { core := k, next := k.ip + 1 + ct1Body w })) ∧
    (Issuing s d g 0x02 c w → Tab.get 0 k.ct (ct1Ctl w) ≠ 0 →
      Completes (.loop d g) s (IssuedAlone s d g t
        { core := { k with loops := ⟨k.ip + 1, ct1Body w, Tab.get 0 k.ct (ct1Ctl w), 0⟩ :: k.loops }
          next := k.ip + 1 })) ∧
    (Issuing s d g 0x03 c w →
      Completes (.waitb d g) s (IssuedAlone s d g t { core := k, next := k.ip + 1, span := max 1 (ct1Beats w) }))

/-- R223, R224: SMOVI writes its immediate 1 beat after its issue; SALU its result 2 beats after, or 4 for a product;
CTSET and AGSET their value 2 beats after, where it is in range. Commands shown to complete: smovi, salu, ctset, agset.
-/
def Obligations.ScalarInstructions : Prop :=
  ∀ (s : State) (d g : Fin 8) (c : QCmd) (w : Nat),
    let t := (s.gath d g).beat
    let k := ((s.landTo d g t).gath d g).core
    let b := if scImm w = 1 then scImm64 w else Tab.get 0 k.s (scSb w)
    let v := (k.setValue w).1
    (Issuing s d g 0x08 c w → Completes (.smovi d g) s (IssuedAlone s d g t
      { core := k, next := k.ip + 1, writes := [(1, .scalar (scSd w) (scImm64 w), false)] })) ∧
    (Issuing s d g 0x09 c w → Completes (.salu d g) s (IssuedAlone s d g t
      { core := k
        next := k.ip + 1
        writes := [(if scFunc w = 2 then 4 else 2,
          .scalar (scSd w) (salu (scFunc w) (Tab.get 0 k.s (scSa w)) b), false)] })) ∧
    (Issuing s d g 0x0C c w → 0 ≤ v → v ≤ 16777215 → Completes (.ctset d g) s (IssuedAlone s d g t
      { core := k, next := k.ip + 1, writes := [(2, .count (scCtd w) v.toNat, false)] })) ∧
    (Issuing s d g 0x0D c w → (if scAgf w = 0 then -2 ^ 47 ≤ v ∧ v < 2 ^ 47 else -2 ^ 31 ≤ v ∧ v < 2 ^ 31) →
      Completes (.agset d g) s (IssuedAlone s d g t
        { core := k, next := k.ip + 1, writes := [(2, .gen (5 * scAgd w + scAgf w) v, false)] }))

/-- R225: SLD reads 8 bytes of its gathering's own scratch into a scalar 12 beats after its issue; SST puts 8 bytes of a
scalar there 8 beats after. R242: on a word that does not lie in their tensor in their gathering's own scratch both
stop: the sequencer shows STOP and no program is left in it. Commands shown to complete: sld, sst. -/
def Obligations.ScalarMemory : Prop :=
  ∀ (s : State) (d g : Fin 8) (c : QCmd) (w : Nat),
    let t := (s.gath d g).beat
    let y := s.landTo d g t
    let k := (y.gath d g).core
    let p := y.word8 d g ((y.gath d g).desc (scH w)) (k.offset (scAgs w))
    let stopped (u : State) : Prop :=
      u.fld .gthSeqstat_stop (gi d g) = 1 ∧ (u.gath d g).cmd = none ∧ u.flag .gthSeqstat_running (gi d g) = false
    (Issuing s d g 0x0A c w → p.1 = [] → y.poisoned (64 * (p.2 / 64)) 64 = false →
      Completes (.sld d g) s (IssuedAlone s d g t
        { core := k, next := k.ip + 1, writes := [(12, .scalar (scSd w) (y.rd p.2 8), false)] })) ∧
    (Issuing s d g 0x0B c w → p.1 = [] → Completes (.sst d g) s (IssuedAlone s d g t
      { core := k
        next := k.ip + 1
        writes := [(8, .mem ((List.range 8).map fun i =>
          (p.2 + i, 255 * 256 + Tab.get 0 k.s (scSd w) / 256 ^ i % 256)), false)] })) ∧
    (Issuing s d g 0x0A c w → 1 ∈ p.1 → Completes (.sld d g) s stopped) ∧
    (Issuing s d g 0x0B c w → 1 ∈ p.1 → Completes (.sst d g) s stopped)

/-- R142, R143, R156, R221, R227: MODE puts its configuration, bucking length and flush mode in force, where it sets
them; a change of configuration or shape takes 8 beats after the drain that remains, and a change of configuration
empties the accumulator file. That a change of SHAPE alone keeps the accumulators is the model's reading (log 148).
Commands shown to complete: mode. -/
def Obligations.ModeInstruction : Prop :=
  ∀ (s : State) (d g : Fin 8) (c : QCmd) (w : Nat), Issuing s d g 0x04 c w →
    let t := (s.gath d g).beat
    let y := (s.landTo d g t).gath d g
    let k := y.core
    let ch := ct1Setcfg w = 1 ∧ (ct1Config w ≠ k.config ∨ (ct1Config w = 0 ∧ ct1Shape w ≠ k.shape))
    Completes (.mode d g) s fun u =>
      let x := u.gath d g
      x.core.config = (if ct1Setcfg w = 1 then ct1Config w else k.config) ∧
      x.core.shape = (if ct1Setcfg w = 1 ∧ ct1Config w = 0 then ct1Shape w else k.shape) ∧
      x.core.ftz = (if ct1Setftz w = 1 then ct1Ftz w == 1 else k.ftz) ∧
      (ct1Setbuck w = 1 → x.core.buck = if 16 ≤ ct1Buck w ∧ ct1Buck w ≤ 1024 ∧ ct1Buck w % 16 = 0 then ct1Buck w else 64) ∧
      (ch → x.beat = t + (8 + (y.drainEnd - t))) ∧ (¬ ch → x.beat = t + 1) ∧
      x.core.acc = (if ct1Setcfg w = 1 ∧ ct1Config w ≠ k.config then [] else k.acc) ∧
      x.core.s = k.s ∧ x.core.v = k.v ∧ u.flag .gthNumstat_ftz (gi d g) = x.core.ftz ∧
      u.fld .gthCfg_config (gi d g) = x.core.config % 4 ∧ MemKept (s.landTo d g t) u

/-- R222, R230 to R234, R554: a TOKW whose count is 0, or whose wait was granted, issues, and its wait is over; one that
a replay brings again issues too and takes no token twice (the model's reading, log 128); a TOKS joins those that wait
for the instructions before them, unless its count is 0; the oldest of these is signalled once they have completed.
Commands shown to complete: tokw, toks, toksSignal. -/
def Obligations.TokenInstructions : Prop :=
  (∀ (s : State) (d g : Fin 8) (c : QCmd) (w : Nat), Issuing s d g 0x10 c w →
    (ct1Count w = 0 ∨ (s.gath d g).tokGranted = true ∨ (s.gath d g).order < (s.gath d g).replayTo) →
    s.descPoison d g = none →
    let t := (s.gath d g).beat
    let k := ((s.landTo d g t).gath d g).core
    Completes (.tokw d g) s fun u =>
      (u.gath d g).core = k.goto (k.ip + 1) ∧ (u.gath d g).beat = t + 1 ∧ (u.gath d g).tokGranted = false ∧
        u.flag .gthSeqstat_waiting (gi d g) = false ∧ MemKept (s.landTo d g t) u) ∧
  (∀ (s : State) (d g : Fin 8) (c : QCmd) (w : Nat), Issuing s d g 0x11 c w →
    let t := (s.gath d g).beat
    let y := (s.landTo d g t).gath d g
    let k := y.core
    Completes (.toks d g) s fun u =>
      (u.gath d g).core = k.goto (k.ip + 1) ∧ (u.gath d g).beat = t + 1 ∧
      (u.gath d g).toks = (if ct1Count24 w = 0 then y.toks
        else y.toks ++ [⟨ct1Die w % 8, ct1Token w, ct1Count24 w, y.order + 1, t⟩]) ∧ MemKept (s.landTo d g t) u) ∧
  (∀ (s : State) (d g : Fin 8) (c : QCmd) (x : PendTok) (r : List PendTok), (s.gath d g).cmd = some c →
    (s.gath d g).toks = x :: r → (∀ p ∈ (s.gath d g).pend, x.order ≤ p.order) → (s.gath d g).dropDue = false →
    Completes (.toksSignal d g) s fun u =>
      (u.gath d g).toks = r ∧ MemKept s u ∧
      (c.maint = false → s.token x.die x.token + x.count ≤ 1048575 →
        u.token x.die x.token = s.token x.die x.token + x.count))

/-! ## Gatherings: matrix, vector, transpose, reduction -/

/-- R208, R212, R215, R217, R218, R227 to R229: an MMA, a VOP, a VLD, a VST, an XMOV and a RED that meet no stop of R242
and read no line in error, nor find one that a partial write has met, issue at their beat: their writes pend for the
latency of each, the next instruction may issue after their span, and nothing else of the device changes but the flags
and the hazard record. Commands shown to complete: mma, vop, vld, vst, xmov, red. -/
def Obligations.UnitInstructions : Prop :=
  ∀ (s : State) (d g : Fin 8) (c : QCmd) (w : Nat),
    let b := (s.gath d g).beat
    let at_ (t : Nat) := s.landTo d g t
    let clean (t : Nat) (p : Plan) : Prop := p.stops = [] ∧ CleanReads (at_ t) p ∧ LandsWhole s d g t
    (Issuing s d g 0x20 c w → clean b (planMma d g w (at_ b) b) →
      Completes (.mma d g none) s (IssuedAlone s d g b (planMma d g w (at_ b) b))) ∧
    (Issuing s d g 0x30 c w →
      let t := max b (Tab.get 0 (s.gath d g).opFree (vopOp w))
      clean t (planVop d g w (at_ t) t) →
      Completes (.vop d g) s fun u =>
        IssuedAlone s d g t (planVop d g w (at_ t) t) u ∧
          Tab.get 0 (u.gath d g).opFree (vopOp w) = t + vopInterval (vopOp w) (vopWide w)) ∧
    (Issuing s d g 0x31 c w → clean b (planVld d g w (at_ b) b) →
      Completes (.vld d g none) s (IssuedAlone s d g b (planVld d g w (at_ b) b))) ∧
    (Issuing s d g 0x32 c w → clean b (planVst d g w (at_ b) b) →
      Completes (.vst d g) s (IssuedAlone s d g b (planVst d g w (at_ b) b))) ∧
    (Issuing s d g 0x40 c w → clean b (planXmov d g w (at_ b) b) →
      Completes (.xmov d g) s (IssuedAlone s d g b (planXmov d g w (at_ b) b))) ∧
    (Issuing s d g 0x48 c w →
      let t := max b (Tab.get 0 (s.gath d g).opFree 64)
      clean t (planRed d g w (at_ t) t) →
      Completes (.red d g) s fun u =>
        IssuedAlone s d g t (planRed d g w (at_ t) t) u ∧ Tab.get 0 (u.gath d g).opFree 64 = t + 4)

/-- R223, R224: the SALU functions on 64-bit registers: arithmetic modulo 2^64, bitwise operations, shifts by the low 6
bits (the arithmetic one keeps the sign), and signed minimum and maximum. R137, R138, R183, R214, R215: what a VLD of
LANE 0 from an unscaled FP32 tensor will put in a lane without flushing is the element's bits, but +0 for −0 and the
quiet NaN of R94 for a NaN, and it sets no flag; R213: what an integer VOP ADD will put in a lane is the sum of its
operands' lanes modulo 2^32. -/
def Obligations.ComputedValues : Prop :=
  (∀ a b : BitVec 64,
    let f (n : Nat) : BitVec 64 := BitVec.ofNat 64 (salu n a.toNat b.toNat)
    let sh := b.toNat % 64
    f 0 = a + b ∧ f 1 = a - b ∧ f 2 = a * b ∧ f 3 = a &&& b ∧ f 4 = a ||| b ∧ f 5 = a ^^^ b ∧ f 6 = a <<< sh ∧
    f 7 = a >>> sh ∧ f 8 = a.sshiftRight sh ∧ f 9 = (if a.sle b then a else b) ∧
    f 10 = (if b.sle a then a else b)) ∧
  (∀ (s : State) (r idx : Nat), tdBlocked r = 0 → tdScaleMode r = 0 → opFm r = .fp32 →
    let p := s.opPat r idx
    s.loadLane 0 r idx false =
      (if 0x7F800000 < p % 2 ^ 31 then Fm.qnan .fp32 else if p = 2 ^ 31 then 0 else p, 0)) ∧
  (∀ (w : Nat) (ftz : Bool) (dr : Draw) (i a b c : Nat), vopOp w = 0 → vopType w = 2 →
    (vopLane w ftz dr i a b c).1 % 2 ^ 32 = (a + b) % 2 ^ 32)

/-! ## Programs -/

/-- R192, R195, R197, R251: a RUN at the head of its queue starts its program when the sequencer is free: the words are
those in memory, scalars, counts and generators are 0, and the first instruction is at address 0. While a program runs
the next one loads. A program whose END has issued, and whose partial writes met no line in error, completes and leaves
the sequencer free (R232). Commands shown to complete: run, programLoad, programComplete. -/
def Obligations.Programs : Prop :=
  (∀ (s : State) (d g : Fin 8) (c : QCmd), (s.gath d g).cmd = none → (s.gath d g).nextProg = none →
    s.startable d g 1 = some c → s.loadPoison c.word (s.progWords c.word) = none →
    s.progErr c.maint (s.progWords c.word) = none →
    Completes (.run d g .good) s fun u =>
      (u.gath d g).cmd = some c ∧ (u.gath d g).prog = s.progWords c.word ∧ (u.gath d g).core.ip = 0 ∧
      (u.gath d g).core.s = [] ∧ (u.gath d g).core.ct = [] ∧ (u.gath d g).core.ag = [] ∧ (u.gath d g).beat = 0 ∧
      u.flag .gthSeqstat_running (gi d g) = true ∧ MemKept s u) ∧
  (∀ (s : State) (d g : Fin 8) (c0 c : QCmd) (q : List QCmd), (s.gath d g).cmd = some c0 → s.queue d g = c :: q →
    cmKind c.word = 1 → (s.gath d g).prog.length + cbLength c.word ≤ 4096 →
    s.loadPoison c.word (s.progWords c.word) = none → s.progErr c.maint (s.progWords c.word) = none →
    Completes (.programLoad d g) s fun u =>
      (u.gath d g).nextProg = some (c, s.progWords c.word) ∧ (u.gath d g).core = (s.gath d g).core ∧
        RegsKept correctedFields s u ∧ MemKept s u) ∧
  (∀ (s : State) (d g : Fin 8) (c : QCmd), (s.gath d g).cmd = some c → (s.gath d g).ended = true →
    ((s.landAll d g).gath d g).badWrite = none →
    Completes (.programComplete d g) s fun u =>
      (u.gath d g).cmd = none ∧ (u.gath d g).prog = [] ∧ u.flag .gthSeqstat_running (gi d g) = false)

/-- R230, R235 to R237: the first pending write of its kind lands when its beat has come: it leaves the pending ones and
what it writes is there, a scalar, a count, a generator, the valid lanes of a vector, or bytes of memory under their
masks. R297: the bytes of a granule in error that it writes only a part of stay as they are. Commands shown to complete:
writeLand, drainComplete. -/
def Obligations.Landings : Prop :=
  ∀ (s : State) (d g : Fin 8) (p : Pend), (s.gath d g).firstPend = some p →
    (p.beat ≤ (s.gath d g).beat ∨ s.resting d g = true) →
    let stored (u : State) : Prop := ∀ cells, p.wr = .mem cells → (∀ c ∈ cells, c.2 < 65536) →
      Written (cells.filter fun c => !(s.blockedBy cells).contains (c.1 / 64)) s u
    (p.drain = false → Completes (.writeLand d g) s fun u =>
      (u.gath d g).pend = (s.gath d g).pend.erase p ∧ RegsKept [] s u ∧
      (∀ i v, p.wr = .scalar i v → Tab.get 0 (u.gath d g).core.s i = v ∧ MemKept s u) ∧
      (∀ i v, p.wr = .count i v → Tab.get 0 (u.gath d g).core.ct i = v ∧ MemKept s u) ∧
      (∀ i v, p.wr = .gen i v → Tab.get 0 (u.gath d g).core.ag i = v ∧ MemKept s u) ∧
      (∀ i r, p.wr = .vector i r → MemKept s u ∧
        Tab.get {} (u.gath d g).core.v i = (Tab.get {} (s.gath d g).core.v i).land r) ∧ stored u ∧
      (∀ cells, p.wr = .mem cells → ∀ g ∈ s.blockedBy cells, ∀ a, a / 64 = g → u.rdB a = s.rdB a) ∧
      (∀ a x, p.wr = .mem [(a, 255 * 256 + x)] → s.blockedBy [(a, 255 * 256 + x)] = [] → x < 256 →
        u.rdB a = x ∧ MemKeptOutside a 1 s u)) ∧
    (p.drain = true → Completes (.drainComplete d g) s fun u =>
      (u.gath d g).pend = (s.gath d g).pend.erase p ∧ RegsKept [] s u ∧ stored u ∧
      (∀ cells, p.wr = .mem cells → ∀ a, (∀ q ∈ cells, q.1 ≠ a) → u.rdB a = s.rdB a))

/-- R245 to R249: a write of GTH.DBGCTL sets ENABLE and the breakpoint; HALT_REQ asks a running program in debug mode to
halt, RESUME and STEP let a halted one go on, STEP for one instruction (with RESUME in the same write, RESUME acts: the
model's choice of log 243), CLEAR_LOG empties the stall log; a program that is due to halt does, with everything it
issued complete; GTH.DBGDATA answers the selected state. Commands shown to complete: haltReq, debugStep, resume,
clearLog, debugStateRead, debugHalt. -/
def Obligations.DebugMode : Prop :=
  (∀ (s : State) (d g : Fin 8) (v : Nat), s.ready = true → s.absent d = false →
    bit (s.fld .irlLevel_features 0) 12 = true →
    let i := gi d g
    let went (t : State) (once : Bool) : Prop := (s.gath d g).halted = true → (t.gath d g).halted = false ∧
      (t.gath d g).stepOnce = once ∧ t.flag .gthSeqstat_halted i = false
    let set (t : State) : Prop :=
      t.flag .gthDbgctl_enable i = bit v 0 ∧ t.flag .gthDbgctl_breakEn i = bit v 4 ∧
        t.fld .gthDbgctl_breakIp i = bits v 16 12 ∧ MemKept s t
    Completes (.haltReq d g v) s (fun t => set t ∧
      ((s.gath d g).cmd.isSome = true → s.flag .gthCfg_debug i = true → (s.gath d g).halted = false →
        (s.gath d g).stepOnce = false → (t.gath d g).haltWanted = true)) ∧
    Completes (.debugStep d g v) s (fun t => set t ∧ went t (!bit v 3 || bit v 1)) ∧
    Completes (.resume d g v) s (fun t => set t ∧ went t (bit v 1)) ∧
    Completes (.clearLog d g v) s (fun t => set t ∧ t.fld .gthStallcnt_stalls i = 0 ∧
      ∀ k, k < 16 → t.flag .gthStalllog_valid (16 * i + k) = false)) ∧
  (∀ (s : State) (d g : Fin 8) (c : QCmd), (s.gath d g).cmd = some c → (s.gath d g).ended = false →
    (s.gath d g).halted = false → s.haltDue d g = true →
    Completes (.debugHalt d g) s fun t =>
      (t.gath d g).halted = true ∧ (t.gath d g).pend = [] ∧ t.flag .gthSeqstat_halted (gi d g) = true) ∧
  (∀ (s : State) (d g : Fin 8), s.ready = true →
    Completes (.debugStateRead d g) s fun t =>
      t.hif.resp = .data (s.dbgData d g) ∧ RegsKept [] s t ∧ MemKept s t)

/-- R551 to R555, R560: a mismatch puts a gathering that has issued since its last boundary back there: its instruction
address, scalars and counts, and every logged byte of scratch are those of the boundary. A full buffer makes a new
boundary. A check of a running collective that fails is counted, and its third failure in a block fails the die. Which
instruction a mismatch belongs to, and when a buffer is full, is the model's reading (log 58), and so is which of
several collectives a failed check belongs to (log 250). Commands shown to complete: tileReplay, replayBoundary,
engineCheckRetry. -/
def Obligations.Replays : Prop :=
  (∀ (s : State) (d g : Fin 8) (tile : Fin 32) (c : QCmd) (k : GCkpt) (older : List GCkpt), (s.gath d g).cmd = some c →
    (s.gath d g).replayFrom (s.gath d g).suspectOrder = some (k, older) → k.order < (s.gath d g).order →
    (s.gath d g).replays = [] →
    Completes (.tileReplay d g tile) s fun u =>
      (u.gath d g).core = k.core ∧ (u.gath d g).order = k.order ∧ (u.gath d g).pend = k.pend ∧
      u.fld .gthSeqstat_ip (gi d g) = k.core.ip % 2 ^ 12 ∧
      u.fld .fltDiestat_mismatches d = min (2 ^ Field.fltDiestat_mismatches.info.width - 1)
        (s.fld .fltDiestat_mismatches d + 1) ∧
      (∀ p ∈ k.log, (∀ q ∈ k.log, q.1 = p.1 → q = p) → u.rdB p.1 = p.2 % 256) ∧
      (∀ a, (∀ p ∈ k.log, p.1 ≠ a) → u.rdB a = s.rdB a)) ∧
  (∀ (s : State) (d g : Fin 8) (c : QCmd) (k : GCkpt), (s.gath d g).cmd = some c → (s.gath d g).ckpt = some k →
    k.order < (s.gath d g).order → (s.gath d g).ended = false →
    Completes (.replayBoundary d g) s fun u =>
      (u.gath d g).replays = [] ∧ (u.gath d g).pend = [] ∧
      ∃ k', (u.gath d g).ckpt = some k' ∧ k'.core = (u.gath d g).core ∧ k'.log = []) ∧
  (∀ (s : State) (d : Fin 8) (u : CheckUnit) (k : Nat) (c : Coll), s.checkedColl d u = some (k, c) →
    Tab.get 0 c.fails (checkUnitNum u) < 2 →
    Completes (.engineCheckRetry d u) s fun t =>
      t.coll d k = some { c with fails := Tab.upd c.fails (checkUnitNum u) (Tab.get 0 c.fails (checkUnitNum u) + 1) } ∧
      t.nvm.histSeq = s.nvm.histSeq + 1 ∧ MemKept s t) ∧
  (∀ (s : State) (d : Fin 8) (u : CheckUnit) (k : Nat) (c : Coll), s.checkedColl d u = some (k, c) →
    2 ≤ Tab.get 0 c.fails (checkUnitNum u) →
    Completes (.engineCheckRetry d u) s fun t => (t.die d).failed = true)

/-- R499 to R501: the oldest sample that a die has taken is judged: SAMPLES counts it, WORST keeps the largest, and a
disagreement counts as a mismatch. R69, R499, R501, R682: a sample that falls while arrears are above 0, while the die's
row does not start COMPUTE or with no tile free counts in MISSED; otherwise the first free tile takes it. Commands shown
to complete: cruiseSample. -/
def Obligations.CruiseSamples : Prop :=
  let up (s : State) (f : Field) (d : Nat) : Nat := min (2 ^ f.info.width - 1) (s.fld f d + 1)
  (∀ (s : State) (d : Fin 8) (c : CruiseRec) (r : List CruiseRec), (s.die d).cruise = c :: r →
    Completes (.cruiseSample d) s fun t =>
      (t.die d).cruise = r ∧ t.fld .crzStat_samples d = up s .crzStat_samples d ∧
      t.fld .crzStat_worst d = max (s.fld .crzStat_worst d) (worstOf c) % 2 ^ Field.crzStat_worst.info.width ∧
      t.fld .crzStat_mismatches d = (if c.bad then up s .crzStat_mismatches d else s.fld .crzStat_mismatches d) ∧
      t.fld .crzStat_missed d = s.fld .crzStat_missed d ∧ MemKept s t) ∧
  (∀ (s : State) (d : Fin 8) (c : CruiseRec),
    let t := s.takeSample d c
    let missed := (s.jobRuns = true ∧ 0 < s.fld .perStatus_arrears 0) ∨ s.classStarts d 0 = false ∨ s.recorders d = []
    (missed → t.die d = s.die d ∧ t.fld .crzStat_missed d = up s .crzStat_missed d ∧ RegsKept [.crzStat_missed] s t) ∧
    (¬ missed → (∃ k, (s.recorders d).head? = some k ∧
      (t.die d).cruise = (s.die d).cruise ++ [{ c with tile := k }]) ∧ RegsKept [] s t) ∧ MemKept s t)

/-! ## Tiles and maintenance -/

/-- R555 to R557: the self-test of a suspect tile that is due and that R258 lets run notes the time when it passes and
retires the tile when it fails; four hours without one are reported; a window without a mismatch makes the tile good,
with a history record. A retired tile's logical tile goes, at a boundary of its gathering, to a free spare, the first of
them (the model's choice, log 40), and with none left the die fails. Commands shown to complete: suspectTileTest,
tileUntested, observationWindowExpiry, tileRemap. -/
def Obligations.TileRepair : Prop :=
  (∀ (s : State) (d : Fin 8) (p : Fin 272) (pass : Bool), s.tripped = false → ((s.die d).tile p).st = .suspect →
    ((s.die d).tile p).lastTest + s.fld .fltCfg_testMin 0 * 60000000000 ≤ s.now →
    (∀ k, ((s.die d).serves p).head? = some k → (s.gath d (k / 32)).cmd = none) → s.maintPhase d 1 = true →
    Completes (.suspectTileTest d p pass) s fun t =>
      if pass then (t.die d).tile p = { (s.die d).tile p with lastTest := s.now, untested := false } ∧ MemKept s t
      else ((t.die d).tile p).st = .retired) ∧
  (∀ (s : State) (d : Fin 8) (p : Fin 272), s.tripped = false → ((s.die d).tile p).st = .suspect →
    ((s.die d).tile p).untested = false →
    ((s.die d).tile p).lastTest + s.fld .fltCfg_testMin 0 * 60000000000 + 4 * hourNs ≤ s.now →
    Completes (.tileUntested d p) s fun t =>
      (t.die d).tile p = { (s.die d).tile p with untested := true } ∧
      (s.recorder.queue.length < 1024 → ∃ r, t.recorder.queue = s.recorder.queue ++ [r] ∧
        r.code = Err.tileUntested.code ∧ r.die = d.val) ∧ MemKept s t) ∧
  (∀ (s : State) (d : Fin 8) (p : Fin 272), s.tripped = false → ((s.die d).tile p).st = .suspect →
    ((s.die d).tile p).since + s.observeNs ≤ s.now + ((s.die d).tile p).served →
    Completes (.observationWindowExpiry d p) s fun t =>
      ((t.die d).tile p).st = .good ∧ t.nvm.histSeq = s.nvm.histSeq + 1 ∧ MemKept s t) ∧
  (∀ (s : State) (d : Fin 8) (p : Fin 272) (k q : Nat) (l r : List Nat), s.tripped = false →
    ((s.die d).tile p).st = .retired →
    (s.die d).serves p = k :: l → (s.gath d (k / 32)).atBoundary = true → (s.die d).freeSpares = q :: r →
    Completes (.tileRemap d p) s fun t =>
      Tab.get k (t.die d).map k = q ∧ (∀ j, j ≠ k → Tab.get j (t.die d).map j = Tab.get j (s.die d).map j) ∧
        MemKept s t) ∧
  (∀ (s : State) (d : Fin 8) (p : Fin 272) (k : Nat) (l : List Nat), s.tripped = false →
    ((s.die d).tile p).st = .retired →
    (s.die d).serves p = k :: l → (s.gath d (k / 32)).atBoundary = true → (s.die d).freeSpares = [] →
    Completes (.tileRemap d p) s fun t => (t.die d).failed = true) ∧
  (∀ (s : State) (d : Fin 8) (p : Fin 272) (k : Nat) (l : List Nat), ((s.die d).tile p).st = .retired →
    (s.die d).serves p = k :: l → (s.gath d (k / 32)).atBoundary = false →
    exec (.tileRemap d p) s = .next s)

/-- R253, R258, R336, R571, R684: a maintenance command that may start leaves its queue and is the one in progress on
its die; a WIPE leaves every byte of its region 0 and none else changed, a RESTORE from an effective neighbour on the D
axis changes no byte outside its granules and one without reports the state as lost, and the others change no memory. At
its end no operation is in progress. How much of the effect is made when the operation starts is the model's choice (log
83): in a bubble of a main job its first segment; what a PATTERN is and what its bundle holds rests on log 84. Commands
shown to complete: selftest, pattern, scrub, wipe, restore, maintComplete. -/
def Obligations.Maintenance : Prop :=
  let begun (s : State) (d : Nat) (c : QCmd) (l : List Field) (t : State) : Prop :=
    (t.die d).maint = some c ∧ t.queue d 13 = (s.queue d 13).drop 1 ∧ RegsKept l s t
  (∀ (s : State) (d : Fin 8) (c : QCmd),
    (s.maintReady d 1 = some c → Completes (.selftest d) s fun t => begun s d c [] t ∧ MemKept s t) ∧
    (s.maintReady d 2 = some c → s.bundle = some .ok → cbArg c.word < s.patterns →
      Completes (.pattern d) s fun t => begun s d c [] t ∧ MemKept s t) ∧
    (s.maintReady d 3 = some c → s.firstPoison (cbAddr c.word) (cbSize c.word) = none →
      Completes (.scrub d) s fun t => begun s d c correctedFields t ∧ MemKept s t) ∧
    (s.maintReady d 4 = some c → Completes (.wipe d) s fun t => begun s d c [] t ∧
      (∀ a, cbAddr c.word ≤ a → a < cbAddr c.word + cbSize c.word → t.rdB a = 0) ∧
      MemKeptOutside (cbAddr c.word) (cbSize c.word) s t) ∧
    (s.maintReady d 5 = some c → (s.dNeighbour (cbArg c.word)).isSome = true →
      Completes (.restore d) s fun t => begun s d c [] t ∧
        MemKeptOutside (cbAddr c.word / 64 * 64) (cbSize c.word / 64 * 64) s t) ∧
    (s.maintReady d 5 = some c → s.dNeighbour (cbArg c.word) = none →
      Completes (.restore d) s fun t => begun s d c lostFields t ∧ MemKept s t ∧
        (s.recorder.queue.length < 1024 → ∃ r, t.recorder.queue = s.recorder.queue ++ [r] ∧
          r.code = Err.stateLost.code ∧ r.arg2 = cbAddr c.word))) ∧
  (∀ (s : State) (d : Fin 8) (c : QCmd) (l : List (Fin 272)), (s.die d).maint = some c →
    s.maintPhase d (cbOp c.word) = true →
    Completes (.maintComplete d l) s fun t => (t.die d).maint = none)

/-! ## Yarders -/

/-- R347, R348, R354 to R358: a STREAM takes a free slot and, while no stream of its descriptor runs, latches it: the
descriptor is checked and kept and the walk begins at element 0; a zero-length one is over at once; while one runs it
waits as the pending start, and latches once none does and the commit that a state tensor calls for is met (R453). A
stream whose turn it is and whose next granule is held neither by its bucket nor by another device moves the units that
the granule completes: a COPY writes them where they go, bit for bit, and nothing else, a tally pass no memory. At its
end its slot is free. That the granules of one stream move in walk order is the model's choice (log 239). Commands shown
to complete: stream, streamLatch, streamGranule, streamComplete. -/
def Obligations.Streams : Prop :=
  (∀ (s : State) (d : Fin 8) (y : Fin 4) (c : QCmd) (k : Nat), s.startable d (8 + y) 2 = some c →
    ((List.range 8).find? fun k => (s.slotAt d y k).isNone) = some k → s.poison = [] →
    let sd := s.rd (cbSdesc c.word) 64
    let popped (t : State) : Prop := (t.queue d (8 + y)).map (·.word) = ((s.queue d (8 + y)).drop 1).map (·.word)
    (s.sdescRuns d (cbSdesc c.word) = false → s.streamErr sd = .ok →
      Completes (.stream d y) s fun t => popped t ∧
        (sdTotal sd ≠ 0 → ∃ r, t.slotAt d y k = some r ∧ r.cmd = c ∧ r.desc = some sd ∧ r.pos = 0 ∧
          r.total = sdTotal sd) ∧
        (sdTotal sd = 0 → sdMode sd = 0 → t.slotAt d y k = none)) ∧
    (s.sdescRuns d (cbSdesc c.word) = true →
      ((s.dieStreams d).any fun p => p.2.2.sdesc == cbSdesc c.word && p.2.2.desc.isNone) = false →
      Completes (.stream d y) s fun t => popped t ∧
        ∃ r, t.slotAt d y k = some r ∧ r.cmd = c ∧ r.sdesc = cbSdesc c.word ∧ r.desc = none)) ∧
  (∀ (s : State) (d : Fin 8) (y : Fin 4) (k : Fin 8) (r : StreamRun), s.slotAt d y k = some r → r.desc = none →
    s.mayLatch d r = true → s.poison = [] →
    let sd := s.rd r.sdesc 64
    s.streamErr sd = .ok → sdTotal sd ≠ 0 →
    Completes (.streamLatch d y k) s fun t =>
      (∃ x, t.slotAt d y k = some x ∧ x.cmd = { r.cmd with tStart := s.now } ∧ x.desc = some sd ∧ x.pos = 0 ∧
        x.total = sdTotal sd) ∧ RegsKept correctedFields s t ∧ MemKept s t) ∧
  (∀ (s : State) (d : Fin 8) (y : Fin 4) (k : Nat) (r : StreamRun) (sd : Nat), s.nextStream d y = some (k, r, sd) →
    let m := s.motion r sd
    r.out = [] → r.pos < r.total → m.src.other = none → m.dst.other = none → s.poison = [] →
    s.bucketHolds d sd = true → (m.fresh r).length ≤ r.paid + 1 →
    let last := runUnits m.grains m.unit r.total 128 r.pos
    let cells := ((List.range ((last - r.pos) / m.unit + 1)).map fun n => r.pos + n * m.unit).flatMap fun j =>
      s.unitCells (sdFm sd) (tdBlocked m.bound == 1) m.src m.dst r.got j (min m.unit (r.total - j))
    Completes (.streamGranule d y .good) s fun t =>
      (∃ x, t.slotAt d y k = some x ∧ x.pos = last + m.unit ∧ x.cmd = r.cmd) ∧
      (t.yarder d y).turn = r.no + 1 ∧
      (sdMode sd = 0 → Written cells s t ∧ ∀ a, (∀ c ∈ cells, c.1 ≠ a) → t.rdB a = s.rdB a) ∧ (sdMode sd ≠ 0 → MemKept s t)) ∧
  (∀ (s : State) (d : Fin 8) (y : Fin 4) (k : Fin 8) (r : StreamRun) (sd : Nat), s.slotAt d y k = some r →
    r.desc = some sd → r.total ≤ r.pos → r.out = [] → r.acks = 0 → s.tallyWaits d r sd = false → s.poison = [] →
    Completes (.streamComplete d y k) s fun t => t.slotAt d y k = none)

/-! ## Torus: editions, link layer, routing -/

/-- R405, R406: a write of the spare bank stores the entry and clears STAGED, but is ignored while PREV_LIVE is 1. The
bits of a write of TOR.EDITION are judged on the register as it stood: while PREV_LIVE is 0, STAGE_DONE sets STAGED,
SWITCH acts if STAGED was 1, and RETIRE is ignored; while it is 1, RETIRE alone acts. R407, R409: a switch makes the
staged table current with the next edition, the old current one previous and live; a retirement ends PREV_LIVE and every
context that still stamps the previous edition changes to the current one. Commands shown to complete: xentryWrite,
stageDone, editionSwitch, editionRetire. -/
def Obligations.Editions : Prop :=
  (∀ (s : State) (n : Fin 256) (v : Nat), s.ready = true →
    (s.flag .torEdition_prevLive 0 = false → Completes (.xentryWrite n v) s fun t =>
      Tab.get 0 t.tor.bank1 n = v % 2 ^ 42 ∧ t.flag .torEdition_staged 0 = false ∧ t.tor.bank0 = s.tor.bank0 ∧
        (∀ j, j ≠ n.val → Tab.get 0 t.tor.bank1 j = Tab.get 0 s.tor.bank1 j) ∧
        RegsKept [.torEdition_staged] s t ∧ MemKept s t) ∧
    (s.flag .torEdition_prevLive 0 = true → exec (.xentryWrite n v) s = .next s)) ∧
  (∀ (s : State) (v : Nat) (c : Instr) (w : Nat), s.ready = true →
    (c, w) ∈ [(.stageDone v, v ||| 64), (.editionSwitch v, v ||| 128), (.editionRetire v, v ||| 256)] →
    let live := s.flag .torEdition_prevLive 0
    let staged := s.flag .torEdition_staged 0
    (live = false → staged = true → bit w 7 = true → Completes c s fun t =>
      t.fld .torEdition_current 0 = (s.fld .torEdition_current 0 + 1) % 4 ∧
        t.fld .torEdition_previous 0 = s.fld .torEdition_current 0 % 4 ∧ t.flag .torEdition_prevLive 0 = true ∧
        t.flag .torEdition_staged 0 = false ∧ t.tor.bank0 = s.tor.bank1 ∧ t.tor.bank1 = s.tor.bank0 ∧
        RegsKept [.torEdition_current, .torEdition_previous, .torEdition_prevLive, .torEdition_staged] s t ∧
        MemKept s t) ∧
    (live = false → staged = false ∨ bit w 7 = false → Completes c s fun t =>
      t.flag .torEdition_staged 0 = (bit w 6 || staged) ∧ t.tor = s.tor ∧ RegsKept [.torEdition_staged] s t ∧
        MemKept s t) ∧
    (live = true → bit w 8 = true → Completes c s fun t =>
      t.flag .torEdition_prevLive 0 = false ∧ t.tor = { s.tor with stamp := s.restamped } ∧
        RegsKept [.torEdition_prevLive] s t ∧ MemKept s t) ∧
    (live = true → bit w 8 = false → exec c s = .next s))

/-- R379, R382 to R387, R414: a port whose link runs sends a new raft with the next RAFT_SEQ while fewer than 32 are
unacknowledged, and keeps it, and no new one while 32 are: it goes on with the bolt that the last one began, and IDLE
bolts fill it. A good raft in sequence is accepted with the bolts that end in it, but for IDLE ones; a bad one, with
more than 15 symbols in error in a codeword, makes NAK due, and the fourth failure in succession of the raft that is
awaited retrains the port; a raft out of sequence is discarded. A port that has retrained goes on without its worst lane
at the width that is left, in the state of its agreement, or goes down with fewer than two lanes. Commands shown to
complete: raftSend, raftReceive, retrainComplete. -/
def Obligations.RaftLink : Prop :=
  (∀ (s : State) (p : Fin 12), s.linkOn p = true → (s.port p).resend = none → (s.port p).replay.length < 32 →
    let x := s.port p
    Completes (.raftSend p) s fun t =>
      (∃ r go, (t.port p).replay = x.replay ++ [r] ∧ r.seq = x.txSeq ∧ r.ack = (x.rxSeq + 4095) % 4096 ∧
        r.nak = x.nakOut ∧ r.skip = x.carry ∧ r.bolts = fillIdle (touchedBolts x.carry) (x.part ++ go) ∧
        go.length + (t.port p).egress.length = x.egress.length ∧
        (t.port p).part = r.bolts.drop (wholeBolts x.carry)) ∧
      (t.port p).carry = (x.carry + raftBits) % boltBits ∧ (t.port p).txSeq = (x.txSeq + 1) % 4096 ∧
      RegsKept [] s t ∧ MemKept s t) ∧
  (∀ (s : State) (p : Fin 12), 32 ≤ (s.port p).replay.length → Completes (.raftSend p) s fun t =>
      (t.port p).replay = (s.port p).replay ∧ (t.port p).txSeq = (s.port p).txSeq ∧
        (t.port p).egress = (s.port p).egress ∧ MemKept s t) ∧
  (∀ (s : State) (p : Fin 12) (r : Raft) (errs : List (Fin 16 × Fin 544)), s.linkOn p = true → raftGood errs = true →
    (r.seq = (s.port p).rxSeq → Completes (.raftReceive p r errs) s fun t =>
      (t.port p).rxSeq = ((s.port p).rxSeq + 1) % 4096 ∧ (t.port p).nakOut = false ∧ (t.port p).fails = 0 ∧
        (t.port p).ingress = (s.port p).ingress ++ raftEnded r ∧
        RegsKept [.torEdition_current, .torEdition_previous, .torEdition_prevLive, .torEdition_staged,
          .torEdition_arrivals] s t ∧ MemKept s t) ∧
    (r.seq ≠ (s.port p).rxSeq → exec (.raftReceive p r errs) s = .next s)) ∧
  (∀ (s : State) (p : Fin 12) (r : Raft) (errs : List (Fin 16 × Fin 544)), s.linkOn p = true → raftGood errs = false →
    Completes (.raftReceive p r errs) s fun t =>
      (t.port p).nakOut = true ∧ (t.port p).ingress = (s.port p).ingress ∧ (t.port p).rxSeq = (s.port p).rxSeq ∧
        (if r.seq ≠ (s.port p).rxSeq then (t.port p).fails = (s.port p).fails ∧ RegsKept [] s t
        else if (s.port p).fails < 3 then (t.port p).fails = (s.port p).fails + 1 ∧ RegsKept [] s t
        else (t.port p).retraining = true ∧ t.fld .torPstat_state p = 1) ∧ MemKept s t) ∧
  (∀ (s : State) (p : Fin 12) (mask : Nat), (s.port p).retraining = true → s.tripped = false →
    let n := ((List.range 4).filter (bit (s.keptLanes p mask))).length
    Completes (.retrainComplete p mask) s fun t =>
      if n < 2 then t.fld .torPstat_state p = 0 ∧ t.fld .torPstat_lanes p = 0 ∧ (t.port p).egress = []
      else (t.port p).retraining = false ∧ t.fld .torPstat_lanes p = n ∧ t.fld .torPstat_state p = s.retrainedState p ∧
        (t.port p).resend = (s.port p).replay.head?.map (·.seq))

/-- R26, R387, R401, R404, R407, R417, R443: the bolt at the head of a source leaves it. Under the table of its edition,
once that has been found or adopted, it is delivered here, absorbed and counted without an event, queued on a port of
the router's own I/O die that is open and has room, sent over Irale when the port is of the other I/O die, or dropped
and counted where the port is down; for a port without room it waits. One of an edition that routes nowhere, or with a
reserved OP (R381), is dropped and counted. A tripped device routes nothing (R90). Commands shown to complete:
boltRoute. -/
def Obligations.BoltRouting : Prop :=
  (∀ (s : State) (src : BoltSrc), s.tripped = true → exec (.boltRoute src) s = .next s) ∧
  ∀ (s u : State) (src : BoltSrc) (b : Bolt), s.takeBolt src = some (b, u) → s.tripped = false →
    let fields : List Field := [.torEdition_current, .torEdition_previous, .torEdition_prevLive, .torEdition_staged]
    (∀ v, b.op < 12 → u.editionCheck b = some v →
      let r := v.routeFrom src b
      (r = .deliver → Completes (.boltRoute src) s fun t =>
        t.tor.delivered = s.tor.delivered ++ [b] ∧ t.tor.inject = u.tor.inject ∧ t.tor.ports = v.tor.ports ∧
          RegsKept fields s t ∧ MemKept s t) ∧
      (r = .absorb → Completes (.boltRoute src) s fun t =>
        t.fld .torDrops_fenced 0 = min 65535 (s.fld .torDrops_fenced 0 + 1) ∧ t.recorder = s.recorder ∧
          t.tor.delivered = s.tor.delivered ∧ t.tor.inject = u.tor.inject ∧ t.tor.ports = v.tor.ports ∧
          RegsKept (.torDrops_fenced :: fields) s t ∧ MemKept s t) ∧
      (∀ p x, r = .port p x →
        (v.portOpen p = true → routerOf src r = portDie p → (v.port p).egress.length < 4096 →
          Completes (.boltRoute src) s fun t =>
            (t.port p).egress = (v.port p).egress ++ [(v.vcOf p b x, b)] ∧ t.tor.inject = u.tor.inject ∧
              t.tor.delivered = s.tor.delivered ∧ RegsKept fields s t ∧ MemKept s t) ∧
        (v.portOpen p = true → routerOf src r = portDie p → 4096 ≤ (v.port p).egress.length →
          exec (.boltRoute src) s = .next ((s.editionCheck b).getD s)) ∧
        (v.portOpen p = true → routerOf src r ≠ portDie p →
          exec (.boltRoute src) s = .next (v.transitOut (routerOf src r) (portDie p) b)) ∧
        (v.portOpen p = false → Completes (.boltRoute src) s fun t =>
          t.fld .torDrops_route 0 = min 65535 (s.fld .torDrops_route 0 + 1) ∧ t.tor.delivered = s.tor.delivered ∧
            t.tor.inject = u.tor.inject ∧ RegsKept (.torDrops_route :: fields ++ lostFields) s t ∧ MemKept s t))) ∧
    (b.op < 12 → u.editionCheck b = none → Completes (.boltRoute src) s fun t =>
      t.fld .torDrops_edition 0 = min 65535 (s.fld .torDrops_edition 0 + 1) ∧ t.tor = u.tor ∧
        RegsKept [.torDrops_edition] s t ∧ MemKept s t) ∧
    (12 ≤ b.op → Completes (.boltRoute src) s fun t =>
      t.fld .torDrops_op 0 = min 65535 (s.fld .torDrops_op 0 + 1) ∧ t.tor.inject = u.tor.inject ∧
        t.tor.delivered = s.tor.delivered ∧ RegsKept (.torDrops_op :: lostFields) s t ∧ MemKept s t)

/-! ## Torus: bolts on contexts -/

/-- R298 to R300, R392, R396, R397, R399, R400: a board-wide request, its data and its answers, as the bolt is accepted,
with none waiting before it: RX_SEQ advances and, but for a CREDIT, the sender gets a credit back, as a CREDIT bolt of
one (the model's reading of log 44), on the context that the far end numbers by its own coordinate (log 89), put into
die 0's injection queue as every bolt is whose sender no rule names. A request for which the die's share of the remote
entries has no room is accepted too, so that no response waits behind it, and is held without its credit (R392, R689,
R691). A permitted load is answered with its granules from memory, and another is refused, through the queue of the die
whose stack holds them, or of die 0 for the tier (the model's choice of log 115); a store opens, its granules land under
their byte enables, and its last one is acknowledged; data and acknowledgements go to the stream that waits for them. A
bolt that check 1 turns away is counted and nothing else. CREDIT adds its count to the context's credits. Commands shown
to complete: loadReq, storeReq, storeData, loadData, accessAck, credit, map. -/
def Obligations.BoardAccess : Prop :=
  (∀ (s : State) (b : Bolt), Arrives s b 2 → s.tor.waiting = [] →
    let p := b.payload
    let a := bpAddr p
    let n := bpCount p
    let seen (t : State) : Prop := t.fld .ctxEntry_rxSeq b.ctx = (s.fld .ctxEntry_rxSeq b.ctx + 1) % 4096
    let room (k : Nat) : Prop :=
      Tab.get [] s.tor.answers b.ctx = [] ∧ k ≤ s.fld .ctxEntry_credits b.ctx ∧ s.fld .ctxEntry_credits b.ctx < 4096
    (∀ c ∈ [.loadReq b, .storeReq b, .storeData b, .loadData b, .accessAck b], s.inboundWaits b = false →
      Completes c s fun t => seen t ∧ ∃ x post, Tab.get [] t.tor.inject 0 = Tab.get [] s.tor.inject 0 ++ x :: post ∧
        x.op = 9 ∧ x.dest = s.fld .ctxEntry_peer b.ctx ∧ x.ctx = s.farCtx b.ctx ∧ x.payload = 1) ∧
    (s.inboundWaits b = false → s.requestOk b = true → b.last = true → s.poisoned a (64 * n) = false → room n →
      Completes (.loadReq b) s fun t => seen t ∧ MemKept s t ∧
        t.fld .ctxEntry_credits b.ctx = s.fld .ctxEntry_credits b.ctx - n ∧
        Injected t (s.homeDie a) ((List.range n).map fun i => (7, i + 1 == n, s.rd (a + 64 * i) 64))) ∧
    (s.inboundWaits b = false → (s.requestOk b && b.last) = false → room 1 →
      Completes (.loadReq b) s fun t => seen t ∧ MemKept s t ∧
        Injected t (s.homeDie a) [(8, true, ackPayload a n 1)]) ∧
    (s.inboundWaits b = false → Completes (.storeReq b) s fun t => seen t ∧ MemKept s t ∧ RegsKept [.ctxEntry_rxSeq] s t ∧
      Tab.get ⟨0, 0, true⟩ t.tor.stores b.ctx = ⟨p, 0, !s.requestOk b⟩) ∧
    (∀ c ∈ [.loadReq b, .storeReq b], s.inboundWaits b = true → Completes c s fun t => seen t ∧
      t.tor.waiting = [(b.ctx, [b])] ∧ Tab.get [] t.tor.inject 0 = Tab.get [] s.tor.inject 0 ∧
        RegsKept [.ctxEntry_rxSeq] s t ∧ MemKept s t) ∧
    (∀ st, s.tor.stores.find? (fun q => q.1 == b.ctx) = some (b.ctx, st) → st.bad = false → s.poison = [] →
      let x := bpAddr st.req + 64 * st.next
      Completes (.storeData b) s fun t => seen t ∧
        (∀ i, i < 64 → t.rdB (x + i) = if bit (storeMask st.req st.next) i then bits p (8 * i) 8 else s.rdB (x + i)) ∧
        MemKeptOutside x 64 s t ∧
        (b.last = true → room 1 → Injected t (s.homeDie (bpAddr st.req))
          [(8, true, ackPayload (bpAddr st.req) (bpCount st.req) 0)])) ∧
    (∀ q rest r, takeReq (fun q => !q.store) (s.boardReqs b.ctx) = some (q, rest) → q.slot < 8 →
      s.slotAt q.die q.yarder q.slot = some r → q.addr / 64 ∈ r.asked →
      Completes (.loadData b) s fun t => seen t ∧ MemKept s t ∧ t.boardReqs b.ctx = rest ∧
        ∃ r', t.slotAt q.die q.yarder q.slot = some r' ∧ Tab.get 0 r'.got (q.addr / 64) = p ∧
          q.addr / 64 ∉ r'.asked ∧ r'.pos = r.pos) ∧
    (∀ q rest r, takeReq (fun q => q.addr == a) (s.boardReqs b.ctx) = some (q, rest) → q.slot < 8 →
      s.slotAt q.die q.yarder q.slot = some r →
      (bpStatus p = 0 → Completes (.accessAck b) s fun t => seen t ∧ MemKept s t ∧ t.boardReqs b.ctx = rest ∧
        t.slotAt q.die q.yarder q.slot = some { r with acks := r.acks - 1 }) ∧
      (bpStatus p ≠ 0 → Completes (.accessAck b) s fun t => seen t ∧ t.slotAt q.die q.yarder q.slot = none))) ∧
  (∀ (s : State) (b : Bolt) (c : Instr), s.epochOk b = false → s.tor.waiting = [] →
    c ∈ [.loadReq b, .storeReq b, .storeData b, .loadData b, .accessAck b] →
    Completes c s fun t => t.fld .torDrops_epoch 0 = min 65535 (s.fld .torDrops_epoch 0 + 1) ∧
      RegsKept [.torDrops_epoch] s t ∧ MemKept s t) ∧
  (∀ (s : State) (b : Bolt), s.epochOk b = true → Tab.get [] s.tor.answers b.ctx = [] → s.collOn b.ctx = none →
    s.tor.waiting = [] → Completes (.credit b) s fun t =>
      t.fld .ctxEntry_credits b.ctx = min 4095 (s.fld .ctxEntry_credits b.ctx + bits b.payload 0 16) ∧
        RegsKept [.ctxEntry_credits] s t ∧ MemKept s t) ∧
  (∀ (s : State) (b : Bolt), s.poison = [] →
    let x := s.fld .congSweep_buffer 0 + 64 * bits b.payload 0 17
    (s.tripped = false → s.flag .congSweep_isCollector 0 = true → (s.region x).isMemory = true → Completes (.map b) s fun t =>
      (∀ i, i < 64 → t.rdB (x + i) = bits b.payload (8 * i) 8) ∧ MemKeptOutside x 64 s t ∧
        RegsKept correctedFields s t) ∧
    (s.tripped = false → s.flag .congSweep_isCollector 0 = false → Completes (.map b) s fun t =>
      t.fld .torDrops_op 0 = min 65535 (s.fld .torDrops_op 0 + 1) ∧ RegsKept [.torDrops_op] s t ∧ MemKept s t))

/-- R396, R397, R427, R435, R444: a collective's bolt that passes the checks while its engine, and the buffer of the
bolts that go on, have room is accepted. With no collective running on its context it is held; a running one that
expects a bolt of its kind from that member takes it: the member's count goes up, a TAIL, DONE, BARRIER or COUNTS bolt
is kept with its payload, and a final value or a broadcast stretch lands as the payload. Commands shown to complete:
data, a2a, tail, done, barrierVote, counts. -/
def Obligations.CollectiveBolts : Prop :=
  ∀ (s : State) (b : Bolt) (kind : Nat), kind < 6 → Arrives s b (if kind = 1 ∨ kind = 5 then 1 else 0) →
    let seen (t : State) : Prop := t.fld .ctxEntry_rxSeq b.ctx = (s.fld .ctxEntry_rxSeq b.ctx + 1) % 4096
    (s.collOn b.ctx = none → s.collFull (s.ctxDie b.ctx) = false →
      (s.forks b = true → s.forkFull (s.ctxDie b.ctx) b = false) →
      Completes (boltCmd b kind) s fun t => seen t ∧
        Tab.get [] t.tor.held b.ctx = Tab.get [] s.tor.held b.ctx ++ [(kind, b)] ∧ RegsKept [.ctxEntry_rxSeq] s t ∧
        MemKept s t) ∧
    (∀ d k c r u, s.collOn b.ctx = some (d, k, c) → s.coll d k = some c → c.done = false → s.collFull d = false →
      (s.forks b = true → s.forkFull d b = false) → s.poison = [] → s.arrive b = .accepted u →
      let f := coordOn (s.fld .ctxEntry_peer b.ctx) c.axis
      let p := b.payload + b.scale0 * 2 ^ 512 + b.scale1 * 2 ^ 520
      u.nextRole c f kind = some r → r.kind = kind →
      (kind = 5 → bits p 160 32 ≤ partRows (u.desc (cdDst c.desc)) c.eff.length) →
      Completes (boltCmd b kind) s fun t => seen t ∧
        ∃ c', t.coll d k = some c' ∧ Tab.get 0 c'.rx f = Tab.get 0 c.rx f + 1 ∧ c'.lastBolt = s.now ∧
          (2 ≤ kind → Tab.get 0 c'.ctrl f = p) ∧
          (∀ a n, r = .final a n ∨ r = .copy a n → Tab.get 0 c'.landed a = p))

/-! ## Collectives and updates -/

/-- R251, R424 to R427, R447, R449, R451: a COLLECTIVE at the head of its queue whose descriptor, as validated (every
start uses it, the model's reading, log 207), has the type of the command, and which meets no error, leaves its queue
and runs in the free slot with its effective members and its time of start. One that has received no bolt for the stall
time is reported once. One that has everything it expects is complete, and leaves its slot once it has sent everything
(the model's choice of log 90); a tailed one makes the verdict valid, and a plain copy writes STATUS 1 in its record.
Commands shown to complete: collectiveStall, allReduce, reduceScatter, allGather, broadcast, allToAll, barrier,
collectiveComplete. -/
def Obligations.Collectives : Prop :=
  (∀ (s : State) (d : Fin 8) (ty k : Nat) (q : QCmd), ty < 6 → s.startable d 12 3 = some q →
    ((List.range 16).find? fun k => (s.coll d k).isNone) = some k → s.poison = [] → s.tor.held = [] →
    let cd := q.body
    let c := s.newColl q cd
    let u := s.popQueue d 12
    let ctxs := match s.job.active with
      | some m => if q.maint then [] else m.ctxs
      | none => []
    cdType cd = ty → s.blockBusy cd = false → (u.startErr d ctxs c (u.boundProg c)).1 = .ok →
    Completes (collCmd d ty) s fun t =>
      (∃ c', t.coll d k = some c' ∧ c'.cmd = q ∧ c'.desc = cd ∧ c'.eff = s.effective cd ∧ c'.tStart = s.timeAt q.die) ∧
        (t.queue d 12).map (·.word) = ((s.queue d 12).drop 1).map (·.word)) ∧
  (∀ (s : State) (d : Fin 8) (k : Fin 16) (c : Coll), s.coll d k = some c → c.done = false → c.stallRaised = false →
    1000 * s.stallTime c ≤ s.now - c.lastBolt →
    Completes (.collectiveStall d k) s fun t =>
      t.coll d k = some { c with stallRaised := true } ∧
      (s.recorder.queue.length < 1024 → ∃ r, t.recorder.queue = s.recorder.queue ++ [r] ∧
        r.code = Err.collectiveStall.code ∧ r.sev = Err.collectiveStall.sev) ∧ RegsKept lostFields s t ∧ MemKept s t) ∧
  (∀ (s : State) (d : Fin 8) (k : Fin 16) (c : Coll), s.coll d k = some c → s.collDone c = true →
    Completes (.collectiveComplete d k) s fun t =>
      (t.coll d k = none ∨ ∃ c', t.coll d k = some c' ∧ c'.done = true ∧ c'.cmd = c.cmd) ∧
      (s.targets c = [] ∨ (c.ty = 5 ∧ s.sentAll c = true) → t.coll d k = none) ∧
      (c.tailed = true → s.poisoned (cdRecord c.desc) 64 = false → t.flag .colVerdict_valid 0 = true) ∧
      (c.tailed = false → c.ty ≠ 5 → s.dram (cdRecord c.desc) 64 = true → s.poisoned (cdRecord c.desc) 64 = false →
        (∀ r, s.runOf c.cmd = some r → r.doneCount + 1 < r.src.cmds.length) → t.rd (cdRecord c.desc) 1 = 1))

/-- R435, R473, R483, R485 to R488: the update engine applies the first block that waits: it leaves the staging buffer
and is counted; the press forms the first sub-block all of whose blocks have landed, and has each of its blocks; the
statistics are folded once every sub-block has been pressed. Commands shown to complete: updateBlock, pressSubblock,
pressFold. -/
def Obligations.Updates : Prop :=
  (∀ (s : State) (d : Fin 8) (k : Nat) (c : Coll) (p : UProg) (b : Nat), s.nextBlock d = some (k, c, p, b) →
    uhRows p.hdr ≠ 1 → s.poison = [] →
    let n := min 32 (s.cdElems c.desc - 32 * b)
    let bytes := s.blockBytes p (slotIndex (s.resultOf c) (32 * b)) n
    Completes (.updateBlock d) s fun t =>
      (∃ c', t.coll d k = some c' ∧ c'.applied = c.applied + 1 ∧ c'.queued = c.queued.erase b) ∧
        (s.ClearOf bytes p.stored → MemKeptBut bytes s t) ∧
        t.fld .updQstat_applied d = min (2 ^ Field.updQstat_applied.info.width - 1) (s.fld .updQstat_applied d + 1)) ∧
  (∀ (s : State) (d : Fin 8) (k : Nat) (c : Coll) (p : UProg) (q : Nat), s.nextSub d = some (k, c, p, q) →
    s.poison = [] →
    Completes (.pressSubblock d) s fun t =>
      ∃ c', t.coll d k = some c' ∧ c'.pressed = c.pressed ++ [q] ∧ c'.queued = c.queued ∧
        (∀ a, a < 32 → (c'.press.any fun e => e.1 == 32 * q + a) = true) ∧
        let nl := tdExt (s.desc (cdSrc c.desc)) 3
        let e2 := max 1 (tdExt (s.desc (cdSrc c.desc)) 2)
        (c.held = true → MemKept s t) ∧
        ∀ a, (∀ m ∈ [q / e2, nl + q % e2], a < pworkAt p m ∨ pworkAt p m + 16384 ≤ a) → t.rdB a = s.rdB a) ∧
  (∀ (s : State) (d : Fin 8) (k : Fin 16) (c : Coll) (p : UProg), s.coll d k = some c → s.boundProg c = some p →
    uhPress p.hdr = 1 → c.folded = false →
    tdExt (s.desc (cdSrc c.desc)) 3 * tdExt (s.desc (cdSrc c.desc)) 2 ≤ c.pressed.length → s.poison = [] →
    let bytes := s.foldBytes p (tdExt (s.desc (cdSrc c.desc)) 3) (tdExt (s.desc (cdSrc c.desc)) 2)
    Completes (.pressFold d k) s fun t => (∃ c', t.coll d k = some c' ∧ c'.folded = true ∧ c'.applied = c.applied) ∧
      (s.ClearOf bytes p.foldHandles → MemKeptBut bytes s t))

/-! ## Irale -/

/-- R520 to R529: of the leaves that reach the end of an up link, one whose parity checks pass, in sequence, is accepted
and its slots for that die are delivered in order; one that is not good, or with a reserved slot kind, is counted and
makes NAK due; an idle one and one out of sequence deliver nothing. R24, R524: a delivered slot whose turn among those
of its channel, source and destination has come is taken once, and before that its command does nothing (the model's
choice, log 2): a read is answered with its granules or refused, one that meets an uncorrectable granule too (the
model's reading, log 86); a write that announces granules opens and any other is refused; its granules land under their
byte enables; read data and acknowledgements are kept by die and TID (the model's choice, log 118); a TOKEN signals its
token; a bolt goes on to the die's engine, at an I/O die to the injection queue of the die that sent it, or in transit
to its port (R26), with TID 0 (the model's choice, log 210), unless its edition has been retired meanwhile (R407, R408).
A slot of another kind is not the command's, which then does nothing (log 2). Commands shown to complete: leafReceive,
slotRd, slotWr, slotData, slotAck, slotToken, slotBolt. -/
def Obligations.IraleSlots : Prop :=
  (∀ (s : State) (l : Fin 14) (e : LinkEnd) (f : Sys2Proof.Leaf) (par : Nat), s.linkUp l = true →
    let k := match e with
      | .near => 2 * l.val
      | .far => 2 * l.val + 1
    let p := match e with
      | .near => (linkEnds l).1
      | .far => (linkEnds l).2
    let good := leafGood f par = true ∧ ∀ a ∈ f.slots, a.kind < 9
    (good → f.idle = false → f.seq = ((s.side k).rxSeq + 1) % 64 →
      Completes (.leafReceive l e f par) s fun t =>
        (t.side k).rxSeq = f.seq ∧ (t.side k).nak = false ∧
          ((∀ a ∈ f.slots, a.kind ≠ 0 ∧ a.dest = p ∧ (a.kind = 8 → mgmtKnown a = true ∧ isMgmt a 1 = false)) →
            t.irl.arrived.map (·.slot) = s.irl.arrived.map (·.slot) ++ f.slots) ∧ MemKept s t) ∧
    (good → f.idle = true ∨ f.seq ≠ ((s.side k).rxSeq + 1) % 64 →
      Completes (.leafReceive l e f par) s fun t =>
        (t.side k).rxSeq = (s.side k).rxSeq ∧ t.irl.arrived = s.irl.arrived ∧ MemKept s t) ∧
    (¬ good → Completes (.leafReceive l e f par) s fun t =>
      (t.side k).nak = true ∧ (t.side k).rxSeq = (s.side k).rxSeq ∧ t.irl.arrived = s.irl.arrived ∧
        t.fld .irlLinkstat_parityErrs l =
          min (2 ^ Field.irlLinkstat_parityErrs.info.width - 1) (s.fld .irlLinkstat_parityErrs l + 1) ∧
        RegsKept [.irlLinkstat_parityErrs] s t ∧ MemKept s t)) ∧
  (∀ (s : State) (x : Slot), s.takeSlot x = none →
    ∀ c ∈ [.slotRd x, .slotWr x, .slotData x, .slotAck x, .slotToken x], exec c s = .next s) ∧
  (∀ (s u : State) (x : Slot), s.takeSlot x = some u →
    let a := bits x.payload 0 44
    let n := bits x.payload 48 5
    let ack (t : State) (v : Nat) : State := t.slotsOut x.dest x.src 0 1 [⟨4, 0, x.src, x.dest, x.tid, false, v⟩]
    let gone (t : State) : Prop := t.irl.arrived = u.irl.arrived
    (x.kind = 1 →
      (s.dieRequestOk x = true → s.firstPoison a (64 * n) = none →
        exec (.slotRd x) s = .next ((List.range n).foldl (fun t i => t.slotsOut x.dest x.src 0 1
          [⟨3, 0, x.src, x.dest, x.tid, i + 1 == n, s.rd (a + 64 * i) 64⟩]) (u.counted a (64 * n)))) ∧
      (∀ g, s.dieRequestOk x = true → s.firstPoison a (64 * n) = some g →
        exec (.slotRd x) s = .next (ack (u.uncorrectable (64 * g)) 1)) ∧
      (s.dieRequestOk x = false → exec (.slotRd x) s = .next (ack u 1))) ∧
    (x.kind = 2 →
      (n = 0 → exec (.slotWr x) s = .next (ack u 1)) ∧
      (n ≠ 0 → Completes (.slotWr x) s fun t => gone t ∧
        Tab.get ⟨0, 0, true⟩ t.irl.wr (wrKey x) = ⟨x.payload, 0, !s.dieRequestOk x⟩ ∧ RegsKept [] s t ∧ MemKept s t)) ∧
    (x.kind = 3 →
      (∀ w, s.irl.wr.find? (fun q => q.1 == wrKey x) = some (wrKey x, w) → w.bad = false → s.poison = [] →
        let cells := writeCells w.req w.next x.payload
        Completes (.slotData x) s fun t => gone t ∧ (∀ c ∈ cells, t.rdB c.1 = c.2 % 256) ∧
          ∀ b, (∀ c ∈ cells, c.1 ≠ b) → t.rdB b = s.rdB b) ∧
      (s.irl.wr.find? (fun q => q.1 == wrKey x) = none → Completes (.slotData x) s fun t => gone t ∧
        Tab.get [] t.irl.rd (x.dest * 4096 + x.tid) = Tab.get [] s.irl.rd (x.dest * 4096 + x.tid) ++ [x.payload] ∧
          RegsKept [] s t ∧ MemKept s t)) ∧
    (x.kind = 4 → Completes (.slotAck x) s fun t => gone t ∧
      Tab.get 0 t.irl.acks (x.dest * 4096 + x.tid) = bits x.payload 0 8 ∧ RegsKept [] s t ∧ MemKept s t) ∧
    (x.kind = 5 → x.dest < 8 → s.absent x.dest = false → bit x.payload 12 = false →
      s.token x.dest (bits x.payload 0 12) + bits x.payload 16 16 ≤ 1048575 →
      Completes (.slotToken x) s fun t => gone t ∧
        t.token x.dest (bits x.payload 0 12) = s.token x.dest (bits x.payload 0 12) + bits x.payload 16 16 ∧
        RegsKept [.tokEntry_value] s t ∧ MemKept s t)) ∧
  (∀ (s : State) (x : Slot) (c : Instr) (k : Nat), (c, k) ∈ [(.slotRd x, 1), (.slotWr x, 2), (.slotData x, 3),
    (.slotAck x, 4), (.slotToken x, 5)] → x.kind ≠ k → exec c s = .next s) ∧
  (∀ (s u v : State) (x y : Slot), s.takeSlot x = some u → u.takeSlot y = some v → x.kind = 6 → y.kind = 7 →
    let b := boltOf (x.payload % 2 ^ 64) y.payload
    (x.dest < 8 → exec (.slotBolt x y) s =
      .next { v with tor := { v.tor with delivered := v.tor.delivered ++ [b] } }) ∧
    (8 ≤ x.dest → x.src < 8 → exec (.slotBolt x y) s = .next (v.inject x.src b)) ∧
    (8 ≤ x.dest → 8 ≤ x.src →
      (s.roomVia x.dest (s.route b) = false → exec (.slotBolt x y) s = .next s) ∧
      (s.roomVia x.dest (s.route b) = true →
        (v.editionCheck b = none → exec (.slotBolt x y) s = .next (v.bump .torDrops_edition 0 1)) ∧
        (∀ w, v.editionCheck b = some w → exec (.slotBolt x y) s = .next (w.sendVia x.dest b (w.route b)))))) ∧
  (∀ (s : State) (x y : Slot), x.kind ≠ 6 ∨ y.kind ≠ 7 ∨ (∀ u, s.takeSlot x = some u → u.takeSlot y = none) →
    exec (.slotBolt x y) s = .next s)

/-- R524, R531 to R538: management messages and the sideband. STOP holds a die's lists; REPORT and CAP words and the
level are noted during negotiation, with the words and attempts that log 214 takes, and a CRC that disagrees with the
words or with their W15 counts a failed exchange of that end; a register read answers its value, with the effects of a
read (R13), and a write acts by the access codes, before READY too (the model's reading, log 88); an event record
reaches IO0's recorder and a valid verdict is folded. A delivered message whose turn has come is the one acted on, and
leaves its buffer; one that is not yet at its turn waits (the model's choice, log 211); with none delivered the
command's own operands are (the model's choice of log 191). A link trains, and is up once both its ends have passed, or
fails; a repair starts for a group that shows 16 parity failures within 1 ms, each failed check counted (R531; log 213),
and one that passes has mapped the spares that are gone; a copy of local time takes the value sent, and the repeat
brings every copy back to local time. A frame with a wrong parity bit is ignored (R534). Commands shown to complete:
timeSyncRepeat, mgmtStop, report, level, regRd, regData, regWr, mgmtEvent, mgmtVerdict, cap, capAck, trainStart,
trainDone, repairReq, repairDone, timeFrame. -/
def Obligations.IraleMessages : Prop :=
  (∀ (s : State) (d : Fin 8), s.irl.arrived = [] → Completes (.mgmtStop d) s fun t =>
    (∀ e, bit t.irl.held e = (bit s.irl.held e || e == d.val)) ∧ RegsKept [] s t ∧ MemKept s t) ∧
  (∀ (s : State) (d : Fin 8) (x : Arrived), headSlot (fun a => isMgmt a 2 && a.dest == d.val) s.irl.arrived [] = some x →
    Completes (.mgmtStop d) s fun t => bit t.irl.held d = true ∧ t.irl.arrived = s.irl.arrived.erase x ∧
      RegsKept [] s t ∧ MemKept s t) ∧
  (∀ (s : State) (a v : Nat), headSlot (isMgmt · 7) s.irl.arrived [] = none →
    (s.irl.arrived.any fun y => isMgmt y.slot 7) = true → exec (.regWr a v) s = .next s) ∧
  (∀ (s : State) (a v : Nat) (x : Arrived), headSlot (isMgmt · 7) s.irl.arrived [] = some x →
    exec (.regWr a v) s = .next ((s.leave x).mgmtWrite (bits x.slot.payload 16 42) (bits x.slot.payload 64 64))) ∧
  (∀ (s : State) (p : Fin 10), s.inPhase 3 = true → s.outside p = false →
    (∀ l : List Nat, l.length = 16 → s.irl.arrived = [] → Completes (.report p l) s fun t =>
      (∀ k, k < 16 → t.fld .irlCap_word (16 * p.val + k) = l.getD k 0 % 2 ^ 32) ∧ RegsKept [.irlCap_word] s t ∧
        MemKept s t) ∧
    (∀ (l : Fin 14) (f i w : Nat), s.outside (linkEnds l).1 = false → s.outside (linkEnds l).2 = false →
      p.val = (linkEnds l).1 ∨ p.val = (linkEnds l).2 → sbRead f = some (0, i, w) → Completes (.cap p l f) s fun t =>
      t.fld .irlCap_word (16 * p.val + i) = w ∧
        (∀ j, j ≠ 16 * p.val + i → t.fld .irlCap_word j = s.fld .irlCap_word j) ∧ RegsKept [.irlCap_word] s t ∧
        MemKept s t)) ∧
  (∀ (s : State) (e : SideEnd) (f crc : Nat), s.inPhase 3 = true → sbData 1 0 f = some crc →
    let q := (sidePeer e).1
    let p := (sidePeer e).2
    Completes (.capAck e f) s fun t =>
    Tab.get 0 t.irl.attempts q = (if crc = crc32 (capBytes (s.capHeld p)) ∧ crc = s.capHeld p 15 then
      Tab.get 0 s.irl.attempts q else min 3 (Tab.get 0 s.irl.attempts q + 1)) ∧ RegsKept [] s t ∧ MemKept s t) ∧
  (∀ (s : State) (m : Nat), s.inPhase 3 = true → s.irl.arrived = [] → Completes (.level m) s fun t =>
    (∀ f ∈ Reg.irlLevel.fields, t.fld f 0 = bits (bits m 16 64) f.info.lo f.info.width) ∧
      t.irl.levelDies = bits m 80 9 ∧ t.fld .orgIdent_cdJoined 0 = s.fld .orgIdent_cdJoined 0 ∧
      t.fld .orgIdent_io1Joined 0 = s.fld .orgIdent_io1Joined 0 ∧ MemKept s t) ∧
  (∀ (s : State) (a : Nat), s.irl.arrived = [] →
    (controlOff (a % 2 ^ 42) = none → exec (.regRd a) s = .next (s.answered 8 0)) ∧
    (∀ (off : Nat) (r : Reg) (i b : Nat), controlOff (a % 2 ^ 42) = some off → s.blockLive off = true →
      regAt off = some (r, i, b) → r ≠ .timeNow → r ≠ .secNonce → Completes (.regRd a) s fun t =>
        Tab.get 0 t.irl.regData 8 = s.viewBytes off 8 ∧
        (∀ f ∈ r.fields, f.info.acc = .rc → 8 * b ≤ f.info.lo → f.info.lo + f.info.width ≤ 8 * (b + 8) →
          t.fld f i = f.reset) ∧
        (∀ f j, f ∉ r.fields ∨ f.info.acc ≠ .rc ∨ j ≠ i → t.fld f j = s.fld f j) ∧ MemKept s t)) ∧
  (∀ (s : State) (m : Nat), s.irl.arrived = [] → exec (.regData m) s = .next (s.answered 8 (bits m 64 64))) ∧
  (∀ (s : State) (a v off : Nat) (r : Reg) (i b : Nat), s.irl.arrived = [] → controlOff (a % 2 ^ 42) = some off →
    s.blockLive off = true → regAt off = some (r, i, b) → r ∉ actingRegs → Completes (.regWr a v) s fun t =>
      (∀ f ∈ r.fields, f.info.acc = .rw → 8 * b ≤ f.info.lo → f.info.lo + f.info.width ≤ 8 * (b + 8) →
        t.fld f i = bits v (f.info.lo - 8 * b) f.info.width) ∧
      (∀ f j, f ∉ r.fields ∨ j ≠ i → t.fld f j = s.fld f j) ∧ MemKept s t) ∧
  (∀ (s : State) (v : Nat), s.irl.arrived = [] → s.recorder.queue.length < 1024 → exec (.mgmtEvent v) s =
    .next { s with recorder := { s.recorder with queue := s.recorder.queue ++ [reportOf (v % 2 ^ 512)] } }) ∧
  (∀ (s : State) (v : Nat), s.irl.arrived = [] → bit v 2 = true → s.jobRuns = false →
    Completes (.mgmtVerdict v) s fun t =>
    t.flag .colVerdict_valid 0 = true ∧
      t.flag .colVerdict_nonfinite 0 = (bit v 0 || s.flag .colVerdict_nonfinite 0) ∧
      (s.flag .colVerdict_valid 0 = false → t.fld .colVerdict_stepMin 0 = bits v 32 32 ∧
        t.fld .colVerdict_stepMax 0 = bits v 64 32) ∧ MemKept s t) ∧
  (∀ (s : State) (l : Fin 14) (f v : Nat) (bad : List BadWire), s.inPhase 3 = true →
    s.outside (linkEnds l).1 = false → s.outside (linkEnds l).2 = false → sbData 1 1 f = some v →
    Completes (.trainStart ⟨l, f, bad⟩) s fun t =>
      t.fld .irlLinkstat_state l = 1 ∧ t.irl.badWires = s.irl.badWires ++ bad.map (fun w => (l.val, w)) ∧
        (∀ q ∈ t.irl.trained, q.1 / 2 ≠ l.val) ∧ RegsKept [.irlLinkstat_state] s t ∧ MemKept s t) ∧
  (∀ (s : State) (e : SideEnd) (f v : Nat), s.inPhase 3 = true → s.fld .irlLinkstat_state e.link = 1 →
    sbData 1 2 f = some v → Completes (.trainDone e f) s fun t =>
      let said := t.irl.trained.filter fun q => q.1 / 2 == e.link.val
      t.irl.trained = Tab.upd s.irl.trained (sideNum e) (bits v 0 8) ∧
      t.fld .irlLinkstat_state e.link =
        (if trainFails (s.badOf e.link) = true ∨ (said.any fun q => !bit q.2 7) = true then 0
        else if said.length < 2 then 1 else 2) ∧
      RegsKept [.irlLinkstat_state, .irlLinkstat_sparesUsed] s t ∧ MemKept s t) ∧
  (∀ (s : State) (l : Fin 14) (f v : Nat), s.linkUp l = true → s.commitFlies = false → sbData 1 3 f = some v →
    (s.repairDue l (bits v 0 5) = true → Completes (.repairReq l f) s fun t =>
      t.flag .irlLinkstat_repairing l = true ∧
        t.irl.repair = Tab.upd s.irl.repair l (s.repairEnd l (bits v 0 5), bits v 0 5) ∧
        RegsKept [.irlLinkstat_repairing] s t ∧ MemKept s t) ∧
    (s.repairDue l (bits v 0 5) = false → exec (.repairReq l f) s = .next s)) ∧
  (∀ (s : State) (l : Fin 14) (f v k : Nat), s.flag .irlLinkstat_repairing l = true → s.refclkLost = false →
    sbData 1 4 f = some v → s.irl.repair.find? (fun p => p.1 == l.val) = some (l.val, k, bits v 0 5) →
    let before := s.groupLeft k (Fin.ofNat 32 (bits v 0 5))
    let left := min before (bits v 5 2)
    Completes (.repairDone l f) s fun t => t.flag .irlLinkstat_repairing l = false ∧
      (bit v 7 = true → t.fld .irlLinkstat_repairs l =
        min (2 ^ Field.irlLinkstat_repairs.info.width - 1) (s.fld .irlLinkstat_repairs l + 1) ∧
        t.fld .irlLinkstat_minLeft l = min (s.fld .irlLinkstat_minLeft l) left ∧
        t.fld .irlLinkstat_sparesUsed l = min 128 (s.fld .irlLinkstat_sparesUsed l + (before - left)) ∧ MemKept s t) ∧
      (bit v 7 = false → t.fld .irlLinkstat_state l = 0)) ∧
  (∀ (s : State) (p : Fin 10) (lo hi a b : Nat), p.val ≠ 8 → s.posOk p = true → s.refclkLost = false → sbData 2 0 lo = some a →
    sbData 2 1 hi = some b →
    Completes (.timeFrame p lo hi) s fun t => t.timeAt p = a + b * 2 ^ 32 ∧ MemKept s t) ∧
  (∀ (s : State) (p : Fin 10) (e : SideEnd) (l : Fin 14) (f g : Nat) (bad : List BadWire), sbRead f = none →
    ∀ c ∈ [.cap p l f, .capAck e f, .trainStart ⟨l, f, bad⟩, .trainDone e f, .repairReq l f, .repairDone l f,
      .timeFrame p f g, .timeFrame p g f], exec c s = .next s) ∧
  (∀ s : State, s.perst = false → s.refclkLost = false → Completes .timeSyncRepeat s fun t =>
    (∀ p, p < 10 → p ≠ 8 → s.posOk p = true → t.timeAt p = s.now % 2 ^ 64) ∧ MemKept s t)

/-! ## Sideband -/

/-- R588, R650 to R652, R654: the telemetry map is refreshed; from the end of ROM start the I3C target takes its offset,
answers bytes from it, takes and loses its dynamic address, and enables and disables in-band interrupts (what ENTDAA,
SETDASA and RSTDAA do to the address, and a read to the offset, is taken from I3C Basic, log 81); the answers whose
contents the spec does not give are some number of their width (free, R650). A JTAG instruction is the one in force, and
the boundary ones act only while PERST_N is asserted; an internal read answers memory, and the cells of a gathering
(R187) at the addresses that log 82 chooses for them, in BLANK, PROVISIONED and SERVICE and 0 in the other states, and
an internal write acts in BLANK alone. Commands shown to complete: telemetryRefresh, i3cPrivateWrite, i3cPrivateRead,
entdaa, setdasa, rstdaa, getpid, getbcr, getdcr, getstatus, getmwl, getmrl, enec, disec, bypass, idcode, samplePreload,
extest, extestPulse, extestTrain, clamp, highz, jtagInternalRead, jtagInternalWrite. -/
def Obligations.Sideband : Prop :=
  (∀ s : State, s.perst = false → exec .telemetryRefresh s =
    .next { s with hif := { s.hif with telemetry := s.telemetryMap } }) ∧
  (∀ s : State, s.i3cServes = true →
    (∀ (b : Nat) (l : List Nat), exec (.i3cPrivateWrite (b :: l)) s =
      .next { s with hif := { s.hif with i3cOff := b % 256 % 64 } }) ∧
    (∀ n, exec (.i3cPrivateRead n) s = .next { s with hif := { s.hif with
      resp := .bytes ((List.range n).map fun i => s.telemetryByte (s.hif.i3cOff + i)) } }) ∧
    (∀ a, s.hif.i3cDyn = 0 → ∀ c ∈ [.entdaa a, .setdasa a],
      exec c s = .next { s with hif := { s.hif with i3cDyn := a % 128 } }) ∧
    exec .rstdaa s = .next { s with hif := { s.hif with i3cDyn := 0 } } ∧
    exec .enec s = .next { s with hif := { s.hif with ibi := true } } ∧
    exec .disec s = .next { s with hif := { s.hif with ibi := false } } ∧
    (∀ c w, (c, w) ∈ [(.getpid, 48), (.getbcr, 8), (.getdcr, 8), (.getstatus, 16), (.getmwl, 16), (.getmrl, 16)] →
      Completes c s fun t => (∃ v, v < 2 ^ w ∧ t.hif.resp = .data v) ∧ RegsKept [] s t ∧ MemKept s t)) ∧
  (∀ s : State,
    (∀ c j, (c, j) ∈ [(.bypass, Jtag.bypass), (.idcode, .idcode), (.extest, .extest), (.extestPulse, .extestPulse),
        (.extestTrain, .extestTrain), (.clamp, .clamp), (.highz, .highz)] →
      Completes c s fun t => t.hif.jtag = j.num ∧ t.jtagActs = (if 3 ≤ j.num ∧ s.perst = false then 0 else j.num) ∧
        t.hif.scan = s.hif.scan ∧ RegsKept [] s t ∧ MemKept s t) ∧
    Completes .idcode s (fun t => ∃ v, t.hif.resp = .data v ∧ bits v 12 16 = 0x5E80 ∧ bit v 0 = true) ∧
    Completes .bypass s (fun t => t.hif.resp = .data 0) ∧
    (∀ x, Completes (.samplePreload x) s fun t =>
      t.hif.jtag = Jtag.num .sample ∧ t.hif.scan = x ∧ RegsKept [] s t ∧ MemKept s t)) ∧
  (∀ (s : State) (a : Nat), s.perst = false →
    (s.fuses.state ∈ [0, 1, 3] → s.dram (a / 8 * 8) 8 = true → s.poisoned (a / 8 * 8) 8 = false →
      Completes (.jtagInternalRead a) s fun t =>
        t.hif.resp = .data (s.rd (a / 8 * 8) 8) ∧ RegsKept correctedFields s t ∧ MemKept s t) ∧
    (s.fuses.state ∈ [0, 1, 3] → 2 ^ 48 ≤ a →
      let x := cellAddr (a / 8 * 8)
      x.reg < 6 → s.absent (x.gath / 8) = false → Completes (.jtagInternalRead a) s fun t =>
        t.hif.resp = .data (s.cellState (s.gath (x.gath / 8) (x.gath % 8)).core x.face x.row x.col x.slice x.reg x.elem) ∧
          RegsKept [] s t ∧ MemKept s t) ∧
    (s.fuses.state ∉ [0, 1, 3] → Completes (.jtagInternalRead a) s fun t =>
        t.hif.resp = .data 0 ∧ RegsKept [] s t ∧ MemKept s t) ∧
    (∀ v, s.fuses.state = 0 → s.dram (a / 8 * 8) 8 = true → s.poison = [] → Completes (.jtagInternalWrite a v) s fun t =>
        t.rd (a / 8 * 8) 8 = v % 2 ^ 64 ∧ MemKeptOutside (a / 8 * 8) 8 s t ∧ RegsKept correctedFields s t) ∧
    (∀ v, s.fuses.state ≠ 0 → exec (.jtagInternalWrite a v) s = .next s))

/-! ## Wire forms -/

/-- R377, R378, R383, R521, R522, R534: reading what was written gives back every well-formed bolt from its 72 bytes,
raft from its link word, slot from its tag and payload, leaf from its 1,024 bytes, with EMPTY slots behind those it
carries, and sideband frame from its 42 bits; a frame with one bit wrong is not read. -/
def Obligations.WireForms : Prop :=
  (∀ b : Bolt, b.wf = true → boltOfWire (boltWire b) = b) ∧
  (∀ r : Raft, r.wf = true → raftOf (linkWord r) r.skip r.bolts = r) ∧
  (∀ x : Slot, x.wf = true → slotOf (slotTag x) x.payload = x) ∧
  (∀ l : Sys2Proof.Leaf, l.wf = true → leafOf (leafBytes l) = { l with slots := leafSlots l }) ∧
  (∀ t i d : Nat, t < 4 → i < 16 → d < 2 ^ 32 → sbRead (sbFrame t i d) = some (t, i, d) ∧
    ∀ k, k < 42 → sbRead (sbFrame t i d ^^^ 2 ^ k) = none)
end

