-- ==== Sys2Proof/Laws/State.lean ====
section
/-! SUPPORT. What each plain update of the state leaves alone: one lemma for each field and update, true by definition. -/

namespace Sys2Proof.Machine

variable (s : State)

/-! ### setFld -/

@[simp] theorem State.setFld_eff (f : Field) (i v : Nat) : (s.setFld f i v).eff = s.eff := rfl
@[simp] theorem State.setFld_mem (f : Field) (i v : Nat) : (s.setFld f i v).mem = s.mem := rfl
@[simp] theorem State.setFld_poison (f : Field) (i v : Nat) : (s.setFld f i v).poison = s.poison := rfl
@[simp] theorem State.setFld_okWords (f : Field) (i v : Nat) : (s.setFld f i v).okWords = s.okWords := rfl
@[simp] theorem State.setFld_symErr (f : Field) (i v : Nat) : (s.setFld f i v).symErr = s.symErr := rfl
@[simp] theorem State.setFld_host (f : Field) (i v : Nat) : (s.setFld f i v).host = s.host := rfl
@[simp] theorem State.setFld_fuses (f : Field) (i v : Nat) : (s.setFld f i v).fuses = s.fuses := rfl
@[simp] theorem State.setFld_nvm (f : Field) (i v : Nat) : (s.setFld f i v).nvm = s.nvm := rfl
@[simp] theorem State.setFld_recorder (f : Field) (i v : Nat) : (s.setFld f i v).recorder = s.recorder := rfl
@[simp] theorem State.setFld_job (f : Field) (i v : Nat) : (s.setFld f i v).job = s.job := rfl
@[simp] theorem State.setFld_hif (f : Field) (i v : Nat) : (s.setFld f i v).hif = s.hif := rfl
@[simp] theorem State.setFld_gaths (f : Field) (i v : Nat) : (s.setFld f i v).gaths = s.gaths := rfl
@[simp] theorem State.setFld_queues (f : Field) (i v : Nat) : (s.setFld f i v).queues = s.queues := rfl
@[simp] theorem State.setFld_yarders (f : Field) (i v : Nat) : (s.setFld f i v).yarders = s.yarders := rfl
@[simp] theorem State.setFld_colls (f : Field) (i v : Nat) : (s.setFld f i v).colls = s.colls := rfl
@[simp] theorem State.setFld_dies (f : Field) (i v : Nat) : (s.setFld f i v).dies = s.dies := rfl
@[simp] theorem State.setFld_signals (f : Field) (i v : Nat) : (s.setFld f i v).signals = s.signals := rfl
@[simp] theorem State.setFld_mtok (f : Field) (i v : Nat) : (s.setFld f i v).mtok = s.mtok := rfl
@[simp] theorem State.setFld_mOvf (f : Field) (i v : Nat) : (s.setFld f i v).mOvf = s.mOvf := rfl
@[simp] theorem State.setFld_tor (f : Field) (i v : Nat) : (s.setFld f i v).tor = s.tor := rfl
@[simp] theorem State.setFld_irl (f : Field) (i v : Nat) : (s.setFld f i v).irl = s.irl := rfl
@[simp] theorem State.setFld_mons (f : Field) (i v : Nat) : (s.setFld f i v).mons = s.mons := rfl
@[simp] theorem State.setFld_monEnds (f : Field) (i v : Nat) : (s.setFld f i v).monEnds = s.monEnds := rfl
@[simp] theorem State.setFld_waits (f : Field) (i v : Nat) : (s.setFld f i v).waits = s.waits := rfl
@[simp] theorem State.setFld_now (f : Field) (i v : Nat) : (s.setFld f i v).now = s.now := rfl
@[simp] theorem State.setFld_perst (f : Field) (i v : Nat) : (s.setFld f i v).perst = s.perst := rfl
@[simp] theorem State.setFld_slot (f : Field) (i v : Nat) : (s.setFld f i v).slot = s.slot := rfl
@[simp] theorem State.setFld_badRamp (f : Field) (i v : Nat) : (s.setFld f i v).badRamp = s.badRamp := rfl
@[simp] theorem State.setFld_rampCure (f : Field) (i v : Nat) : (s.setFld f i v).rampCure = s.rampCure := rfl
@[simp] theorem State.setFld_railUntil (f : Field) (i v : Nat) : (s.setFld f i v).railUntil = s.railUntil := rfl
@[simp] theorem State.setFld_dead (f : Field) (i v : Nat) : (s.setFld f i v).dead = s.dead := rfl
@[simp] theorem State.setFld_tripped (f : Field) (i v : Nat) : (s.setFld f i v).tripped = s.tripped := rfl
@[simp] theorem State.setFld_thermTripN (f : Field) (i v : Nat) : (s.setFld f i v).thermTripN = s.thermTripN := rfl
@[simp] theorem State.setFld_refclkLost (f : Field) (i v : Nat) : (s.setFld f i v).refclkLost = s.refclkLost := rfl
@[simp] theorem State.setFld_lpLost (f : Field) (i v : Nat) : (s.setFld f i v).lpLost = s.lpLost := rfl
@[simp] theorem State.setFld_image (f : Field) (i v : Nat) : (s.setFld f i v).image = s.image := rfl
@[simp] theorem State.setFld_imageSvn (f : Field) (i v : Nat) : (s.setFld f i v).imageSvn = s.imageSvn := rfl
@[simp] theorem State.setFld_imageDigest (f : Field) (i v : Nat) : (s.setFld f i v).imageDigest = s.imageDigest := rfl
@[simp] theorem State.setFld_idKey (f : Field) (i v : Nat) : (s.setFld f i v).idKey = s.idKey := rfl
@[simp] theorem State.setFld_attest (f : Field) (i v : Nat) : (s.setFld f i v).attest = s.attest := rfl
@[simp] theorem State.setFld_bundle (f : Field) (i v : Nat) : (s.setFld f i v).bundle = s.bundle := rfl
@[simp] theorem State.setFld_bundleCopy (f : Field) (i v : Nat) : (s.setFld f i v).bundleCopy = s.bundleCopy := rfl
@[simp] theorem State.setFld_nonce (f : Field) (i v : Nat) : (s.setFld f i v).nonce = s.nonce := rfl
@[simp] theorem State.setFld_tierSize (f : Field) (i v : Nat) : (s.setFld f i v).tierSize = s.tierSize := rfl
@[simp] theorem State.setFld_powerUw (f : Field) (i v : Nat) : (s.setFld f i v).powerUw = s.powerUw := rfl
@[simp] theorem State.setFld_rails (f : Field) (i v : Nat) : (s.setFld f i v).rails = s.rails := rfl
@[simp] theorem State.setFld_avsFails (f : Field) (i v : Nat) : (s.setFld f i v).avsFails = s.avsFails := rfl
@[simp] theorem State.setFld_fresh (f : Field) (i v : Nat) : (s.setFld f i v).fresh = s.fresh := rfl
@[simp] theorem State.setFld_pending (f : Field) (i v : Nat) : (s.setFld f i v).pending = s.pending := rfl

/-! ### resetFld -/

@[simp] theorem State.resetFld_eff (f : Field) (i : Nat) : (s.resetFld f i).eff = s.eff := rfl
@[simp] theorem State.resetFld_mem (f : Field) (i : Nat) : (s.resetFld f i).mem = s.mem := rfl
@[simp] theorem State.resetFld_poison (f : Field) (i : Nat) : (s.resetFld f i).poison = s.poison := rfl
@[simp] theorem State.resetFld_okWords (f : Field) (i : Nat) : (s.resetFld f i).okWords = s.okWords := rfl
@[simp] theorem State.resetFld_symErr (f : Field) (i : Nat) : (s.resetFld f i).symErr = s.symErr := rfl
@[simp] theorem State.resetFld_host (f : Field) (i : Nat) : (s.resetFld f i).host = s.host := rfl
@[simp] theorem State.resetFld_fuses (f : Field) (i : Nat) : (s.resetFld f i).fuses = s.fuses := rfl
@[simp] theorem State.resetFld_nvm (f : Field) (i : Nat) : (s.resetFld f i).nvm = s.nvm := rfl
@[simp] theorem State.resetFld_recorder (f : Field) (i : Nat) : (s.resetFld f i).recorder = s.recorder := rfl
@[simp] theorem State.resetFld_job (f : Field) (i : Nat) : (s.resetFld f i).job = s.job := rfl
@[simp] theorem State.resetFld_hif (f : Field) (i : Nat) : (s.resetFld f i).hif = s.hif := rfl
@[simp] theorem State.resetFld_gaths (f : Field) (i : Nat) : (s.resetFld f i).gaths = s.gaths := rfl
@[simp] theorem State.resetFld_queues (f : Field) (i : Nat) : (s.resetFld f i).queues = s.queues := rfl
@[simp] theorem State.resetFld_yarders (f : Field) (i : Nat) : (s.resetFld f i).yarders = s.yarders := rfl
@[simp] theorem State.resetFld_colls (f : Field) (i : Nat) : (s.resetFld f i).colls = s.colls := rfl
@[simp] theorem State.resetFld_dies (f : Field) (i : Nat) : (s.resetFld f i).dies = s.dies := rfl
@[simp] theorem State.resetFld_signals (f : Field) (i : Nat) : (s.resetFld f i).signals = s.signals := rfl
@[simp] theorem State.resetFld_mtok (f : Field) (i : Nat) : (s.resetFld f i).mtok = s.mtok := rfl
@[simp] theorem State.resetFld_mOvf (f : Field) (i : Nat) : (s.resetFld f i).mOvf = s.mOvf := rfl
@[simp] theorem State.resetFld_tor (f : Field) (i : Nat) : (s.resetFld f i).tor = s.tor := rfl
@[simp] theorem State.resetFld_irl (f : Field) (i : Nat) : (s.resetFld f i).irl = s.irl := rfl
@[simp] theorem State.resetFld_mons (f : Field) (i : Nat) : (s.resetFld f i).mons = s.mons := rfl
@[simp] theorem State.resetFld_monEnds (f : Field) (i : Nat) : (s.resetFld f i).monEnds = s.monEnds := rfl
@[simp] theorem State.resetFld_waits (f : Field) (i : Nat) : (s.resetFld f i).waits = s.waits := rfl
@[simp] theorem State.resetFld_now (f : Field) (i : Nat) : (s.resetFld f i).now = s.now := rfl
@[simp] theorem State.resetFld_perst (f : Field) (i : Nat) : (s.resetFld f i).perst = s.perst := rfl
@[simp] theorem State.resetFld_slot (f : Field) (i : Nat) : (s.resetFld f i).slot = s.slot := rfl
@[simp] theorem State.resetFld_badRamp (f : Field) (i : Nat) : (s.resetFld f i).badRamp = s.badRamp := rfl
@[simp] theorem State.resetFld_rampCure (f : Field) (i : Nat) : (s.resetFld f i).rampCure = s.rampCure := rfl
@[simp] theorem State.resetFld_railUntil (f : Field) (i : Nat) : (s.resetFld f i).railUntil = s.railUntil := rfl
@[simp] theorem State.resetFld_dead (f : Field) (i : Nat) : (s.resetFld f i).dead = s.dead := rfl
@[simp] theorem State.resetFld_tripped (f : Field) (i : Nat) : (s.resetFld f i).tripped = s.tripped := rfl
@[simp] theorem State.resetFld_thermTripN (f : Field) (i : Nat) : (s.resetFld f i).thermTripN = s.thermTripN := rfl
@[simp] theorem State.resetFld_refclkLost (f : Field) (i : Nat) : (s.resetFld f i).refclkLost = s.refclkLost := rfl
@[simp] theorem State.resetFld_lpLost (f : Field) (i : Nat) : (s.resetFld f i).lpLost = s.lpLost := rfl
@[simp] theorem State.resetFld_image (f : Field) (i : Nat) : (s.resetFld f i).image = s.image := rfl
@[simp] theorem State.resetFld_imageSvn (f : Field) (i : Nat) : (s.resetFld f i).imageSvn = s.imageSvn := rfl
@[simp] theorem State.resetFld_imageDigest (f : Field) (i : Nat) : (s.resetFld f i).imageDigest = s.imageDigest := rfl
@[simp] theorem State.resetFld_idKey (f : Field) (i : Nat) : (s.resetFld f i).idKey = s.idKey := rfl
@[simp] theorem State.resetFld_attest (f : Field) (i : Nat) : (s.resetFld f i).attest = s.attest := rfl
@[simp] theorem State.resetFld_bundle (f : Field) (i : Nat) : (s.resetFld f i).bundle = s.bundle := rfl
@[simp] theorem State.resetFld_bundleCopy (f : Field) (i : Nat) : (s.resetFld f i).bundleCopy = s.bundleCopy := rfl
@[simp] theorem State.resetFld_nonce (f : Field) (i : Nat) : (s.resetFld f i).nonce = s.nonce := rfl
@[simp] theorem State.resetFld_tierSize (f : Field) (i : Nat) : (s.resetFld f i).tierSize = s.tierSize := rfl
@[simp] theorem State.resetFld_powerUw (f : Field) (i : Nat) : (s.resetFld f i).powerUw = s.powerUw := rfl
@[simp] theorem State.resetFld_rails (f : Field) (i : Nat) : (s.resetFld f i).rails = s.rails := rfl
@[simp] theorem State.resetFld_avsFails (f : Field) (i : Nat) : (s.resetFld f i).avsFails = s.avsFails := rfl
@[simp] theorem State.resetFld_fresh (f : Field) (i : Nat) : (s.resetFld f i).fresh = s.fresh := rfl
@[simp] theorem State.resetFld_pending (f : Field) (i : Nat) : (s.resetFld f i).pending = s.pending := rfl

/-! ### apply -/

@[simp] theorem State.apply_rf (f : Field) (i : Nat) : (s.apply f i).rf = s.rf := rfl
@[simp] theorem State.apply_mem (f : Field) (i : Nat) : (s.apply f i).mem = s.mem := rfl
@[simp] theorem State.apply_poison (f : Field) (i : Nat) : (s.apply f i).poison = s.poison := rfl
@[simp] theorem State.apply_okWords (f : Field) (i : Nat) : (s.apply f i).okWords = s.okWords := rfl
@[simp] theorem State.apply_symErr (f : Field) (i : Nat) : (s.apply f i).symErr = s.symErr := rfl
@[simp] theorem State.apply_host (f : Field) (i : Nat) : (s.apply f i).host = s.host := rfl
@[simp] theorem State.apply_fuses (f : Field) (i : Nat) : (s.apply f i).fuses = s.fuses := rfl
@[simp] theorem State.apply_nvm (f : Field) (i : Nat) : (s.apply f i).nvm = s.nvm := rfl
@[simp] theorem State.apply_recorder (f : Field) (i : Nat) : (s.apply f i).recorder = s.recorder := rfl
@[simp] theorem State.apply_job (f : Field) (i : Nat) : (s.apply f i).job = s.job := rfl
@[simp] theorem State.apply_hif (f : Field) (i : Nat) : (s.apply f i).hif = s.hif := rfl
@[simp] theorem State.apply_gaths (f : Field) (i : Nat) : (s.apply f i).gaths = s.gaths := rfl
@[simp] theorem State.apply_queues (f : Field) (i : Nat) : (s.apply f i).queues = s.queues := rfl
@[simp] theorem State.apply_yarders (f : Field) (i : Nat) : (s.apply f i).yarders = s.yarders := rfl
@[simp] theorem State.apply_colls (f : Field) (i : Nat) : (s.apply f i).colls = s.colls := rfl
@[simp] theorem State.apply_dies (f : Field) (i : Nat) : (s.apply f i).dies = s.dies := rfl
@[simp] theorem State.apply_signals (f : Field) (i : Nat) : (s.apply f i).signals = s.signals := rfl
@[simp] theorem State.apply_mtok (f : Field) (i : Nat) : (s.apply f i).mtok = s.mtok := rfl
@[simp] theorem State.apply_mOvf (f : Field) (i : Nat) : (s.apply f i).mOvf = s.mOvf := rfl
@[simp] theorem State.apply_tor (f : Field) (i : Nat) : (s.apply f i).tor = s.tor := rfl
@[simp] theorem State.apply_irl (f : Field) (i : Nat) : (s.apply f i).irl = s.irl := rfl
@[simp] theorem State.apply_mons (f : Field) (i : Nat) : (s.apply f i).mons = s.mons := rfl
@[simp] theorem State.apply_monEnds (f : Field) (i : Nat) : (s.apply f i).monEnds = s.monEnds := rfl
@[simp] theorem State.apply_waits (f : Field) (i : Nat) : (s.apply f i).waits = s.waits := rfl
@[simp] theorem State.apply_now (f : Field) (i : Nat) : (s.apply f i).now = s.now := rfl
@[simp] theorem State.apply_perst (f : Field) (i : Nat) : (s.apply f i).perst = s.perst := rfl
@[simp] theorem State.apply_slot (f : Field) (i : Nat) : (s.apply f i).slot = s.slot := rfl
@[simp] theorem State.apply_badRamp (f : Field) (i : Nat) : (s.apply f i).badRamp = s.badRamp := rfl
@[simp] theorem State.apply_rampCure (f : Field) (i : Nat) : (s.apply f i).rampCure = s.rampCure := rfl
@[simp] theorem State.apply_railUntil (f : Field) (i : Nat) : (s.apply f i).railUntil = s.railUntil := rfl
@[simp] theorem State.apply_dead (f : Field) (i : Nat) : (s.apply f i).dead = s.dead := rfl
@[simp] theorem State.apply_tripped (f : Field) (i : Nat) : (s.apply f i).tripped = s.tripped := rfl
@[simp] theorem State.apply_thermTripN (f : Field) (i : Nat) : (s.apply f i).thermTripN = s.thermTripN := rfl
@[simp] theorem State.apply_refclkLost (f : Field) (i : Nat) : (s.apply f i).refclkLost = s.refclkLost := rfl
@[simp] theorem State.apply_lpLost (f : Field) (i : Nat) : (s.apply f i).lpLost = s.lpLost := rfl
@[simp] theorem State.apply_image (f : Field) (i : Nat) : (s.apply f i).image = s.image := rfl
@[simp] theorem State.apply_imageSvn (f : Field) (i : Nat) : (s.apply f i).imageSvn = s.imageSvn := rfl
@[simp] theorem State.apply_imageDigest (f : Field) (i : Nat) : (s.apply f i).imageDigest = s.imageDigest := rfl
@[simp] theorem State.apply_idKey (f : Field) (i : Nat) : (s.apply f i).idKey = s.idKey := rfl
@[simp] theorem State.apply_attest (f : Field) (i : Nat) : (s.apply f i).attest = s.attest := rfl
@[simp] theorem State.apply_bundle (f : Field) (i : Nat) : (s.apply f i).bundle = s.bundle := rfl
@[simp] theorem State.apply_bundleCopy (f : Field) (i : Nat) : (s.apply f i).bundleCopy = s.bundleCopy := rfl
@[simp] theorem State.apply_nonce (f : Field) (i : Nat) : (s.apply f i).nonce = s.nonce := rfl
@[simp] theorem State.apply_tierSize (f : Field) (i : Nat) : (s.apply f i).tierSize = s.tierSize := rfl
@[simp] theorem State.apply_powerUw (f : Field) (i : Nat) : (s.apply f i).powerUw = s.powerUw := rfl
@[simp] theorem State.apply_rails (f : Field) (i : Nat) : (s.apply f i).rails = s.rails := rfl
@[simp] theorem State.apply_avsFails (f : Field) (i : Nat) : (s.apply f i).avsFails = s.avsFails := rfl
@[simp] theorem State.apply_fresh (f : Field) (i : Nat) : (s.apply f i).fresh = s.fresh := rfl
@[simp] theorem State.apply_pending (f : Field) (i : Nat) : (s.apply f i).pending = s.pending := rfl

/-! ### bump -/

@[simp] theorem State.bump_eff (f : Field) (i n : Nat) : (s.bump f i n).eff = s.eff := rfl
@[simp] theorem State.bump_mem (f : Field) (i n : Nat) : (s.bump f i n).mem = s.mem := rfl
@[simp] theorem State.bump_poison (f : Field) (i n : Nat) : (s.bump f i n).poison = s.poison := rfl
@[simp] theorem State.bump_okWords (f : Field) (i n : Nat) : (s.bump f i n).okWords = s.okWords := rfl
@[simp] theorem State.bump_symErr (f : Field) (i n : Nat) : (s.bump f i n).symErr = s.symErr := rfl
@[simp] theorem State.bump_host (f : Field) (i n : Nat) : (s.bump f i n).host = s.host := rfl
@[simp] theorem State.bump_fuses (f : Field) (i n : Nat) : (s.bump f i n).fuses = s.fuses := rfl
@[simp] theorem State.bump_nvm (f : Field) (i n : Nat) : (s.bump f i n).nvm = s.nvm := rfl
@[simp] theorem State.bump_recorder (f : Field) (i n : Nat) : (s.bump f i n).recorder = s.recorder := rfl
@[simp] theorem State.bump_job (f : Field) (i n : Nat) : (s.bump f i n).job = s.job := rfl
@[simp] theorem State.bump_hif (f : Field) (i n : Nat) : (s.bump f i n).hif = s.hif := rfl
@[simp] theorem State.bump_gaths (f : Field) (i n : Nat) : (s.bump f i n).gaths = s.gaths := rfl
@[simp] theorem State.bump_queues (f : Field) (i n : Nat) : (s.bump f i n).queues = s.queues := rfl
@[simp] theorem State.bump_yarders (f : Field) (i n : Nat) : (s.bump f i n).yarders = s.yarders := rfl
@[simp] theorem State.bump_colls (f : Field) (i n : Nat) : (s.bump f i n).colls = s.colls := rfl
@[simp] theorem State.bump_dies (f : Field) (i n : Nat) : (s.bump f i n).dies = s.dies := rfl
@[simp] theorem State.bump_signals (f : Field) (i n : Nat) : (s.bump f i n).signals = s.signals := rfl
@[simp] theorem State.bump_mtok (f : Field) (i n : Nat) : (s.bump f i n).mtok = s.mtok := rfl
@[simp] theorem State.bump_mOvf (f : Field) (i n : Nat) : (s.bump f i n).mOvf = s.mOvf := rfl
@[simp] theorem State.bump_tor (f : Field) (i n : Nat) : (s.bump f i n).tor = s.tor := rfl
@[simp] theorem State.bump_irl (f : Field) (i n : Nat) : (s.bump f i n).irl = s.irl := rfl
@[simp] theorem State.bump_mons (f : Field) (i n : Nat) : (s.bump f i n).mons = s.mons := rfl
@[simp] theorem State.bump_monEnds (f : Field) (i n : Nat) : (s.bump f i n).monEnds = s.monEnds := rfl
@[simp] theorem State.bump_waits (f : Field) (i n : Nat) : (s.bump f i n).waits = s.waits := rfl
@[simp] theorem State.bump_now (f : Field) (i n : Nat) : (s.bump f i n).now = s.now := rfl
@[simp] theorem State.bump_perst (f : Field) (i n : Nat) : (s.bump f i n).perst = s.perst := rfl
@[simp] theorem State.bump_slot (f : Field) (i n : Nat) : (s.bump f i n).slot = s.slot := rfl
@[simp] theorem State.bump_badRamp (f : Field) (i n : Nat) : (s.bump f i n).badRamp = s.badRamp := rfl
@[simp] theorem State.bump_rampCure (f : Field) (i n : Nat) : (s.bump f i n).rampCure = s.rampCure := rfl
@[simp] theorem State.bump_railUntil (f : Field) (i n : Nat) : (s.bump f i n).railUntil = s.railUntil := rfl
@[simp] theorem State.bump_dead (f : Field) (i n : Nat) : (s.bump f i n).dead = s.dead := rfl
@[simp] theorem State.bump_tripped (f : Field) (i n : Nat) : (s.bump f i n).tripped = s.tripped := rfl
@[simp] theorem State.bump_thermTripN (f : Field) (i n : Nat) : (s.bump f i n).thermTripN = s.thermTripN := rfl
@[simp] theorem State.bump_refclkLost (f : Field) (i n : Nat) : (s.bump f i n).refclkLost = s.refclkLost := rfl
@[simp] theorem State.bump_lpLost (f : Field) (i n : Nat) : (s.bump f i n).lpLost = s.lpLost := rfl
@[simp] theorem State.bump_image (f : Field) (i n : Nat) : (s.bump f i n).image = s.image := rfl
@[simp] theorem State.bump_imageSvn (f : Field) (i n : Nat) : (s.bump f i n).imageSvn = s.imageSvn := rfl
@[simp] theorem State.bump_imageDigest (f : Field) (i n : Nat) : (s.bump f i n).imageDigest = s.imageDigest := rfl
@[simp] theorem State.bump_idKey (f : Field) (i n : Nat) : (s.bump f i n).idKey = s.idKey := rfl
@[simp] theorem State.bump_attest (f : Field) (i n : Nat) : (s.bump f i n).attest = s.attest := rfl
@[simp] theorem State.bump_bundle (f : Field) (i n : Nat) : (s.bump f i n).bundle = s.bundle := rfl
@[simp] theorem State.bump_bundleCopy (f : Field) (i n : Nat) : (s.bump f i n).bundleCopy = s.bundleCopy := rfl
@[simp] theorem State.bump_nonce (f : Field) (i n : Nat) : (s.bump f i n).nonce = s.nonce := rfl
@[simp] theorem State.bump_tierSize (f : Field) (i n : Nat) : (s.bump f i n).tierSize = s.tierSize := rfl
@[simp] theorem State.bump_powerUw (f : Field) (i n : Nat) : (s.bump f i n).powerUw = s.powerUw := rfl
@[simp] theorem State.bump_rails (f : Field) (i n : Nat) : (s.bump f i n).rails = s.rails := rfl
@[simp] theorem State.bump_avsFails (f : Field) (i n : Nat) : (s.bump f i n).avsFails = s.avsFails := rfl
@[simp] theorem State.bump_fresh (f : Field) (i n : Nat) : (s.bump f i n).fresh = s.fresh := rfl
@[simp] theorem State.bump_pending (f : Field) (i n : Nat) : (s.bump f i n).pending = s.pending := rfl

/-! ### wrapAdd -/

@[simp] theorem State.wrapAdd_eff (f : Field) (i n : Nat) : (s.wrapAdd f i n).eff = s.eff := rfl
@[simp] theorem State.wrapAdd_mem (f : Field) (i n : Nat) : (s.wrapAdd f i n).mem = s.mem := rfl
@[simp] theorem State.wrapAdd_poison (f : Field) (i n : Nat) : (s.wrapAdd f i n).poison = s.poison := rfl
@[simp] theorem State.wrapAdd_okWords (f : Field) (i n : Nat) : (s.wrapAdd f i n).okWords = s.okWords := rfl
@[simp] theorem State.wrapAdd_symErr (f : Field) (i n : Nat) : (s.wrapAdd f i n).symErr = s.symErr := rfl
@[simp] theorem State.wrapAdd_host (f : Field) (i n : Nat) : (s.wrapAdd f i n).host = s.host := rfl
@[simp] theorem State.wrapAdd_fuses (f : Field) (i n : Nat) : (s.wrapAdd f i n).fuses = s.fuses := rfl
@[simp] theorem State.wrapAdd_nvm (f : Field) (i n : Nat) : (s.wrapAdd f i n).nvm = s.nvm := rfl
@[simp] theorem State.wrapAdd_recorder (f : Field) (i n : Nat) : (s.wrapAdd f i n).recorder = s.recorder := rfl
@[simp] theorem State.wrapAdd_job (f : Field) (i n : Nat) : (s.wrapAdd f i n).job = s.job := rfl
@[simp] theorem State.wrapAdd_hif (f : Field) (i n : Nat) : (s.wrapAdd f i n).hif = s.hif := rfl
@[simp] theorem State.wrapAdd_gaths (f : Field) (i n : Nat) : (s.wrapAdd f i n).gaths = s.gaths := rfl
@[simp] theorem State.wrapAdd_queues (f : Field) (i n : Nat) : (s.wrapAdd f i n).queues = s.queues := rfl
@[simp] theorem State.wrapAdd_yarders (f : Field) (i n : Nat) : (s.wrapAdd f i n).yarders = s.yarders := rfl
@[simp] theorem State.wrapAdd_colls (f : Field) (i n : Nat) : (s.wrapAdd f i n).colls = s.colls := rfl
@[simp] theorem State.wrapAdd_dies (f : Field) (i n : Nat) : (s.wrapAdd f i n).dies = s.dies := rfl
@[simp] theorem State.wrapAdd_signals (f : Field) (i n : Nat) : (s.wrapAdd f i n).signals = s.signals := rfl
@[simp] theorem State.wrapAdd_mtok (f : Field) (i n : Nat) : (s.wrapAdd f i n).mtok = s.mtok := rfl
@[simp] theorem State.wrapAdd_mOvf (f : Field) (i n : Nat) : (s.wrapAdd f i n).mOvf = s.mOvf := rfl
@[simp] theorem State.wrapAdd_tor (f : Field) (i n : Nat) : (s.wrapAdd f i n).tor = s.tor := rfl
@[simp] theorem State.wrapAdd_irl (f : Field) (i n : Nat) : (s.wrapAdd f i n).irl = s.irl := rfl
@[simp] theorem State.wrapAdd_mons (f : Field) (i n : Nat) : (s.wrapAdd f i n).mons = s.mons := rfl
@[simp] theorem State.wrapAdd_monEnds (f : Field) (i n : Nat) : (s.wrapAdd f i n).monEnds = s.monEnds := rfl
@[simp] theorem State.wrapAdd_waits (f : Field) (i n : Nat) : (s.wrapAdd f i n).waits = s.waits := rfl
@[simp] theorem State.wrapAdd_now (f : Field) (i n : Nat) : (s.wrapAdd f i n).now = s.now := rfl
@[simp] theorem State.wrapAdd_perst (f : Field) (i n : Nat) : (s.wrapAdd f i n).perst = s.perst := rfl
@[simp] theorem State.wrapAdd_slot (f : Field) (i n : Nat) : (s.wrapAdd f i n).slot = s.slot := rfl
@[simp] theorem State.wrapAdd_badRamp (f : Field) (i n : Nat) : (s.wrapAdd f i n).badRamp = s.badRamp := rfl
@[simp] theorem State.wrapAdd_rampCure (f : Field) (i n : Nat) : (s.wrapAdd f i n).rampCure = s.rampCure := rfl
@[simp] theorem State.wrapAdd_railUntil (f : Field) (i n : Nat) : (s.wrapAdd f i n).railUntil = s.railUntil := rfl
@[simp] theorem State.wrapAdd_dead (f : Field) (i n : Nat) : (s.wrapAdd f i n).dead = s.dead := rfl
@[simp] theorem State.wrapAdd_tripped (f : Field) (i n : Nat) : (s.wrapAdd f i n).tripped = s.tripped := rfl
@[simp] theorem State.wrapAdd_thermTripN (f : Field) (i n : Nat) : (s.wrapAdd f i n).thermTripN = s.thermTripN := rfl
@[simp] theorem State.wrapAdd_refclkLost (f : Field) (i n : Nat) : (s.wrapAdd f i n).refclkLost = s.refclkLost := rfl
@[simp] theorem State.wrapAdd_lpLost (f : Field) (i n : Nat) : (s.wrapAdd f i n).lpLost = s.lpLost := rfl
@[simp] theorem State.wrapAdd_image (f : Field) (i n : Nat) : (s.wrapAdd f i n).image = s.image := rfl
@[simp] theorem State.wrapAdd_imageSvn (f : Field) (i n : Nat) : (s.wrapAdd f i n).imageSvn = s.imageSvn := rfl
@[simp] theorem State.wrapAdd_imageDigest (f : Field) (i n : Nat) : (s.wrapAdd f i n).imageDigest = s.imageDigest := rfl
@[simp] theorem State.wrapAdd_idKey (f : Field) (i n : Nat) : (s.wrapAdd f i n).idKey = s.idKey := rfl
@[simp] theorem State.wrapAdd_attest (f : Field) (i n : Nat) : (s.wrapAdd f i n).attest = s.attest := rfl
@[simp] theorem State.wrapAdd_bundle (f : Field) (i n : Nat) : (s.wrapAdd f i n).bundle = s.bundle := rfl
@[simp] theorem State.wrapAdd_bundleCopy (f : Field) (i n : Nat) : (s.wrapAdd f i n).bundleCopy = s.bundleCopy := rfl
@[simp] theorem State.wrapAdd_nonce (f : Field) (i n : Nat) : (s.wrapAdd f i n).nonce = s.nonce := rfl
@[simp] theorem State.wrapAdd_tierSize (f : Field) (i n : Nat) : (s.wrapAdd f i n).tierSize = s.tierSize := rfl
@[simp] theorem State.wrapAdd_powerUw (f : Field) (i n : Nat) : (s.wrapAdd f i n).powerUw = s.powerUw := rfl
@[simp] theorem State.wrapAdd_rails (f : Field) (i n : Nat) : (s.wrapAdd f i n).rails = s.rails := rfl
@[simp] theorem State.wrapAdd_avsFails (f : Field) (i n : Nat) : (s.wrapAdd f i n).avsFails = s.avsFails := rfl
@[simp] theorem State.wrapAdd_fresh (f : Field) (i n : Nat) : (s.wrapAdd f i n).fresh = s.fresh := rfl
@[simp] theorem State.wrapAdd_pending (f : Field) (i n : Nat) : (s.wrapAdd f i n).pending = s.pending := rfl

/-! ### orFld -/

@[simp] theorem State.orFld_eff (f : Field) (i v : Nat) : (s.orFld f i v).eff = s.eff := rfl
@[simp] theorem State.orFld_mem (f : Field) (i v : Nat) : (s.orFld f i v).mem = s.mem := rfl
@[simp] theorem State.orFld_poison (f : Field) (i v : Nat) : (s.orFld f i v).poison = s.poison := rfl
@[simp] theorem State.orFld_okWords (f : Field) (i v : Nat) : (s.orFld f i v).okWords = s.okWords := rfl
@[simp] theorem State.orFld_symErr (f : Field) (i v : Nat) : (s.orFld f i v).symErr = s.symErr := rfl
@[simp] theorem State.orFld_host (f : Field) (i v : Nat) : (s.orFld f i v).host = s.host := rfl
@[simp] theorem State.orFld_fuses (f : Field) (i v : Nat) : (s.orFld f i v).fuses = s.fuses := rfl
@[simp] theorem State.orFld_nvm (f : Field) (i v : Nat) : (s.orFld f i v).nvm = s.nvm := rfl
@[simp] theorem State.orFld_recorder (f : Field) (i v : Nat) : (s.orFld f i v).recorder = s.recorder := rfl
@[simp] theorem State.orFld_job (f : Field) (i v : Nat) : (s.orFld f i v).job = s.job := rfl
@[simp] theorem State.orFld_hif (f : Field) (i v : Nat) : (s.orFld f i v).hif = s.hif := rfl
@[simp] theorem State.orFld_gaths (f : Field) (i v : Nat) : (s.orFld f i v).gaths = s.gaths := rfl
@[simp] theorem State.orFld_queues (f : Field) (i v : Nat) : (s.orFld f i v).queues = s.queues := rfl
@[simp] theorem State.orFld_yarders (f : Field) (i v : Nat) : (s.orFld f i v).yarders = s.yarders := rfl
@[simp] theorem State.orFld_colls (f : Field) (i v : Nat) : (s.orFld f i v).colls = s.colls := rfl
@[simp] theorem State.orFld_dies (f : Field) (i v : Nat) : (s.orFld f i v).dies = s.dies := rfl
@[simp] theorem State.orFld_signals (f : Field) (i v : Nat) : (s.orFld f i v).signals = s.signals := rfl
@[simp] theorem State.orFld_mtok (f : Field) (i v : Nat) : (s.orFld f i v).mtok = s.mtok := rfl
@[simp] theorem State.orFld_mOvf (f : Field) (i v : Nat) : (s.orFld f i v).mOvf = s.mOvf := rfl
@[simp] theorem State.orFld_tor (f : Field) (i v : Nat) : (s.orFld f i v).tor = s.tor := rfl
@[simp] theorem State.orFld_irl (f : Field) (i v : Nat) : (s.orFld f i v).irl = s.irl := rfl
@[simp] theorem State.orFld_mons (f : Field) (i v : Nat) : (s.orFld f i v).mons = s.mons := rfl
@[simp] theorem State.orFld_monEnds (f : Field) (i v : Nat) : (s.orFld f i v).monEnds = s.monEnds := rfl
@[simp] theorem State.orFld_waits (f : Field) (i v : Nat) : (s.orFld f i v).waits = s.waits := rfl
@[simp] theorem State.orFld_now (f : Field) (i v : Nat) : (s.orFld f i v).now = s.now := rfl
@[simp] theorem State.orFld_perst (f : Field) (i v : Nat) : (s.orFld f i v).perst = s.perst := rfl
@[simp] theorem State.orFld_slot (f : Field) (i v : Nat) : (s.orFld f i v).slot = s.slot := rfl
@[simp] theorem State.orFld_badRamp (f : Field) (i v : Nat) : (s.orFld f i v).badRamp = s.badRamp := rfl
@[simp] theorem State.orFld_rampCure (f : Field) (i v : Nat) : (s.orFld f i v).rampCure = s.rampCure := rfl
@[simp] theorem State.orFld_railUntil (f : Field) (i v : Nat) : (s.orFld f i v).railUntil = s.railUntil := rfl
@[simp] theorem State.orFld_dead (f : Field) (i v : Nat) : (s.orFld f i v).dead = s.dead := rfl
@[simp] theorem State.orFld_tripped (f : Field) (i v : Nat) : (s.orFld f i v).tripped = s.tripped := rfl
@[simp] theorem State.orFld_thermTripN (f : Field) (i v : Nat) : (s.orFld f i v).thermTripN = s.thermTripN := rfl
@[simp] theorem State.orFld_refclkLost (f : Field) (i v : Nat) : (s.orFld f i v).refclkLost = s.refclkLost := rfl
@[simp] theorem State.orFld_lpLost (f : Field) (i v : Nat) : (s.orFld f i v).lpLost = s.lpLost := rfl
@[simp] theorem State.orFld_image (f : Field) (i v : Nat) : (s.orFld f i v).image = s.image := rfl
@[simp] theorem State.orFld_imageSvn (f : Field) (i v : Nat) : (s.orFld f i v).imageSvn = s.imageSvn := rfl
@[simp] theorem State.orFld_imageDigest (f : Field) (i v : Nat) : (s.orFld f i v).imageDigest = s.imageDigest := rfl
@[simp] theorem State.orFld_idKey (f : Field) (i v : Nat) : (s.orFld f i v).idKey = s.idKey := rfl
@[simp] theorem State.orFld_attest (f : Field) (i v : Nat) : (s.orFld f i v).attest = s.attest := rfl
@[simp] theorem State.orFld_bundle (f : Field) (i v : Nat) : (s.orFld f i v).bundle = s.bundle := rfl
@[simp] theorem State.orFld_bundleCopy (f : Field) (i v : Nat) : (s.orFld f i v).bundleCopy = s.bundleCopy := rfl
@[simp] theorem State.orFld_nonce (f : Field) (i v : Nat) : (s.orFld f i v).nonce = s.nonce := rfl
@[simp] theorem State.orFld_tierSize (f : Field) (i v : Nat) : (s.orFld f i v).tierSize = s.tierSize := rfl
@[simp] theorem State.orFld_powerUw (f : Field) (i v : Nat) : (s.orFld f i v).powerUw = s.powerUw := rfl
@[simp] theorem State.orFld_rails (f : Field) (i v : Nat) : (s.orFld f i v).rails = s.rails := rfl
@[simp] theorem State.orFld_avsFails (f : Field) (i v : Nat) : (s.orFld f i v).avsFails = s.avsFails := rfl
@[simp] theorem State.orFld_fresh (f : Field) (i v : Nat) : (s.orFld f i v).fresh = s.fresh := rfl
@[simp] theorem State.orFld_pending (f : Field) (i v : Nat) : (s.orFld f i v).pending = s.pending := rfl

/-! ### setFlag -/

@[simp] theorem State.setFlag_eff (f : Field) (i : Nat) (b : Bool) : (s.setFlag f i b).eff = s.eff := rfl
@[simp] theorem State.setFlag_mem (f : Field) (i : Nat) (b : Bool) : (s.setFlag f i b).mem = s.mem := rfl
@[simp] theorem State.setFlag_poison (f : Field) (i : Nat) (b : Bool) : (s.setFlag f i b).poison = s.poison := rfl
@[simp] theorem State.setFlag_okWords (f : Field) (i : Nat) (b : Bool) : (s.setFlag f i b).okWords = s.okWords := rfl
@[simp] theorem State.setFlag_symErr (f : Field) (i : Nat) (b : Bool) : (s.setFlag f i b).symErr = s.symErr := rfl
@[simp] theorem State.setFlag_host (f : Field) (i : Nat) (b : Bool) : (s.setFlag f i b).host = s.host := rfl
@[simp] theorem State.setFlag_fuses (f : Field) (i : Nat) (b : Bool) : (s.setFlag f i b).fuses = s.fuses := rfl
@[simp] theorem State.setFlag_nvm (f : Field) (i : Nat) (b : Bool) : (s.setFlag f i b).nvm = s.nvm := rfl
@[simp] theorem State.setFlag_recorder (f : Field) (i : Nat) (b : Bool) : (s.setFlag f i b).recorder = s.recorder := rfl
@[simp] theorem State.setFlag_job (f : Field) (i : Nat) (b : Bool) : (s.setFlag f i b).job = s.job := rfl
@[simp] theorem State.setFlag_hif (f : Field) (i : Nat) (b : Bool) : (s.setFlag f i b).hif = s.hif := rfl
@[simp] theorem State.setFlag_gaths (f : Field) (i : Nat) (b : Bool) : (s.setFlag f i b).gaths = s.gaths := rfl
@[simp] theorem State.setFlag_queues (f : Field) (i : Nat) (b : Bool) : (s.setFlag f i b).queues = s.queues := rfl
@[simp] theorem State.setFlag_yarders (f : Field) (i : Nat) (b : Bool) : (s.setFlag f i b).yarders = s.yarders := rfl
@[simp] theorem State.setFlag_colls (f : Field) (i : Nat) (b : Bool) : (s.setFlag f i b).colls = s.colls := rfl
@[simp] theorem State.setFlag_dies (f : Field) (i : Nat) (b : Bool) : (s.setFlag f i b).dies = s.dies := rfl
@[simp] theorem State.setFlag_signals (f : Field) (i : Nat) (b : Bool) : (s.setFlag f i b).signals = s.signals := rfl
@[simp] theorem State.setFlag_mtok (f : Field) (i : Nat) (b : Bool) : (s.setFlag f i b).mtok = s.mtok := rfl
@[simp] theorem State.setFlag_mOvf (f : Field) (i : Nat) (b : Bool) : (s.setFlag f i b).mOvf = s.mOvf := rfl
@[simp] theorem State.setFlag_tor (f : Field) (i : Nat) (b : Bool) : (s.setFlag f i b).tor = s.tor := rfl
@[simp] theorem State.setFlag_irl (f : Field) (i : Nat) (b : Bool) : (s.setFlag f i b).irl = s.irl := rfl
@[simp] theorem State.setFlag_mons (f : Field) (i : Nat) (b : Bool) : (s.setFlag f i b).mons = s.mons := rfl
@[simp] theorem State.setFlag_monEnds (f : Field) (i : Nat) (b : Bool) : (s.setFlag f i b).monEnds = s.monEnds := rfl
@[simp] theorem State.setFlag_waits (f : Field) (i : Nat) (b : Bool) : (s.setFlag f i b).waits = s.waits := rfl
@[simp] theorem State.setFlag_now (f : Field) (i : Nat) (b : Bool) : (s.setFlag f i b).now = s.now := rfl
@[simp] theorem State.setFlag_perst (f : Field) (i : Nat) (b : Bool) : (s.setFlag f i b).perst = s.perst := rfl
@[simp] theorem State.setFlag_slot (f : Field) (i : Nat) (b : Bool) : (s.setFlag f i b).slot = s.slot := rfl
@[simp] theorem State.setFlag_badRamp (f : Field) (i : Nat) (b : Bool) : (s.setFlag f i b).badRamp = s.badRamp := rfl
@[simp] theorem State.setFlag_rampCure (f : Field) (i : Nat) (b : Bool) : (s.setFlag f i b).rampCure = s.rampCure := rfl
@[simp] theorem State.setFlag_railUntil (f : Field) (i : Nat) (b : Bool) : (s.setFlag f i b).railUntil = s.railUntil := rfl
@[simp] theorem State.setFlag_dead (f : Field) (i : Nat) (b : Bool) : (s.setFlag f i b).dead = s.dead := rfl
@[simp] theorem State.setFlag_tripped (f : Field) (i : Nat) (b : Bool) : (s.setFlag f i b).tripped = s.tripped := rfl
@[simp] theorem State.setFlag_thermTripN (f : Field) (i : Nat) (b : Bool) : (s.setFlag f i b).thermTripN = s.thermTripN := rfl
@[simp] theorem State.setFlag_refclkLost (f : Field) (i : Nat) (b : Bool) : (s.setFlag f i b).refclkLost = s.refclkLost := rfl
@[simp] theorem State.setFlag_lpLost (f : Field) (i : Nat) (b : Bool) : (s.setFlag f i b).lpLost = s.lpLost := rfl
@[simp] theorem State.setFlag_image (f : Field) (i : Nat) (b : Bool) : (s.setFlag f i b).image = s.image := rfl
@[simp] theorem State.setFlag_imageSvn (f : Field) (i : Nat) (b : Bool) : (s.setFlag f i b).imageSvn = s.imageSvn := rfl
@[simp] theorem State.setFlag_imageDigest (f : Field) (i : Nat) (b : Bool) : (s.setFlag f i b).imageDigest = s.imageDigest := rfl
@[simp] theorem State.setFlag_idKey (f : Field) (i : Nat) (b : Bool) : (s.setFlag f i b).idKey = s.idKey := rfl
@[simp] theorem State.setFlag_attest (f : Field) (i : Nat) (b : Bool) : (s.setFlag f i b).attest = s.attest := rfl
@[simp] theorem State.setFlag_bundle (f : Field) (i : Nat) (b : Bool) : (s.setFlag f i b).bundle = s.bundle := rfl
@[simp] theorem State.setFlag_bundleCopy (f : Field) (i : Nat) (b : Bool) : (s.setFlag f i b).bundleCopy = s.bundleCopy := rfl
@[simp] theorem State.setFlag_nonce (f : Field) (i : Nat) (b : Bool) : (s.setFlag f i b).nonce = s.nonce := rfl
@[simp] theorem State.setFlag_tierSize (f : Field) (i : Nat) (b : Bool) : (s.setFlag f i b).tierSize = s.tierSize := rfl
@[simp] theorem State.setFlag_powerUw (f : Field) (i : Nat) (b : Bool) : (s.setFlag f i b).powerUw = s.powerUw := rfl
@[simp] theorem State.setFlag_rails (f : Field) (i : Nat) (b : Bool) : (s.setFlag f i b).rails = s.rails := rfl
@[simp] theorem State.setFlag_avsFails (f : Field) (i : Nat) (b : Bool) : (s.setFlag f i b).avsFails = s.avsFails := rfl
@[simp] theorem State.setFlag_fresh (f : Field) (i : Nat) (b : Bool) : (s.setFlag f i b).fresh = s.fresh := rfl
@[simp] theorem State.setFlag_pending (f : Field) (i : Nat) (b : Bool) : (s.setFlag f i b).pending = s.pending := rfl

/-! ### setGath -/

@[simp] theorem State.setGath_rf (d g : Nat) (x : Gath) : (s.setGath d g x).rf = s.rf := rfl
@[simp] theorem State.setGath_eff (d g : Nat) (x : Gath) : (s.setGath d g x).eff = s.eff := rfl
@[simp] theorem State.setGath_mem (d g : Nat) (x : Gath) : (s.setGath d g x).mem = s.mem := rfl
@[simp] theorem State.setGath_poison (d g : Nat) (x : Gath) : (s.setGath d g x).poison = s.poison := rfl
@[simp] theorem State.setGath_okWords (d g : Nat) (x : Gath) : (s.setGath d g x).okWords = s.okWords := rfl
@[simp] theorem State.setGath_symErr (d g : Nat) (x : Gath) : (s.setGath d g x).symErr = s.symErr := rfl
@[simp] theorem State.setGath_host (d g : Nat) (x : Gath) : (s.setGath d g x).host = s.host := rfl
@[simp] theorem State.setGath_fuses (d g : Nat) (x : Gath) : (s.setGath d g x).fuses = s.fuses := rfl
@[simp] theorem State.setGath_nvm (d g : Nat) (x : Gath) : (s.setGath d g x).nvm = s.nvm := rfl
@[simp] theorem State.setGath_recorder (d g : Nat) (x : Gath) : (s.setGath d g x).recorder = s.recorder := rfl
@[simp] theorem State.setGath_job (d g : Nat) (x : Gath) : (s.setGath d g x).job = s.job := rfl
@[simp] theorem State.setGath_hif (d g : Nat) (x : Gath) : (s.setGath d g x).hif = s.hif := rfl
@[simp] theorem State.setGath_queues (d g : Nat) (x : Gath) : (s.setGath d g x).queues = s.queues := rfl
@[simp] theorem State.setGath_yarders (d g : Nat) (x : Gath) : (s.setGath d g x).yarders = s.yarders := rfl
@[simp] theorem State.setGath_colls (d g : Nat) (x : Gath) : (s.setGath d g x).colls = s.colls := rfl
@[simp] theorem State.setGath_dies (d g : Nat) (x : Gath) : (s.setGath d g x).dies = s.dies := rfl
@[simp] theorem State.setGath_signals (d g : Nat) (x : Gath) : (s.setGath d g x).signals = s.signals := rfl
@[simp] theorem State.setGath_mtok (d g : Nat) (x : Gath) : (s.setGath d g x).mtok = s.mtok := rfl
@[simp] theorem State.setGath_mOvf (d g : Nat) (x : Gath) : (s.setGath d g x).mOvf = s.mOvf := rfl
@[simp] theorem State.setGath_tor (d g : Nat) (x : Gath) : (s.setGath d g x).tor = s.tor := rfl
@[simp] theorem State.setGath_irl (d g : Nat) (x : Gath) : (s.setGath d g x).irl = s.irl := rfl
@[simp] theorem State.setGath_mons (d g : Nat) (x : Gath) : (s.setGath d g x).mons = s.mons := rfl
@[simp] theorem State.setGath_monEnds (d g : Nat) (x : Gath) : (s.setGath d g x).monEnds = s.monEnds := rfl
@[simp] theorem State.setGath_waits (d g : Nat) (x : Gath) : (s.setGath d g x).waits = s.waits := rfl
@[simp] theorem State.setGath_now (d g : Nat) (x : Gath) : (s.setGath d g x).now = s.now := rfl
@[simp] theorem State.setGath_perst (d g : Nat) (x : Gath) : (s.setGath d g x).perst = s.perst := rfl
@[simp] theorem State.setGath_slot (d g : Nat) (x : Gath) : (s.setGath d g x).slot = s.slot := rfl
@[simp] theorem State.setGath_badRamp (d g : Nat) (x : Gath) : (s.setGath d g x).badRamp = s.badRamp := rfl
@[simp] theorem State.setGath_rampCure (d g : Nat) (x : Gath) : (s.setGath d g x).rampCure = s.rampCure := rfl
@[simp] theorem State.setGath_railUntil (d g : Nat) (x : Gath) : (s.setGath d g x).railUntil = s.railUntil := rfl
@[simp] theorem State.setGath_dead (d g : Nat) (x : Gath) : (s.setGath d g x).dead = s.dead := rfl
@[simp] theorem State.setGath_tripped (d g : Nat) (x : Gath) : (s.setGath d g x).tripped = s.tripped := rfl
@[simp] theorem State.setGath_thermTripN (d g : Nat) (x : Gath) : (s.setGath d g x).thermTripN = s.thermTripN := rfl
@[simp] theorem State.setGath_refclkLost (d g : Nat) (x : Gath) : (s.setGath d g x).refclkLost = s.refclkLost := rfl
@[simp] theorem State.setGath_lpLost (d g : Nat) (x : Gath) : (s.setGath d g x).lpLost = s.lpLost := rfl
@[simp] theorem State.setGath_image (d g : Nat) (x : Gath) : (s.setGath d g x).image = s.image := rfl
@[simp] theorem State.setGath_imageSvn (d g : Nat) (x : Gath) : (s.setGath d g x).imageSvn = s.imageSvn := rfl
@[simp] theorem State.setGath_imageDigest (d g : Nat) (x : Gath) : (s.setGath d g x).imageDigest = s.imageDigest := rfl
@[simp] theorem State.setGath_idKey (d g : Nat) (x : Gath) : (s.setGath d g x).idKey = s.idKey := rfl
@[simp] theorem State.setGath_attest (d g : Nat) (x : Gath) : (s.setGath d g x).attest = s.attest := rfl
@[simp] theorem State.setGath_bundle (d g : Nat) (x : Gath) : (s.setGath d g x).bundle = s.bundle := rfl
@[simp] theorem State.setGath_bundleCopy (d g : Nat) (x : Gath) : (s.setGath d g x).bundleCopy = s.bundleCopy := rfl
@[simp] theorem State.setGath_nonce (d g : Nat) (x : Gath) : (s.setGath d g x).nonce = s.nonce := rfl
@[simp] theorem State.setGath_tierSize (d g : Nat) (x : Gath) : (s.setGath d g x).tierSize = s.tierSize := rfl
@[simp] theorem State.setGath_powerUw (d g : Nat) (x : Gath) : (s.setGath d g x).powerUw = s.powerUw := rfl
@[simp] theorem State.setGath_rails (d g : Nat) (x : Gath) : (s.setGath d g x).rails = s.rails := rfl
@[simp] theorem State.setGath_avsFails (d g : Nat) (x : Gath) : (s.setGath d g x).avsFails = s.avsFails := rfl
@[simp] theorem State.setGath_fresh (d g : Nat) (x : Gath) : (s.setGath d g x).fresh = s.fresh := rfl
@[simp] theorem State.setGath_pending (d g : Nat) (x : Gath) : (s.setGath d g x).pending = s.pending := rfl

/-! ### setDie -/

@[simp] theorem State.setDie_rf (d : Nat) (x : Die) : (s.setDie d x).rf = s.rf := rfl
@[simp] theorem State.setDie_eff (d : Nat) (x : Die) : (s.setDie d x).eff = s.eff := rfl
@[simp] theorem State.setDie_mem (d : Nat) (x : Die) : (s.setDie d x).mem = s.mem := rfl
@[simp] theorem State.setDie_poison (d : Nat) (x : Die) : (s.setDie d x).poison = s.poison := rfl
@[simp] theorem State.setDie_okWords (d : Nat) (x : Die) : (s.setDie d x).okWords = s.okWords := rfl
@[simp] theorem State.setDie_symErr (d : Nat) (x : Die) : (s.setDie d x).symErr = s.symErr := rfl
@[simp] theorem State.setDie_host (d : Nat) (x : Die) : (s.setDie d x).host = s.host := rfl
@[simp] theorem State.setDie_fuses (d : Nat) (x : Die) : (s.setDie d x).fuses = s.fuses := rfl
@[simp] theorem State.setDie_nvm (d : Nat) (x : Die) : (s.setDie d x).nvm = s.nvm := rfl
@[simp] theorem State.setDie_recorder (d : Nat) (x : Die) : (s.setDie d x).recorder = s.recorder := rfl
@[simp] theorem State.setDie_job (d : Nat) (x : Die) : (s.setDie d x).job = s.job := rfl
@[simp] theorem State.setDie_hif (d : Nat) (x : Die) : (s.setDie d x).hif = s.hif := rfl
@[simp] theorem State.setDie_gaths (d : Nat) (x : Die) : (s.setDie d x).gaths = s.gaths := rfl
@[simp] theorem State.setDie_queues (d : Nat) (x : Die) : (s.setDie d x).queues = s.queues := rfl
@[simp] theorem State.setDie_yarders (d : Nat) (x : Die) : (s.setDie d x).yarders = s.yarders := rfl
@[simp] theorem State.setDie_colls (d : Nat) (x : Die) : (s.setDie d x).colls = s.colls := rfl
@[simp] theorem State.setDie_signals (d : Nat) (x : Die) : (s.setDie d x).signals = s.signals := rfl
@[simp] theorem State.setDie_mtok (d : Nat) (x : Die) : (s.setDie d x).mtok = s.mtok := rfl
@[simp] theorem State.setDie_mOvf (d : Nat) (x : Die) : (s.setDie d x).mOvf = s.mOvf := rfl
@[simp] theorem State.setDie_tor (d : Nat) (x : Die) : (s.setDie d x).tor = s.tor := rfl
@[simp] theorem State.setDie_irl (d : Nat) (x : Die) : (s.setDie d x).irl = s.irl := rfl
@[simp] theorem State.setDie_mons (d : Nat) (x : Die) : (s.setDie d x).mons = s.mons := rfl
@[simp] theorem State.setDie_monEnds (d : Nat) (x : Die) : (s.setDie d x).monEnds = s.monEnds := rfl
@[simp] theorem State.setDie_waits (d : Nat) (x : Die) : (s.setDie d x).waits = s.waits := rfl
@[simp] theorem State.setDie_now (d : Nat) (x : Die) : (s.setDie d x).now = s.now := rfl
@[simp] theorem State.setDie_perst (d : Nat) (x : Die) : (s.setDie d x).perst = s.perst := rfl
@[simp] theorem State.setDie_slot (d : Nat) (x : Die) : (s.setDie d x).slot = s.slot := rfl
@[simp] theorem State.setDie_badRamp (d : Nat) (x : Die) : (s.setDie d x).badRamp = s.badRamp := rfl
@[simp] theorem State.setDie_rampCure (d : Nat) (x : Die) : (s.setDie d x).rampCure = s.rampCure := rfl
@[simp] theorem State.setDie_railUntil (d : Nat) (x : Die) : (s.setDie d x).railUntil = s.railUntil := rfl
@[simp] theorem State.setDie_dead (d : Nat) (x : Die) : (s.setDie d x).dead = s.dead := rfl
@[simp] theorem State.setDie_tripped (d : Nat) (x : Die) : (s.setDie d x).tripped = s.tripped := rfl
@[simp] theorem State.setDie_thermTripN (d : Nat) (x : Die) : (s.setDie d x).thermTripN = s.thermTripN := rfl
@[simp] theorem State.setDie_refclkLost (d : Nat) (x : Die) : (s.setDie d x).refclkLost = s.refclkLost := rfl
@[simp] theorem State.setDie_lpLost (d : Nat) (x : Die) : (s.setDie d x).lpLost = s.lpLost := rfl
@[simp] theorem State.setDie_image (d : Nat) (x : Die) : (s.setDie d x).image = s.image := rfl
@[simp] theorem State.setDie_imageSvn (d : Nat) (x : Die) : (s.setDie d x).imageSvn = s.imageSvn := rfl
@[simp] theorem State.setDie_imageDigest (d : Nat) (x : Die) : (s.setDie d x).imageDigest = s.imageDigest := rfl
@[simp] theorem State.setDie_idKey (d : Nat) (x : Die) : (s.setDie d x).idKey = s.idKey := rfl
@[simp] theorem State.setDie_attest (d : Nat) (x : Die) : (s.setDie d x).attest = s.attest := rfl
@[simp] theorem State.setDie_bundle (d : Nat) (x : Die) : (s.setDie d x).bundle = s.bundle := rfl
@[simp] theorem State.setDie_bundleCopy (d : Nat) (x : Die) : (s.setDie d x).bundleCopy = s.bundleCopy := rfl
@[simp] theorem State.setDie_nonce (d : Nat) (x : Die) : (s.setDie d x).nonce = s.nonce := rfl
@[simp] theorem State.setDie_tierSize (d : Nat) (x : Die) : (s.setDie d x).tierSize = s.tierSize := rfl
@[simp] theorem State.setDie_powerUw (d : Nat) (x : Die) : (s.setDie d x).powerUw = s.powerUw := rfl
@[simp] theorem State.setDie_rails (d : Nat) (x : Die) : (s.setDie d x).rails = s.rails := rfl
@[simp] theorem State.setDie_avsFails (d : Nat) (x : Die) : (s.setDie d x).avsFails = s.avsFails := rfl
@[simp] theorem State.setDie_fresh (d : Nat) (x : Die) : (s.setDie d x).fresh = s.fresh := rfl
@[simp] theorem State.setDie_pending (d : Nat) (x : Die) : (s.setDie d x).pending = s.pending := rfl

/-! ### setQueue -/

@[simp] theorem State.setQueue_rf (d u : Nat) (q : List QCmd) : (s.setQueue d u q).rf = s.rf := rfl
@[simp] theorem State.setQueue_eff (d u : Nat) (q : List QCmd) : (s.setQueue d u q).eff = s.eff := rfl
@[simp] theorem State.setQueue_mem (d u : Nat) (q : List QCmd) : (s.setQueue d u q).mem = s.mem := rfl
@[simp] theorem State.setQueue_poison (d u : Nat) (q : List QCmd) : (s.setQueue d u q).poison = s.poison := rfl
@[simp] theorem State.setQueue_okWords (d u : Nat) (q : List QCmd) : (s.setQueue d u q).okWords = s.okWords := rfl
@[simp] theorem State.setQueue_symErr (d u : Nat) (q : List QCmd) : (s.setQueue d u q).symErr = s.symErr := rfl
@[simp] theorem State.setQueue_host (d u : Nat) (q : List QCmd) : (s.setQueue d u q).host = s.host := rfl
@[simp] theorem State.setQueue_fuses (d u : Nat) (q : List QCmd) : (s.setQueue d u q).fuses = s.fuses := rfl
@[simp] theorem State.setQueue_nvm (d u : Nat) (q : List QCmd) : (s.setQueue d u q).nvm = s.nvm := rfl
@[simp] theorem State.setQueue_recorder (d u : Nat) (q : List QCmd) : (s.setQueue d u q).recorder = s.recorder := rfl
@[simp] theorem State.setQueue_job (d u : Nat) (q : List QCmd) : (s.setQueue d u q).job = s.job := rfl
@[simp] theorem State.setQueue_hif (d u : Nat) (q : List QCmd) : (s.setQueue d u q).hif = s.hif := rfl
@[simp] theorem State.setQueue_gaths (d u : Nat) (q : List QCmd) : (s.setQueue d u q).gaths = s.gaths := rfl
@[simp] theorem State.setQueue_yarders (d u : Nat) (q : List QCmd) : (s.setQueue d u q).yarders = s.yarders := rfl
@[simp] theorem State.setQueue_colls (d u : Nat) (q : List QCmd) : (s.setQueue d u q).colls = s.colls := rfl
@[simp] theorem State.setQueue_dies (d u : Nat) (q : List QCmd) : (s.setQueue d u q).dies = s.dies := rfl
@[simp] theorem State.setQueue_signals (d u : Nat) (q : List QCmd) : (s.setQueue d u q).signals = s.signals := rfl
@[simp] theorem State.setQueue_mtok (d u : Nat) (q : List QCmd) : (s.setQueue d u q).mtok = s.mtok := rfl
@[simp] theorem State.setQueue_mOvf (d u : Nat) (q : List QCmd) : (s.setQueue d u q).mOvf = s.mOvf := rfl
@[simp] theorem State.setQueue_tor (d u : Nat) (q : List QCmd) : (s.setQueue d u q).tor = s.tor := rfl
@[simp] theorem State.setQueue_irl (d u : Nat) (q : List QCmd) : (s.setQueue d u q).irl = s.irl := rfl
@[simp] theorem State.setQueue_mons (d u : Nat) (q : List QCmd) : (s.setQueue d u q).mons = s.mons := rfl
@[simp] theorem State.setQueue_monEnds (d u : Nat) (q : List QCmd) : (s.setQueue d u q).monEnds = s.monEnds := rfl
@[simp] theorem State.setQueue_waits (d u : Nat) (q : List QCmd) : (s.setQueue d u q).waits = s.waits := rfl
@[simp] theorem State.setQueue_now (d u : Nat) (q : List QCmd) : (s.setQueue d u q).now = s.now := rfl
@[simp] theorem State.setQueue_perst (d u : Nat) (q : List QCmd) : (s.setQueue d u q).perst = s.perst := rfl
@[simp] theorem State.setQueue_slot (d u : Nat) (q : List QCmd) : (s.setQueue d u q).slot = s.slot := rfl
@[simp] theorem State.setQueue_badRamp (d u : Nat) (q : List QCmd) : (s.setQueue d u q).badRamp = s.badRamp := rfl
@[simp] theorem State.setQueue_rampCure (d u : Nat) (q : List QCmd) : (s.setQueue d u q).rampCure = s.rampCure := rfl
@[simp] theorem State.setQueue_railUntil (d u : Nat) (q : List QCmd) : (s.setQueue d u q).railUntil = s.railUntil := rfl
@[simp] theorem State.setQueue_dead (d u : Nat) (q : List QCmd) : (s.setQueue d u q).dead = s.dead := rfl
@[simp] theorem State.setQueue_tripped (d u : Nat) (q : List QCmd) : (s.setQueue d u q).tripped = s.tripped := rfl
@[simp] theorem State.setQueue_thermTripN (d u : Nat) (q : List QCmd) : (s.setQueue d u q).thermTripN = s.thermTripN := rfl
@[simp] theorem State.setQueue_refclkLost (d u : Nat) (q : List QCmd) : (s.setQueue d u q).refclkLost = s.refclkLost := rfl
@[simp] theorem State.setQueue_lpLost (d u : Nat) (q : List QCmd) : (s.setQueue d u q).lpLost = s.lpLost := rfl
@[simp] theorem State.setQueue_image (d u : Nat) (q : List QCmd) : (s.setQueue d u q).image = s.image := rfl
@[simp] theorem State.setQueue_imageSvn (d u : Nat) (q : List QCmd) : (s.setQueue d u q).imageSvn = s.imageSvn := rfl
@[simp] theorem State.setQueue_imageDigest (d u : Nat) (q : List QCmd) : (s.setQueue d u q).imageDigest = s.imageDigest := rfl
@[simp] theorem State.setQueue_idKey (d u : Nat) (q : List QCmd) : (s.setQueue d u q).idKey = s.idKey := rfl
@[simp] theorem State.setQueue_attest (d u : Nat) (q : List QCmd) : (s.setQueue d u q).attest = s.attest := rfl
@[simp] theorem State.setQueue_bundle (d u : Nat) (q : List QCmd) : (s.setQueue d u q).bundle = s.bundle := rfl
@[simp] theorem State.setQueue_bundleCopy (d u : Nat) (q : List QCmd) : (s.setQueue d u q).bundleCopy = s.bundleCopy := rfl
@[simp] theorem State.setQueue_nonce (d u : Nat) (q : List QCmd) : (s.setQueue d u q).nonce = s.nonce := rfl
@[simp] theorem State.setQueue_tierSize (d u : Nat) (q : List QCmd) : (s.setQueue d u q).tierSize = s.tierSize := rfl
@[simp] theorem State.setQueue_powerUw (d u : Nat) (q : List QCmd) : (s.setQueue d u q).powerUw = s.powerUw := rfl
@[simp] theorem State.setQueue_rails (d u : Nat) (q : List QCmd) : (s.setQueue d u q).rails = s.rails := rfl
@[simp] theorem State.setQueue_avsFails (d u : Nat) (q : List QCmd) : (s.setQueue d u q).avsFails = s.avsFails := rfl
@[simp] theorem State.setQueue_fresh (d u : Nat) (q : List QCmd) : (s.setQueue d u q).fresh = s.fresh := rfl
@[simp] theorem State.setQueue_pending (d u : Nat) (q : List QCmd) : (s.setQueue d u q).pending = s.pending := rfl

/-! ### setYarder -/

@[simp] theorem State.setYarder_rf (d y : Nat) (x : Yarder) : (s.setYarder d y x).rf = s.rf := rfl
@[simp] theorem State.setYarder_eff (d y : Nat) (x : Yarder) : (s.setYarder d y x).eff = s.eff := rfl
@[simp] theorem State.setYarder_mem (d y : Nat) (x : Yarder) : (s.setYarder d y x).mem = s.mem := rfl
@[simp] theorem State.setYarder_poison (d y : Nat) (x : Yarder) : (s.setYarder d y x).poison = s.poison := rfl
@[simp] theorem State.setYarder_okWords (d y : Nat) (x : Yarder) : (s.setYarder d y x).okWords = s.okWords := rfl
@[simp] theorem State.setYarder_symErr (d y : Nat) (x : Yarder) : (s.setYarder d y x).symErr = s.symErr := rfl
@[simp] theorem State.setYarder_host (d y : Nat) (x : Yarder) : (s.setYarder d y x).host = s.host := rfl
@[simp] theorem State.setYarder_fuses (d y : Nat) (x : Yarder) : (s.setYarder d y x).fuses = s.fuses := rfl
@[simp] theorem State.setYarder_nvm (d y : Nat) (x : Yarder) : (s.setYarder d y x).nvm = s.nvm := rfl
@[simp] theorem State.setYarder_recorder (d y : Nat) (x : Yarder) : (s.setYarder d y x).recorder = s.recorder := rfl
@[simp] theorem State.setYarder_job (d y : Nat) (x : Yarder) : (s.setYarder d y x).job = s.job := rfl
@[simp] theorem State.setYarder_hif (d y : Nat) (x : Yarder) : (s.setYarder d y x).hif = s.hif := rfl
@[simp] theorem State.setYarder_gaths (d y : Nat) (x : Yarder) : (s.setYarder d y x).gaths = s.gaths := rfl
@[simp] theorem State.setYarder_queues (d y : Nat) (x : Yarder) : (s.setYarder d y x).queues = s.queues := rfl
@[simp] theorem State.setYarder_colls (d y : Nat) (x : Yarder) : (s.setYarder d y x).colls = s.colls := rfl
@[simp] theorem State.setYarder_dies (d y : Nat) (x : Yarder) : (s.setYarder d y x).dies = s.dies := rfl
@[simp] theorem State.setYarder_signals (d y : Nat) (x : Yarder) : (s.setYarder d y x).signals = s.signals := rfl
@[simp] theorem State.setYarder_mtok (d y : Nat) (x : Yarder) : (s.setYarder d y x).mtok = s.mtok := rfl
@[simp] theorem State.setYarder_mOvf (d y : Nat) (x : Yarder) : (s.setYarder d y x).mOvf = s.mOvf := rfl
@[simp] theorem State.setYarder_tor (d y : Nat) (x : Yarder) : (s.setYarder d y x).tor = s.tor := rfl
@[simp] theorem State.setYarder_irl (d y : Nat) (x : Yarder) : (s.setYarder d y x).irl = s.irl := rfl
@[simp] theorem State.setYarder_mons (d y : Nat) (x : Yarder) : (s.setYarder d y x).mons = s.mons := rfl
@[simp] theorem State.setYarder_monEnds (d y : Nat) (x : Yarder) : (s.setYarder d y x).monEnds = s.monEnds := rfl
@[simp] theorem State.setYarder_waits (d y : Nat) (x : Yarder) : (s.setYarder d y x).waits = s.waits := rfl
@[simp] theorem State.setYarder_now (d y : Nat) (x : Yarder) : (s.setYarder d y x).now = s.now := rfl
@[simp] theorem State.setYarder_perst (d y : Nat) (x : Yarder) : (s.setYarder d y x).perst = s.perst := rfl
@[simp] theorem State.setYarder_slot (d y : Nat) (x : Yarder) : (s.setYarder d y x).slot = s.slot := rfl
@[simp] theorem State.setYarder_badRamp (d y : Nat) (x : Yarder) : (s.setYarder d y x).badRamp = s.badRamp := rfl
@[simp] theorem State.setYarder_rampCure (d y : Nat) (x : Yarder) : (s.setYarder d y x).rampCure = s.rampCure := rfl
@[simp] theorem State.setYarder_railUntil (d y : Nat) (x : Yarder) : (s.setYarder d y x).railUntil = s.railUntil := rfl
@[simp] theorem State.setYarder_dead (d y : Nat) (x : Yarder) : (s.setYarder d y x).dead = s.dead := rfl
@[simp] theorem State.setYarder_tripped (d y : Nat) (x : Yarder) : (s.setYarder d y x).tripped = s.tripped := rfl
@[simp] theorem State.setYarder_thermTripN (d y : Nat) (x : Yarder) : (s.setYarder d y x).thermTripN = s.thermTripN := rfl
@[simp] theorem State.setYarder_refclkLost (d y : Nat) (x : Yarder) : (s.setYarder d y x).refclkLost = s.refclkLost := rfl
@[simp] theorem State.setYarder_lpLost (d y : Nat) (x : Yarder) : (s.setYarder d y x).lpLost = s.lpLost := rfl
@[simp] theorem State.setYarder_image (d y : Nat) (x : Yarder) : (s.setYarder d y x).image = s.image := rfl
@[simp] theorem State.setYarder_imageSvn (d y : Nat) (x : Yarder) : (s.setYarder d y x).imageSvn = s.imageSvn := rfl
@[simp] theorem State.setYarder_imageDigest (d y : Nat) (x : Yarder) : (s.setYarder d y x).imageDigest = s.imageDigest := rfl
@[simp] theorem State.setYarder_idKey (d y : Nat) (x : Yarder) : (s.setYarder d y x).idKey = s.idKey := rfl
@[simp] theorem State.setYarder_attest (d y : Nat) (x : Yarder) : (s.setYarder d y x).attest = s.attest := rfl
@[simp] theorem State.setYarder_bundle (d y : Nat) (x : Yarder) : (s.setYarder d y x).bundle = s.bundle := rfl
@[simp] theorem State.setYarder_bundleCopy (d y : Nat) (x : Yarder) : (s.setYarder d y x).bundleCopy = s.bundleCopy := rfl
@[simp] theorem State.setYarder_nonce (d y : Nat) (x : Yarder) : (s.setYarder d y x).nonce = s.nonce := rfl
@[simp] theorem State.setYarder_tierSize (d y : Nat) (x : Yarder) : (s.setYarder d y x).tierSize = s.tierSize := rfl
@[simp] theorem State.setYarder_powerUw (d y : Nat) (x : Yarder) : (s.setYarder d y x).powerUw = s.powerUw := rfl
@[simp] theorem State.setYarder_rails (d y : Nat) (x : Yarder) : (s.setYarder d y x).rails = s.rails := rfl
@[simp] theorem State.setYarder_avsFails (d y : Nat) (x : Yarder) : (s.setYarder d y x).avsFails = s.avsFails := rfl
@[simp] theorem State.setYarder_fresh (d y : Nat) (x : Yarder) : (s.setYarder d y x).fresh = s.fresh := rfl
@[simp] theorem State.setYarder_pending (d y : Nat) (x : Yarder) : (s.setYarder d y x).pending = s.pending := rfl

/-! ### setColl -/

@[simp] theorem State.setColl_rf (d k : Nat) (c : Coll) : (s.setColl d k c).rf = s.rf := rfl
@[simp] theorem State.setColl_eff (d k : Nat) (c : Coll) : (s.setColl d k c).eff = s.eff := rfl
@[simp] theorem State.setColl_mem (d k : Nat) (c : Coll) : (s.setColl d k c).mem = s.mem := rfl
@[simp] theorem State.setColl_poison (d k : Nat) (c : Coll) : (s.setColl d k c).poison = s.poison := rfl
@[simp] theorem State.setColl_okWords (d k : Nat) (c : Coll) : (s.setColl d k c).okWords = s.okWords := rfl
@[simp] theorem State.setColl_symErr (d k : Nat) (c : Coll) : (s.setColl d k c).symErr = s.symErr := rfl
@[simp] theorem State.setColl_host (d k : Nat) (c : Coll) : (s.setColl d k c).host = s.host := rfl
@[simp] theorem State.setColl_fuses (d k : Nat) (c : Coll) : (s.setColl d k c).fuses = s.fuses := rfl
@[simp] theorem State.setColl_nvm (d k : Nat) (c : Coll) : (s.setColl d k c).nvm = s.nvm := rfl
@[simp] theorem State.setColl_recorder (d k : Nat) (c : Coll) : (s.setColl d k c).recorder = s.recorder := rfl
@[simp] theorem State.setColl_job (d k : Nat) (c : Coll) : (s.setColl d k c).job = s.job := rfl
@[simp] theorem State.setColl_hif (d k : Nat) (c : Coll) : (s.setColl d k c).hif = s.hif := rfl
@[simp] theorem State.setColl_gaths (d k : Nat) (c : Coll) : (s.setColl d k c).gaths = s.gaths := rfl
@[simp] theorem State.setColl_queues (d k : Nat) (c : Coll) : (s.setColl d k c).queues = s.queues := rfl
@[simp] theorem State.setColl_yarders (d k : Nat) (c : Coll) : (s.setColl d k c).yarders = s.yarders := rfl
@[simp] theorem State.setColl_dies (d k : Nat) (c : Coll) : (s.setColl d k c).dies = s.dies := rfl
@[simp] theorem State.setColl_signals (d k : Nat) (c : Coll) : (s.setColl d k c).signals = s.signals := rfl
@[simp] theorem State.setColl_mtok (d k : Nat) (c : Coll) : (s.setColl d k c).mtok = s.mtok := rfl
@[simp] theorem State.setColl_mOvf (d k : Nat) (c : Coll) : (s.setColl d k c).mOvf = s.mOvf := rfl
@[simp] theorem State.setColl_tor (d k : Nat) (c : Coll) : (s.setColl d k c).tor = s.tor := rfl
@[simp] theorem State.setColl_irl (d k : Nat) (c : Coll) : (s.setColl d k c).irl = s.irl := rfl
@[simp] theorem State.setColl_mons (d k : Nat) (c : Coll) : (s.setColl d k c).mons = s.mons := rfl
@[simp] theorem State.setColl_monEnds (d k : Nat) (c : Coll) : (s.setColl d k c).monEnds = s.monEnds := rfl
@[simp] theorem State.setColl_waits (d k : Nat) (c : Coll) : (s.setColl d k c).waits = s.waits := rfl
@[simp] theorem State.setColl_now (d k : Nat) (c : Coll) : (s.setColl d k c).now = s.now := rfl
@[simp] theorem State.setColl_perst (d k : Nat) (c : Coll) : (s.setColl d k c).perst = s.perst := rfl
@[simp] theorem State.setColl_slot (d k : Nat) (c : Coll) : (s.setColl d k c).slot = s.slot := rfl
@[simp] theorem State.setColl_badRamp (d k : Nat) (c : Coll) : (s.setColl d k c).badRamp = s.badRamp := rfl
@[simp] theorem State.setColl_rampCure (d k : Nat) (c : Coll) : (s.setColl d k c).rampCure = s.rampCure := rfl
@[simp] theorem State.setColl_railUntil (d k : Nat) (c : Coll) : (s.setColl d k c).railUntil = s.railUntil := rfl
@[simp] theorem State.setColl_dead (d k : Nat) (c : Coll) : (s.setColl d k c).dead = s.dead := rfl
@[simp] theorem State.setColl_tripped (d k : Nat) (c : Coll) : (s.setColl d k c).tripped = s.tripped := rfl
@[simp] theorem State.setColl_thermTripN (d k : Nat) (c : Coll) : (s.setColl d k c).thermTripN = s.thermTripN := rfl
@[simp] theorem State.setColl_refclkLost (d k : Nat) (c : Coll) : (s.setColl d k c).refclkLost = s.refclkLost := rfl
@[simp] theorem State.setColl_lpLost (d k : Nat) (c : Coll) : (s.setColl d k c).lpLost = s.lpLost := rfl
@[simp] theorem State.setColl_image (d k : Nat) (c : Coll) : (s.setColl d k c).image = s.image := rfl
@[simp] theorem State.setColl_imageSvn (d k : Nat) (c : Coll) : (s.setColl d k c).imageSvn = s.imageSvn := rfl
@[simp] theorem State.setColl_imageDigest (d k : Nat) (c : Coll) : (s.setColl d k c).imageDigest = s.imageDigest := rfl
@[simp] theorem State.setColl_idKey (d k : Nat) (c : Coll) : (s.setColl d k c).idKey = s.idKey := rfl
@[simp] theorem State.setColl_attest (d k : Nat) (c : Coll) : (s.setColl d k c).attest = s.attest := rfl
@[simp] theorem State.setColl_bundle (d k : Nat) (c : Coll) : (s.setColl d k c).bundle = s.bundle := rfl
@[simp] theorem State.setColl_bundleCopy (d k : Nat) (c : Coll) : (s.setColl d k c).bundleCopy = s.bundleCopy := rfl
@[simp] theorem State.setColl_nonce (d k : Nat) (c : Coll) : (s.setColl d k c).nonce = s.nonce := rfl
@[simp] theorem State.setColl_tierSize (d k : Nat) (c : Coll) : (s.setColl d k c).tierSize = s.tierSize := rfl
@[simp] theorem State.setColl_powerUw (d k : Nat) (c : Coll) : (s.setColl d k c).powerUw = s.powerUw := rfl
@[simp] theorem State.setColl_rails (d k : Nat) (c : Coll) : (s.setColl d k c).rails = s.rails := rfl
@[simp] theorem State.setColl_avsFails (d k : Nat) (c : Coll) : (s.setColl d k c).avsFails = s.avsFails := rfl
@[simp] theorem State.setColl_fresh (d k : Nat) (c : Coll) : (s.setColl d k c).fresh = s.fresh := rfl
@[simp] theorem State.setColl_pending (d k : Nat) (c : Coll) : (s.setColl d k c).pending = s.pending := rfl

/-! ### dropColl -/

@[simp] theorem State.dropColl_rf (d k : Nat) : (s.dropColl d k).rf = s.rf := rfl
@[simp] theorem State.dropColl_eff (d k : Nat) : (s.dropColl d k).eff = s.eff := rfl
@[simp] theorem State.dropColl_mem (d k : Nat) : (s.dropColl d k).mem = s.mem := rfl
@[simp] theorem State.dropColl_poison (d k : Nat) : (s.dropColl d k).poison = s.poison := rfl
@[simp] theorem State.dropColl_okWords (d k : Nat) : (s.dropColl d k).okWords = s.okWords := rfl
@[simp] theorem State.dropColl_symErr (d k : Nat) : (s.dropColl d k).symErr = s.symErr := rfl
@[simp] theorem State.dropColl_host (d k : Nat) : (s.dropColl d k).host = s.host := rfl
@[simp] theorem State.dropColl_fuses (d k : Nat) : (s.dropColl d k).fuses = s.fuses := rfl
@[simp] theorem State.dropColl_nvm (d k : Nat) : (s.dropColl d k).nvm = s.nvm := rfl
@[simp] theorem State.dropColl_recorder (d k : Nat) : (s.dropColl d k).recorder = s.recorder := rfl
@[simp] theorem State.dropColl_job (d k : Nat) : (s.dropColl d k).job = s.job := rfl
@[simp] theorem State.dropColl_hif (d k : Nat) : (s.dropColl d k).hif = s.hif := rfl
@[simp] theorem State.dropColl_gaths (d k : Nat) : (s.dropColl d k).gaths = s.gaths := rfl
@[simp] theorem State.dropColl_queues (d k : Nat) : (s.dropColl d k).queues = s.queues := rfl
@[simp] theorem State.dropColl_yarders (d k : Nat) : (s.dropColl d k).yarders = s.yarders := rfl
@[simp] theorem State.dropColl_dies (d k : Nat) : (s.dropColl d k).dies = s.dies := rfl
@[simp] theorem State.dropColl_signals (d k : Nat) : (s.dropColl d k).signals = s.signals := rfl
@[simp] theorem State.dropColl_mtok (d k : Nat) : (s.dropColl d k).mtok = s.mtok := rfl
@[simp] theorem State.dropColl_mOvf (d k : Nat) : (s.dropColl d k).mOvf = s.mOvf := rfl
@[simp] theorem State.dropColl_tor (d k : Nat) : (s.dropColl d k).tor = s.tor := rfl
@[simp] theorem State.dropColl_irl (d k : Nat) : (s.dropColl d k).irl = s.irl := rfl
@[simp] theorem State.dropColl_mons (d k : Nat) : (s.dropColl d k).mons = s.mons := rfl
@[simp] theorem State.dropColl_monEnds (d k : Nat) : (s.dropColl d k).monEnds = s.monEnds := rfl
@[simp] theorem State.dropColl_waits (d k : Nat) : (s.dropColl d k).waits = s.waits := rfl
@[simp] theorem State.dropColl_now (d k : Nat) : (s.dropColl d k).now = s.now := rfl
@[simp] theorem State.dropColl_perst (d k : Nat) : (s.dropColl d k).perst = s.perst := rfl
@[simp] theorem State.dropColl_slot (d k : Nat) : (s.dropColl d k).slot = s.slot := rfl
@[simp] theorem State.dropColl_badRamp (d k : Nat) : (s.dropColl d k).badRamp = s.badRamp := rfl
@[simp] theorem State.dropColl_rampCure (d k : Nat) : (s.dropColl d k).rampCure = s.rampCure := rfl
@[simp] theorem State.dropColl_railUntil (d k : Nat) : (s.dropColl d k).railUntil = s.railUntil := rfl
@[simp] theorem State.dropColl_dead (d k : Nat) : (s.dropColl d k).dead = s.dead := rfl
@[simp] theorem State.dropColl_tripped (d k : Nat) : (s.dropColl d k).tripped = s.tripped := rfl
@[simp] theorem State.dropColl_thermTripN (d k : Nat) : (s.dropColl d k).thermTripN = s.thermTripN := rfl
@[simp] theorem State.dropColl_refclkLost (d k : Nat) : (s.dropColl d k).refclkLost = s.refclkLost := rfl
@[simp] theorem State.dropColl_lpLost (d k : Nat) : (s.dropColl d k).lpLost = s.lpLost := rfl
@[simp] theorem State.dropColl_image (d k : Nat) : (s.dropColl d k).image = s.image := rfl
@[simp] theorem State.dropColl_imageSvn (d k : Nat) : (s.dropColl d k).imageSvn = s.imageSvn := rfl
@[simp] theorem State.dropColl_imageDigest (d k : Nat) : (s.dropColl d k).imageDigest = s.imageDigest := rfl
@[simp] theorem State.dropColl_idKey (d k : Nat) : (s.dropColl d k).idKey = s.idKey := rfl
@[simp] theorem State.dropColl_attest (d k : Nat) : (s.dropColl d k).attest = s.attest := rfl
@[simp] theorem State.dropColl_bundle (d k : Nat) : (s.dropColl d k).bundle = s.bundle := rfl
@[simp] theorem State.dropColl_bundleCopy (d k : Nat) : (s.dropColl d k).bundleCopy = s.bundleCopy := rfl
@[simp] theorem State.dropColl_nonce (d k : Nat) : (s.dropColl d k).nonce = s.nonce := rfl
@[simp] theorem State.dropColl_tierSize (d k : Nat) : (s.dropColl d k).tierSize = s.tierSize := rfl
@[simp] theorem State.dropColl_powerUw (d k : Nat) : (s.dropColl d k).powerUw = s.powerUw := rfl
@[simp] theorem State.dropColl_rails (d k : Nat) : (s.dropColl d k).rails = s.rails := rfl
@[simp] theorem State.dropColl_avsFails (d k : Nat) : (s.dropColl d k).avsFails = s.avsFails := rfl
@[simp] theorem State.dropColl_fresh (d k : Nat) : (s.dropColl d k).fresh = s.fresh := rfl
@[simp] theorem State.dropColl_pending (d k : Nat) : (s.dropColl d k).pending = s.pending := rfl

/-! ### setPort -/

@[simp] theorem State.setPort_rf (p : Nat) (x : Port) : (s.setPort p x).rf = s.rf := rfl
@[simp] theorem State.setPort_eff (p : Nat) (x : Port) : (s.setPort p x).eff = s.eff := rfl
@[simp] theorem State.setPort_mem (p : Nat) (x : Port) : (s.setPort p x).mem = s.mem := rfl
@[simp] theorem State.setPort_poison (p : Nat) (x : Port) : (s.setPort p x).poison = s.poison := rfl
@[simp] theorem State.setPort_okWords (p : Nat) (x : Port) : (s.setPort p x).okWords = s.okWords := rfl
@[simp] theorem State.setPort_symErr (p : Nat) (x : Port) : (s.setPort p x).symErr = s.symErr := rfl
@[simp] theorem State.setPort_host (p : Nat) (x : Port) : (s.setPort p x).host = s.host := rfl
@[simp] theorem State.setPort_fuses (p : Nat) (x : Port) : (s.setPort p x).fuses = s.fuses := rfl
@[simp] theorem State.setPort_nvm (p : Nat) (x : Port) : (s.setPort p x).nvm = s.nvm := rfl
@[simp] theorem State.setPort_recorder (p : Nat) (x : Port) : (s.setPort p x).recorder = s.recorder := rfl
@[simp] theorem State.setPort_job (p : Nat) (x : Port) : (s.setPort p x).job = s.job := rfl
@[simp] theorem State.setPort_hif (p : Nat) (x : Port) : (s.setPort p x).hif = s.hif := rfl
@[simp] theorem State.setPort_gaths (p : Nat) (x : Port) : (s.setPort p x).gaths = s.gaths := rfl
@[simp] theorem State.setPort_queues (p : Nat) (x : Port) : (s.setPort p x).queues = s.queues := rfl
@[simp] theorem State.setPort_yarders (p : Nat) (x : Port) : (s.setPort p x).yarders = s.yarders := rfl
@[simp] theorem State.setPort_colls (p : Nat) (x : Port) : (s.setPort p x).colls = s.colls := rfl
@[simp] theorem State.setPort_dies (p : Nat) (x : Port) : (s.setPort p x).dies = s.dies := rfl
@[simp] theorem State.setPort_signals (p : Nat) (x : Port) : (s.setPort p x).signals = s.signals := rfl
@[simp] theorem State.setPort_mtok (p : Nat) (x : Port) : (s.setPort p x).mtok = s.mtok := rfl
@[simp] theorem State.setPort_mOvf (p : Nat) (x : Port) : (s.setPort p x).mOvf = s.mOvf := rfl
@[simp] theorem State.setPort_irl (p : Nat) (x : Port) : (s.setPort p x).irl = s.irl := rfl
@[simp] theorem State.setPort_mons (p : Nat) (x : Port) : (s.setPort p x).mons = s.mons := rfl
@[simp] theorem State.setPort_monEnds (p : Nat) (x : Port) : (s.setPort p x).monEnds = s.monEnds := rfl
@[simp] theorem State.setPort_waits (p : Nat) (x : Port) : (s.setPort p x).waits = s.waits := rfl
@[simp] theorem State.setPort_now (p : Nat) (x : Port) : (s.setPort p x).now = s.now := rfl
@[simp] theorem State.setPort_perst (p : Nat) (x : Port) : (s.setPort p x).perst = s.perst := rfl
@[simp] theorem State.setPort_slot (p : Nat) (x : Port) : (s.setPort p x).slot = s.slot := rfl
@[simp] theorem State.setPort_badRamp (p : Nat) (x : Port) : (s.setPort p x).badRamp = s.badRamp := rfl
@[simp] theorem State.setPort_rampCure (p : Nat) (x : Port) : (s.setPort p x).rampCure = s.rampCure := rfl
@[simp] theorem State.setPort_railUntil (p : Nat) (x : Port) : (s.setPort p x).railUntil = s.railUntil := rfl
@[simp] theorem State.setPort_dead (p : Nat) (x : Port) : (s.setPort p x).dead = s.dead := rfl
@[simp] theorem State.setPort_tripped (p : Nat) (x : Port) : (s.setPort p x).tripped = s.tripped := rfl
@[simp] theorem State.setPort_thermTripN (p : Nat) (x : Port) : (s.setPort p x).thermTripN = s.thermTripN := rfl
@[simp] theorem State.setPort_refclkLost (p : Nat) (x : Port) : (s.setPort p x).refclkLost = s.refclkLost := rfl
@[simp] theorem State.setPort_lpLost (p : Nat) (x : Port) : (s.setPort p x).lpLost = s.lpLost := rfl
@[simp] theorem State.setPort_image (p : Nat) (x : Port) : (s.setPort p x).image = s.image := rfl
@[simp] theorem State.setPort_imageSvn (p : Nat) (x : Port) : (s.setPort p x).imageSvn = s.imageSvn := rfl
@[simp] theorem State.setPort_imageDigest (p : Nat) (x : Port) : (s.setPort p x).imageDigest = s.imageDigest := rfl
@[simp] theorem State.setPort_idKey (p : Nat) (x : Port) : (s.setPort p x).idKey = s.idKey := rfl
@[simp] theorem State.setPort_attest (p : Nat) (x : Port) : (s.setPort p x).attest = s.attest := rfl
@[simp] theorem State.setPort_bundle (p : Nat) (x : Port) : (s.setPort p x).bundle = s.bundle := rfl
@[simp] theorem State.setPort_bundleCopy (p : Nat) (x : Port) : (s.setPort p x).bundleCopy = s.bundleCopy := rfl
@[simp] theorem State.setPort_nonce (p : Nat) (x : Port) : (s.setPort p x).nonce = s.nonce := rfl
@[simp] theorem State.setPort_tierSize (p : Nat) (x : Port) : (s.setPort p x).tierSize = s.tierSize := rfl
@[simp] theorem State.setPort_powerUw (p : Nat) (x : Port) : (s.setPort p x).powerUw = s.powerUw := rfl
@[simp] theorem State.setPort_rails (p : Nat) (x : Port) : (s.setPort p x).rails = s.rails := rfl
@[simp] theorem State.setPort_avsFails (p : Nat) (x : Port) : (s.setPort p x).avsFails = s.avsFails := rfl
@[simp] theorem State.setPort_fresh (p : Nat) (x : Port) : (s.setPort p x).fresh = s.fresh := rfl
@[simp] theorem State.setPort_pending (p : Nat) (x : Port) : (s.setPort p x).pending = s.pending := rfl

/-! ### wrL -/

@[simp] theorem State.wrL_rf (a : Nat) (l : List Nat) : (s.wrL a l).rf = s.rf := rfl
@[simp] theorem State.wrL_eff (a : Nat) (l : List Nat) : (s.wrL a l).eff = s.eff := rfl
@[simp] theorem State.wrL_poison (a : Nat) (l : List Nat) : (s.wrL a l).poison = s.poison := rfl
@[simp] theorem State.wrL_okWords (a : Nat) (l : List Nat) : (s.wrL a l).okWords = s.okWords := rfl
@[simp] theorem State.wrL_symErr (a : Nat) (l : List Nat) : (s.wrL a l).symErr = s.symErr := rfl
@[simp] theorem State.wrL_host (a : Nat) (l : List Nat) : (s.wrL a l).host = s.host := rfl
@[simp] theorem State.wrL_fuses (a : Nat) (l : List Nat) : (s.wrL a l).fuses = s.fuses := rfl
@[simp] theorem State.wrL_nvm (a : Nat) (l : List Nat) : (s.wrL a l).nvm = s.nvm := rfl
@[simp] theorem State.wrL_recorder (a : Nat) (l : List Nat) : (s.wrL a l).recorder = s.recorder := rfl
@[simp] theorem State.wrL_job (a : Nat) (l : List Nat) : (s.wrL a l).job = s.job := rfl
@[simp] theorem State.wrL_hif (a : Nat) (l : List Nat) : (s.wrL a l).hif = s.hif := rfl
@[simp] theorem State.wrL_gaths (a : Nat) (l : List Nat) : (s.wrL a l).gaths = s.gaths := rfl
@[simp] theorem State.wrL_queues (a : Nat) (l : List Nat) : (s.wrL a l).queues = s.queues := rfl
@[simp] theorem State.wrL_yarders (a : Nat) (l : List Nat) : (s.wrL a l).yarders = s.yarders := rfl
@[simp] theorem State.wrL_colls (a : Nat) (l : List Nat) : (s.wrL a l).colls = s.colls := rfl
@[simp] theorem State.wrL_dies (a : Nat) (l : List Nat) : (s.wrL a l).dies = s.dies := rfl
@[simp] theorem State.wrL_signals (a : Nat) (l : List Nat) : (s.wrL a l).signals = s.signals := rfl
@[simp] theorem State.wrL_mtok (a : Nat) (l : List Nat) : (s.wrL a l).mtok = s.mtok := rfl
@[simp] theorem State.wrL_mOvf (a : Nat) (l : List Nat) : (s.wrL a l).mOvf = s.mOvf := rfl
@[simp] theorem State.wrL_tor (a : Nat) (l : List Nat) : (s.wrL a l).tor = s.tor := rfl
@[simp] theorem State.wrL_irl (a : Nat) (l : List Nat) : (s.wrL a l).irl = s.irl := rfl
@[simp] theorem State.wrL_mons (a : Nat) (l : List Nat) : (s.wrL a l).mons = s.mons := rfl
@[simp] theorem State.wrL_monEnds (a : Nat) (l : List Nat) : (s.wrL a l).monEnds = s.monEnds := rfl
@[simp] theorem State.wrL_waits (a : Nat) (l : List Nat) : (s.wrL a l).waits = s.waits := rfl
@[simp] theorem State.wrL_now (a : Nat) (l : List Nat) : (s.wrL a l).now = s.now := rfl
@[simp] theorem State.wrL_perst (a : Nat) (l : List Nat) : (s.wrL a l).perst = s.perst := rfl
@[simp] theorem State.wrL_slot (a : Nat) (l : List Nat) : (s.wrL a l).slot = s.slot := rfl
@[simp] theorem State.wrL_badRamp (a : Nat) (l : List Nat) : (s.wrL a l).badRamp = s.badRamp := rfl
@[simp] theorem State.wrL_rampCure (a : Nat) (l : List Nat) : (s.wrL a l).rampCure = s.rampCure := rfl
@[simp] theorem State.wrL_railUntil (a : Nat) (l : List Nat) : (s.wrL a l).railUntil = s.railUntil := rfl
@[simp] theorem State.wrL_dead (a : Nat) (l : List Nat) : (s.wrL a l).dead = s.dead := rfl
@[simp] theorem State.wrL_tripped (a : Nat) (l : List Nat) : (s.wrL a l).tripped = s.tripped := rfl
@[simp] theorem State.wrL_thermTripN (a : Nat) (l : List Nat) : (s.wrL a l).thermTripN = s.thermTripN := rfl
@[simp] theorem State.wrL_refclkLost (a : Nat) (l : List Nat) : (s.wrL a l).refclkLost = s.refclkLost := rfl
@[simp] theorem State.wrL_lpLost (a : Nat) (l : List Nat) : (s.wrL a l).lpLost = s.lpLost := rfl
@[simp] theorem State.wrL_image (a : Nat) (l : List Nat) : (s.wrL a l).image = s.image := rfl
@[simp] theorem State.wrL_imageSvn (a : Nat) (l : List Nat) : (s.wrL a l).imageSvn = s.imageSvn := rfl
@[simp] theorem State.wrL_imageDigest (a : Nat) (l : List Nat) : (s.wrL a l).imageDigest = s.imageDigest := rfl
@[simp] theorem State.wrL_idKey (a : Nat) (l : List Nat) : (s.wrL a l).idKey = s.idKey := rfl
@[simp] theorem State.wrL_attest (a : Nat) (l : List Nat) : (s.wrL a l).attest = s.attest := rfl
@[simp] theorem State.wrL_bundle (a : Nat) (l : List Nat) : (s.wrL a l).bundle = s.bundle := rfl
@[simp] theorem State.wrL_bundleCopy (a : Nat) (l : List Nat) : (s.wrL a l).bundleCopy = s.bundleCopy := rfl
@[simp] theorem State.wrL_nonce (a : Nat) (l : List Nat) : (s.wrL a l).nonce = s.nonce := rfl
@[simp] theorem State.wrL_tierSize (a : Nat) (l : List Nat) : (s.wrL a l).tierSize = s.tierSize := rfl
@[simp] theorem State.wrL_powerUw (a : Nat) (l : List Nat) : (s.wrL a l).powerUw = s.powerUw := rfl
@[simp] theorem State.wrL_rails (a : Nat) (l : List Nat) : (s.wrL a l).rails = s.rails := rfl
@[simp] theorem State.wrL_avsFails (a : Nat) (l : List Nat) : (s.wrL a l).avsFails = s.avsFails := rfl
@[simp] theorem State.wrL_fresh (a : Nat) (l : List Nat) : (s.wrL a l).fresh = s.fresh := rfl
@[simp] theorem State.wrL_pending (a : Nat) (l : List Nat) : (s.wrL a l).pending = s.pending := rfl

/-! ### wr -/

@[simp] theorem State.wr_rf (a n v : Nat) : (s.wr a n v).rf = s.rf := rfl
@[simp] theorem State.wr_eff (a n v : Nat) : (s.wr a n v).eff = s.eff := rfl
@[simp] theorem State.wr_poison (a n v : Nat) : (s.wr a n v).poison = s.poison := rfl
@[simp] theorem State.wr_okWords (a n v : Nat) : (s.wr a n v).okWords = s.okWords := rfl
@[simp] theorem State.wr_symErr (a n v : Nat) : (s.wr a n v).symErr = s.symErr := rfl
@[simp] theorem State.wr_host (a n v : Nat) : (s.wr a n v).host = s.host := rfl
@[simp] theorem State.wr_fuses (a n v : Nat) : (s.wr a n v).fuses = s.fuses := rfl
@[simp] theorem State.wr_nvm (a n v : Nat) : (s.wr a n v).nvm = s.nvm := rfl
@[simp] theorem State.wr_recorder (a n v : Nat) : (s.wr a n v).recorder = s.recorder := rfl
@[simp] theorem State.wr_job (a n v : Nat) : (s.wr a n v).job = s.job := rfl
@[simp] theorem State.wr_hif (a n v : Nat) : (s.wr a n v).hif = s.hif := rfl
@[simp] theorem State.wr_gaths (a n v : Nat) : (s.wr a n v).gaths = s.gaths := rfl
@[simp] theorem State.wr_queues (a n v : Nat) : (s.wr a n v).queues = s.queues := rfl
@[simp] theorem State.wr_yarders (a n v : Nat) : (s.wr a n v).yarders = s.yarders := rfl
@[simp] theorem State.wr_colls (a n v : Nat) : (s.wr a n v).colls = s.colls := rfl
@[simp] theorem State.wr_dies (a n v : Nat) : (s.wr a n v).dies = s.dies := rfl
@[simp] theorem State.wr_signals (a n v : Nat) : (s.wr a n v).signals = s.signals := rfl
@[simp] theorem State.wr_mtok (a n v : Nat) : (s.wr a n v).mtok = s.mtok := rfl
@[simp] theorem State.wr_mOvf (a n v : Nat) : (s.wr a n v).mOvf = s.mOvf := rfl
@[simp] theorem State.wr_tor (a n v : Nat) : (s.wr a n v).tor = s.tor := rfl
@[simp] theorem State.wr_irl (a n v : Nat) : (s.wr a n v).irl = s.irl := rfl
@[simp] theorem State.wr_mons (a n v : Nat) : (s.wr a n v).mons = s.mons := rfl
@[simp] theorem State.wr_monEnds (a n v : Nat) : (s.wr a n v).monEnds = s.monEnds := rfl
@[simp] theorem State.wr_waits (a n v : Nat) : (s.wr a n v).waits = s.waits := rfl
@[simp] theorem State.wr_now (a n v : Nat) : (s.wr a n v).now = s.now := rfl
@[simp] theorem State.wr_perst (a n v : Nat) : (s.wr a n v).perst = s.perst := rfl
@[simp] theorem State.wr_slot (a n v : Nat) : (s.wr a n v).slot = s.slot := rfl
@[simp] theorem State.wr_badRamp (a n v : Nat) : (s.wr a n v).badRamp = s.badRamp := rfl
@[simp] theorem State.wr_rampCure (a n v : Nat) : (s.wr a n v).rampCure = s.rampCure := rfl
@[simp] theorem State.wr_railUntil (a n v : Nat) : (s.wr a n v).railUntil = s.railUntil := rfl
@[simp] theorem State.wr_dead (a n v : Nat) : (s.wr a n v).dead = s.dead := rfl
@[simp] theorem State.wr_tripped (a n v : Nat) : (s.wr a n v).tripped = s.tripped := rfl
@[simp] theorem State.wr_thermTripN (a n v : Nat) : (s.wr a n v).thermTripN = s.thermTripN := rfl
@[simp] theorem State.wr_refclkLost (a n v : Nat) : (s.wr a n v).refclkLost = s.refclkLost := rfl
@[simp] theorem State.wr_lpLost (a n v : Nat) : (s.wr a n v).lpLost = s.lpLost := rfl
@[simp] theorem State.wr_image (a n v : Nat) : (s.wr a n v).image = s.image := rfl
@[simp] theorem State.wr_imageSvn (a n v : Nat) : (s.wr a n v).imageSvn = s.imageSvn := rfl
@[simp] theorem State.wr_imageDigest (a n v : Nat) : (s.wr a n v).imageDigest = s.imageDigest := rfl
@[simp] theorem State.wr_idKey (a n v : Nat) : (s.wr a n v).idKey = s.idKey := rfl
@[simp] theorem State.wr_attest (a n v : Nat) : (s.wr a n v).attest = s.attest := rfl
@[simp] theorem State.wr_bundle (a n v : Nat) : (s.wr a n v).bundle = s.bundle := rfl
@[simp] theorem State.wr_bundleCopy (a n v : Nat) : (s.wr a n v).bundleCopy = s.bundleCopy := rfl
@[simp] theorem State.wr_nonce (a n v : Nat) : (s.wr a n v).nonce = s.nonce := rfl
@[simp] theorem State.wr_tierSize (a n v : Nat) : (s.wr a n v).tierSize = s.tierSize := rfl
@[simp] theorem State.wr_powerUw (a n v : Nat) : (s.wr a n v).powerUw = s.powerUw := rfl
@[simp] theorem State.wr_rails (a n v : Nat) : (s.wr a n v).rails = s.rails := rfl
@[simp] theorem State.wr_avsFails (a n v : Nat) : (s.wr a n v).avsFails = s.avsFails := rfl
@[simp] theorem State.wr_fresh (a n v : Nat) : (s.wr a n v).fresh = s.fresh := rfl
@[simp] theorem State.wr_pending (a n v : Nat) : (s.wr a n v).pending = s.pending := rfl

/-! ### wrMasked -/

@[simp] theorem State.wrMasked_rf (c : Nat × Nat) : (s.wrMasked c).rf = s.rf := rfl
@[simp] theorem State.wrMasked_eff (c : Nat × Nat) : (s.wrMasked c).eff = s.eff := rfl
@[simp] theorem State.wrMasked_poison (c : Nat × Nat) : (s.wrMasked c).poison = s.poison := rfl
@[simp] theorem State.wrMasked_okWords (c : Nat × Nat) : (s.wrMasked c).okWords = s.okWords := rfl
@[simp] theorem State.wrMasked_symErr (c : Nat × Nat) : (s.wrMasked c).symErr = s.symErr := rfl
@[simp] theorem State.wrMasked_host (c : Nat × Nat) : (s.wrMasked c).host = s.host := rfl
@[simp] theorem State.wrMasked_fuses (c : Nat × Nat) : (s.wrMasked c).fuses = s.fuses := rfl
@[simp] theorem State.wrMasked_nvm (c : Nat × Nat) : (s.wrMasked c).nvm = s.nvm := rfl
@[simp] theorem State.wrMasked_recorder (c : Nat × Nat) : (s.wrMasked c).recorder = s.recorder := rfl
@[simp] theorem State.wrMasked_job (c : Nat × Nat) : (s.wrMasked c).job = s.job := rfl
@[simp] theorem State.wrMasked_hif (c : Nat × Nat) : (s.wrMasked c).hif = s.hif := rfl
@[simp] theorem State.wrMasked_gaths (c : Nat × Nat) : (s.wrMasked c).gaths = s.gaths := rfl
@[simp] theorem State.wrMasked_queues (c : Nat × Nat) : (s.wrMasked c).queues = s.queues := rfl
@[simp] theorem State.wrMasked_yarders (c : Nat × Nat) : (s.wrMasked c).yarders = s.yarders := rfl
@[simp] theorem State.wrMasked_colls (c : Nat × Nat) : (s.wrMasked c).colls = s.colls := rfl
@[simp] theorem State.wrMasked_dies (c : Nat × Nat) : (s.wrMasked c).dies = s.dies := rfl
@[simp] theorem State.wrMasked_signals (c : Nat × Nat) : (s.wrMasked c).signals = s.signals := rfl
@[simp] theorem State.wrMasked_mtok (c : Nat × Nat) : (s.wrMasked c).mtok = s.mtok := rfl
@[simp] theorem State.wrMasked_mOvf (c : Nat × Nat) : (s.wrMasked c).mOvf = s.mOvf := rfl
@[simp] theorem State.wrMasked_tor (c : Nat × Nat) : (s.wrMasked c).tor = s.tor := rfl
@[simp] theorem State.wrMasked_irl (c : Nat × Nat) : (s.wrMasked c).irl = s.irl := rfl
@[simp] theorem State.wrMasked_mons (c : Nat × Nat) : (s.wrMasked c).mons = s.mons := rfl
@[simp] theorem State.wrMasked_monEnds (c : Nat × Nat) : (s.wrMasked c).monEnds = s.monEnds := rfl
@[simp] theorem State.wrMasked_waits (c : Nat × Nat) : (s.wrMasked c).waits = s.waits := rfl
@[simp] theorem State.wrMasked_now (c : Nat × Nat) : (s.wrMasked c).now = s.now := rfl
@[simp] theorem State.wrMasked_perst (c : Nat × Nat) : (s.wrMasked c).perst = s.perst := rfl
@[simp] theorem State.wrMasked_slot (c : Nat × Nat) : (s.wrMasked c).slot = s.slot := rfl
@[simp] theorem State.wrMasked_badRamp (c : Nat × Nat) : (s.wrMasked c).badRamp = s.badRamp := rfl
@[simp] theorem State.wrMasked_rampCure (c : Nat × Nat) : (s.wrMasked c).rampCure = s.rampCure := rfl
@[simp] theorem State.wrMasked_railUntil (c : Nat × Nat) : (s.wrMasked c).railUntil = s.railUntil := rfl
@[simp] theorem State.wrMasked_dead (c : Nat × Nat) : (s.wrMasked c).dead = s.dead := rfl
@[simp] theorem State.wrMasked_tripped (c : Nat × Nat) : (s.wrMasked c).tripped = s.tripped := rfl
@[simp] theorem State.wrMasked_thermTripN (c : Nat × Nat) : (s.wrMasked c).thermTripN = s.thermTripN := rfl
@[simp] theorem State.wrMasked_refclkLost (c : Nat × Nat) : (s.wrMasked c).refclkLost = s.refclkLost := rfl
@[simp] theorem State.wrMasked_lpLost (c : Nat × Nat) : (s.wrMasked c).lpLost = s.lpLost := rfl
@[simp] theorem State.wrMasked_image (c : Nat × Nat) : (s.wrMasked c).image = s.image := rfl
@[simp] theorem State.wrMasked_imageSvn (c : Nat × Nat) : (s.wrMasked c).imageSvn = s.imageSvn := rfl
@[simp] theorem State.wrMasked_imageDigest (c : Nat × Nat) : (s.wrMasked c).imageDigest = s.imageDigest := rfl
@[simp] theorem State.wrMasked_idKey (c : Nat × Nat) : (s.wrMasked c).idKey = s.idKey := rfl
@[simp] theorem State.wrMasked_attest (c : Nat × Nat) : (s.wrMasked c).attest = s.attest := rfl
@[simp] theorem State.wrMasked_bundle (c : Nat × Nat) : (s.wrMasked c).bundle = s.bundle := rfl
@[simp] theorem State.wrMasked_bundleCopy (c : Nat × Nat) : (s.wrMasked c).bundleCopy = s.bundleCopy := rfl
@[simp] theorem State.wrMasked_nonce (c : Nat × Nat) : (s.wrMasked c).nonce = s.nonce := rfl
@[simp] theorem State.wrMasked_tierSize (c : Nat × Nat) : (s.wrMasked c).tierSize = s.tierSize := rfl
@[simp] theorem State.wrMasked_powerUw (c : Nat × Nat) : (s.wrMasked c).powerUw = s.powerUw := rfl
@[simp] theorem State.wrMasked_rails (c : Nat × Nat) : (s.wrMasked c).rails = s.rails := rfl
@[simp] theorem State.wrMasked_avsFails (c : Nat × Nat) : (s.wrMasked c).avsFails = s.avsFails := rfl
@[simp] theorem State.wrMasked_fresh (c : Nat × Nat) : (s.wrMasked c).fresh = s.fresh := rfl
@[simp] theorem State.wrMasked_pending (c : Nat × Nat) : (s.wrMasked c).pending = s.pending := rfl

end Sys2Proof.Machine
end

