-- ==== Sys2Proof/Laws/Frames.lean ====
section
/-! SUPPORT. What each shared operation leaves alone: events, interrupts, history, tokens, lists and completions. -/

namespace Sys2Proof.Machine

/-- What every turn of a fold leaves alone, the fold leaves alone. -/
theorem foldl_keeps {α β : Type} (p : State → β) (f : State → α → State) (h : ∀ s a, p (f s a) = p s) :
    ∀ (l : List α) (s : State), p (l.foldl f s) = p s
  | [], _ => rfl
  | a :: l, s => by rw [List.foldl_cons, foldl_keeps p f h l, h]

variable (s : State)

/-! ### report -/

@[simp] theorem State.report_eff (r : Report) : (s.report r).eff = s.eff := by
  first | rfl | (unfold State.report; (try dsimp only); (repeat' split) <;> first | rfl | simp)
@[simp] theorem State.report_mem (r : Report) : (s.report r).mem = s.mem := by
  first | rfl | (unfold State.report; (try dsimp only); (repeat' split) <;> first | rfl | simp)
@[simp] theorem State.report_poison (r : Report) : (s.report r).poison = s.poison := by
  first | rfl | (unfold State.report; (try dsimp only); (repeat' split) <;> first | rfl | simp)
@[simp] theorem State.report_okWords (r : Report) : (s.report r).okWords = s.okWords := by
  first | rfl | (unfold State.report; (try dsimp only); (repeat' split) <;> first | rfl | simp)
@[simp] theorem State.report_symErr (r : Report) : (s.report r).symErr = s.symErr := by
  first | rfl | (unfold State.report; (try dsimp only); (repeat' split) <;> first | rfl | simp)
@[simp] theorem State.report_host (r : Report) : (s.report r).host = s.host := by
  first | rfl | (unfold State.report; (try dsimp only); (repeat' split) <;> first | rfl | simp)
@[simp] theorem State.report_fuses (r : Report) : (s.report r).fuses = s.fuses := by
  first | rfl | (unfold State.report; (try dsimp only); (repeat' split) <;> first | rfl | simp)
@[simp] theorem State.report_nvm (r : Report) : (s.report r).nvm = s.nvm := by
  first | rfl | (unfold State.report; (try dsimp only); (repeat' split) <;> first | rfl | simp)
@[simp] theorem State.report_job (r : Report) : (s.report r).job = s.job := by
  first | rfl | (unfold State.report; (try dsimp only); (repeat' split) <;> first | rfl | simp)
@[simp] theorem State.report_hif (r : Report) : (s.report r).hif = s.hif := by
  first | rfl | (unfold State.report; (try dsimp only); (repeat' split) <;> first | rfl | simp)
@[simp] theorem State.report_gaths (r : Report) : (s.report r).gaths = s.gaths := by
  first | rfl | (unfold State.report; (try dsimp only); (repeat' split) <;> first | rfl | simp)
@[simp] theorem State.report_queues (r : Report) : (s.report r).queues = s.queues := by
  first | rfl | (unfold State.report; (try dsimp only); (repeat' split) <;> first | rfl | simp)
@[simp] theorem State.report_yarders (r : Report) : (s.report r).yarders = s.yarders := by
  first | rfl | (unfold State.report; (try dsimp only); (repeat' split) <;> first | rfl | simp)
@[simp] theorem State.report_colls (r : Report) : (s.report r).colls = s.colls := by
  first | rfl | (unfold State.report; (try dsimp only); (repeat' split) <;> first | rfl | simp)
@[simp] theorem State.report_dies (r : Report) : (s.report r).dies = s.dies := by
  first | rfl | (unfold State.report; (try dsimp only); (repeat' split) <;> first | rfl | simp)
@[simp] theorem State.report_signals (r : Report) : (s.report r).signals = s.signals := by
  first | rfl | (unfold State.report; (try dsimp only); (repeat' split) <;> first | rfl | simp)
@[simp] theorem State.report_mtok (r : Report) : (s.report r).mtok = s.mtok := by
  first | rfl | (unfold State.report; (try dsimp only); (repeat' split) <;> first | rfl | simp)
@[simp] theorem State.report_mOvf (r : Report) : (s.report r).mOvf = s.mOvf := by
  first | rfl | (unfold State.report; (try dsimp only); (repeat' split) <;> first | rfl | simp)
@[simp] theorem State.report_tor (r : Report) : (s.report r).tor = s.tor := by
  first | rfl | (unfold State.report; (try dsimp only); (repeat' split) <;> first | rfl | simp)
@[simp] theorem State.report_irl (r : Report) : (s.report r).irl = s.irl := by
  first | rfl | (unfold State.report; (try dsimp only); (repeat' split) <;> first | rfl | simp)
@[simp] theorem State.report_mons (r : Report) : (s.report r).mons = s.mons := by
  first | rfl | (unfold State.report; (try dsimp only); (repeat' split) <;> first | rfl | simp)
@[simp] theorem State.report_monEnds (r : Report) : (s.report r).monEnds = s.monEnds := by
  first | rfl | (unfold State.report; (try dsimp only); (repeat' split) <;> first | rfl | simp)
@[simp] theorem State.report_waits (r : Report) : (s.report r).waits = s.waits := by
  first | rfl | (unfold State.report; (try dsimp only); (repeat' split) <;> first | rfl | simp)
@[simp] theorem State.report_now (r : Report) : (s.report r).now = s.now := by
  first | rfl | (unfold State.report; (try dsimp only); (repeat' split) <;> first | rfl | simp)
@[simp] theorem State.report_perst (r : Report) : (s.report r).perst = s.perst := by
  first | rfl | (unfold State.report; (try dsimp only); (repeat' split) <;> first | rfl | simp)
@[simp] theorem State.report_slot (r : Report) : (s.report r).slot = s.slot := by
  first | rfl | (unfold State.report; (try dsimp only); (repeat' split) <;> first | rfl | simp)
@[simp] theorem State.report_badRamp (r : Report) : (s.report r).badRamp = s.badRamp := by
  first | rfl | (unfold State.report; (try dsimp only); (repeat' split) <;> first | rfl | simp)
@[simp] theorem State.report_rampCure (r : Report) : (s.report r).rampCure = s.rampCure := by
  first | rfl | (unfold State.report; (try dsimp only); (repeat' split) <;> first | rfl | simp)
@[simp] theorem State.report_railUntil (r : Report) : (s.report r).railUntil = s.railUntil := by
  first | rfl | (unfold State.report; (try dsimp only); (repeat' split) <;> first | rfl | simp)
@[simp] theorem State.report_dead (r : Report) : (s.report r).dead = s.dead := by
  first | rfl | (unfold State.report; (try dsimp only); (repeat' split) <;> first | rfl | simp)
@[simp] theorem State.report_tripped (r : Report) : (s.report r).tripped = s.tripped := by
  first | rfl | (unfold State.report; (try dsimp only); (repeat' split) <;> first | rfl | simp)
@[simp] theorem State.report_thermTripN (r : Report) : (s.report r).thermTripN = s.thermTripN := by
  first | rfl | (unfold State.report; (try dsimp only); (repeat' split) <;> first | rfl | simp)
@[simp] theorem State.report_refclkLost (r : Report) : (s.report r).refclkLost = s.refclkLost := by
  first | rfl | (unfold State.report; (try dsimp only); (repeat' split) <;> first | rfl | simp)
@[simp] theorem State.report_lpLost (r : Report) : (s.report r).lpLost = s.lpLost := by
  first | rfl | (unfold State.report; (try dsimp only); (repeat' split) <;> first | rfl | simp)
@[simp] theorem State.report_image (r : Report) : (s.report r).image = s.image := by
  first | rfl | (unfold State.report; (try dsimp only); (repeat' split) <;> first | rfl | simp)
@[simp] theorem State.report_imageSvn (r : Report) : (s.report r).imageSvn = s.imageSvn := by
  first | rfl | (unfold State.report; (try dsimp only); (repeat' split) <;> first | rfl | simp)
@[simp] theorem State.report_imageDigest (r : Report) : (s.report r).imageDigest = s.imageDigest := by
  first | rfl | (unfold State.report; (try dsimp only); (repeat' split) <;> first | rfl | simp)
@[simp] theorem State.report_idKey (r : Report) : (s.report r).idKey = s.idKey := by
  first | rfl | (unfold State.report; (try dsimp only); (repeat' split) <;> first | rfl | simp)
@[simp] theorem State.report_attest (r : Report) : (s.report r).attest = s.attest := by
  first | rfl | (unfold State.report; (try dsimp only); (repeat' split) <;> first | rfl | simp)
@[simp] theorem State.report_bundle (r : Report) : (s.report r).bundle = s.bundle := by
  first | rfl | (unfold State.report; (try dsimp only); (repeat' split) <;> first | rfl | simp)
@[simp] theorem State.report_bundleCopy (r : Report) : (s.report r).bundleCopy = s.bundleCopy := by
  first | rfl | (unfold State.report; (try dsimp only); (repeat' split) <;> first | rfl | simp)
@[simp] theorem State.report_nonce (r : Report) : (s.report r).nonce = s.nonce := by
  first | rfl | (unfold State.report; (try dsimp only); (repeat' split) <;> first | rfl | simp)
@[simp] theorem State.report_tierSize (r : Report) : (s.report r).tierSize = s.tierSize := by
  first | rfl | (unfold State.report; (try dsimp only); (repeat' split) <;> first | rfl | simp)
@[simp] theorem State.report_powerUw (r : Report) : (s.report r).powerUw = s.powerUw := by
  first | rfl | (unfold State.report; (try dsimp only); (repeat' split) <;> first | rfl | simp)
@[simp] theorem State.report_rails (r : Report) : (s.report r).rails = s.rails := by
  first | rfl | (unfold State.report; (try dsimp only); (repeat' split) <;> first | rfl | simp)
@[simp] theorem State.report_avsFails (r : Report) : (s.report r).avsFails = s.avsFails := by
  first | rfl | (unfold State.report; (try dsimp only); (repeat' split) <;> first | rfl | simp)
@[simp] theorem State.report_fresh (r : Report) : (s.report r).fresh = s.fresh := by
  first | rfl | (unfold State.report; (try dsimp only); (repeat' split) <;> first | rfl | simp)
@[simp] theorem State.report_pending (r : Report) : (s.report r).pending = s.pending := by
  first | rfl | (unfold State.report; (try dsimp only); (repeat' split) <;> first | rfl | simp)

/-! ### ibiRaise -/

@[simp] theorem State.ibiRaise_rf (e : Err) : (s.ibiRaise e).rf = s.rf := by
  unfold State.ibiRaise; extract_lets m; split <;> rfl
@[simp] theorem State.ibiRaise_eff (e : Err) : (s.ibiRaise e).eff = s.eff := by
  unfold State.ibiRaise; extract_lets m; split <;> rfl
@[simp] theorem State.ibiRaise_mem (e : Err) : (s.ibiRaise e).mem = s.mem := by
  unfold State.ibiRaise; extract_lets m; split <;> rfl
@[simp] theorem State.ibiRaise_poison (e : Err) : (s.ibiRaise e).poison = s.poison := by
  unfold State.ibiRaise; extract_lets m; split <;> rfl
@[simp] theorem State.ibiRaise_okWords (e : Err) : (s.ibiRaise e).okWords = s.okWords := by
  unfold State.ibiRaise; extract_lets m; split <;> rfl
@[simp] theorem State.ibiRaise_symErr (e : Err) : (s.ibiRaise e).symErr = s.symErr := by
  unfold State.ibiRaise; extract_lets m; split <;> rfl
@[simp] theorem State.ibiRaise_host (e : Err) : (s.ibiRaise e).host = s.host := by
  unfold State.ibiRaise; extract_lets m; split <;> rfl
@[simp] theorem State.ibiRaise_fuses (e : Err) : (s.ibiRaise e).fuses = s.fuses := by
  unfold State.ibiRaise; extract_lets m; split <;> rfl
@[simp] theorem State.ibiRaise_nvm (e : Err) : (s.ibiRaise e).nvm = s.nvm := by
  unfold State.ibiRaise; extract_lets m; split <;> rfl
@[simp] theorem State.ibiRaise_recorder (e : Err) : (s.ibiRaise e).recorder = s.recorder := by
  unfold State.ibiRaise; extract_lets m; split <;> rfl
@[simp] theorem State.ibiRaise_job (e : Err) : (s.ibiRaise e).job = s.job := by
  unfold State.ibiRaise; extract_lets m; split <;> rfl
@[simp] theorem State.ibiRaise_gaths (e : Err) : (s.ibiRaise e).gaths = s.gaths := by
  unfold State.ibiRaise; extract_lets m; split <;> rfl
@[simp] theorem State.ibiRaise_queues (e : Err) : (s.ibiRaise e).queues = s.queues := by
  unfold State.ibiRaise; extract_lets m; split <;> rfl
@[simp] theorem State.ibiRaise_yarders (e : Err) : (s.ibiRaise e).yarders = s.yarders := by
  unfold State.ibiRaise; extract_lets m; split <;> rfl
@[simp] theorem State.ibiRaise_colls (e : Err) : (s.ibiRaise e).colls = s.colls := by
  unfold State.ibiRaise; extract_lets m; split <;> rfl
@[simp] theorem State.ibiRaise_dies (e : Err) : (s.ibiRaise e).dies = s.dies := by
  unfold State.ibiRaise; extract_lets m; split <;> rfl
@[simp] theorem State.ibiRaise_signals (e : Err) : (s.ibiRaise e).signals = s.signals := by
  unfold State.ibiRaise; extract_lets m; split <;> rfl
@[simp] theorem State.ibiRaise_mtok (e : Err) : (s.ibiRaise e).mtok = s.mtok := by
  unfold State.ibiRaise; extract_lets m; split <;> rfl
@[simp] theorem State.ibiRaise_mOvf (e : Err) : (s.ibiRaise e).mOvf = s.mOvf := by
  unfold State.ibiRaise; extract_lets m; split <;> rfl
@[simp] theorem State.ibiRaise_tor (e : Err) : (s.ibiRaise e).tor = s.tor := by
  unfold State.ibiRaise; extract_lets m; split <;> rfl
@[simp] theorem State.ibiRaise_irl (e : Err) : (s.ibiRaise e).irl = s.irl := by
  unfold State.ibiRaise; extract_lets m; split <;> rfl
@[simp] theorem State.ibiRaise_mons (e : Err) : (s.ibiRaise e).mons = s.mons := by
  unfold State.ibiRaise; extract_lets m; split <;> rfl
@[simp] theorem State.ibiRaise_monEnds (e : Err) : (s.ibiRaise e).monEnds = s.monEnds := by
  unfold State.ibiRaise; extract_lets m; split <;> rfl
@[simp] theorem State.ibiRaise_waits (e : Err) : (s.ibiRaise e).waits = s.waits := by
  unfold State.ibiRaise; extract_lets m; split <;> rfl
@[simp] theorem State.ibiRaise_now (e : Err) : (s.ibiRaise e).now = s.now := by
  unfold State.ibiRaise; extract_lets m; split <;> rfl
@[simp] theorem State.ibiRaise_perst (e : Err) : (s.ibiRaise e).perst = s.perst := by
  unfold State.ibiRaise; extract_lets m; split <;> rfl
@[simp] theorem State.ibiRaise_slot (e : Err) : (s.ibiRaise e).slot = s.slot := by
  unfold State.ibiRaise; extract_lets m; split <;> rfl
@[simp] theorem State.ibiRaise_badRamp (e : Err) : (s.ibiRaise e).badRamp = s.badRamp := by
  unfold State.ibiRaise; extract_lets m; split <;> rfl
@[simp] theorem State.ibiRaise_rampCure (e : Err) : (s.ibiRaise e).rampCure = s.rampCure := by
  unfold State.ibiRaise; extract_lets m; split <;> rfl
@[simp] theorem State.ibiRaise_railUntil (e : Err) : (s.ibiRaise e).railUntil = s.railUntil := by
  unfold State.ibiRaise; extract_lets m; split <;> rfl
@[simp] theorem State.ibiRaise_dead (e : Err) : (s.ibiRaise e).dead = s.dead := by
  unfold State.ibiRaise; extract_lets m; split <;> rfl
@[simp] theorem State.ibiRaise_tripped (e : Err) : (s.ibiRaise e).tripped = s.tripped := by
  unfold State.ibiRaise; extract_lets m; split <;> rfl
@[simp] theorem State.ibiRaise_thermTripN (e : Err) : (s.ibiRaise e).thermTripN = s.thermTripN := by
  unfold State.ibiRaise; extract_lets m; split <;> rfl
@[simp] theorem State.ibiRaise_refclkLost (e : Err) : (s.ibiRaise e).refclkLost = s.refclkLost := by
  unfold State.ibiRaise; extract_lets m; split <;> rfl
@[simp] theorem State.ibiRaise_lpLost (e : Err) : (s.ibiRaise e).lpLost = s.lpLost := by
  unfold State.ibiRaise; extract_lets m; split <;> rfl
@[simp] theorem State.ibiRaise_image (e : Err) : (s.ibiRaise e).image = s.image := by
  unfold State.ibiRaise; extract_lets m; split <;> rfl
@[simp] theorem State.ibiRaise_imageSvn (e : Err) : (s.ibiRaise e).imageSvn = s.imageSvn := by
  unfold State.ibiRaise; extract_lets m; split <;> rfl
@[simp] theorem State.ibiRaise_imageDigest (e : Err) : (s.ibiRaise e).imageDigest = s.imageDigest := by
  unfold State.ibiRaise; extract_lets m; split <;> rfl
@[simp] theorem State.ibiRaise_idKey (e : Err) : (s.ibiRaise e).idKey = s.idKey := by
  unfold State.ibiRaise; extract_lets m; split <;> rfl
@[simp] theorem State.ibiRaise_attest (e : Err) : (s.ibiRaise e).attest = s.attest := by
  unfold State.ibiRaise; extract_lets m; split <;> rfl
@[simp] theorem State.ibiRaise_bundle (e : Err) : (s.ibiRaise e).bundle = s.bundle := by
  unfold State.ibiRaise; extract_lets m; split <;> rfl
@[simp] theorem State.ibiRaise_bundleCopy (e : Err) : (s.ibiRaise e).bundleCopy = s.bundleCopy := by
  unfold State.ibiRaise; extract_lets m; split <;> rfl
@[simp] theorem State.ibiRaise_nonce (e : Err) : (s.ibiRaise e).nonce = s.nonce := by
  unfold State.ibiRaise; extract_lets m; split <;> rfl
@[simp] theorem State.ibiRaise_tierSize (e : Err) : (s.ibiRaise e).tierSize = s.tierSize := by
  unfold State.ibiRaise; extract_lets m; split <;> rfl
@[simp] theorem State.ibiRaise_powerUw (e : Err) : (s.ibiRaise e).powerUw = s.powerUw := by
  unfold State.ibiRaise; extract_lets m; split <;> rfl
@[simp] theorem State.ibiRaise_rails (e : Err) : (s.ibiRaise e).rails = s.rails := by
  unfold State.ibiRaise; extract_lets m; split <;> rfl
@[simp] theorem State.ibiRaise_avsFails (e : Err) : (s.ibiRaise e).avsFails = s.avsFails := by
  unfold State.ibiRaise; extract_lets m; split <;> rfl
@[simp] theorem State.ibiRaise_fresh (e : Err) : (s.ibiRaise e).fresh = s.fresh := by
  unfold State.ibiRaise; extract_lets m; split <;> rfl
@[simp] theorem State.ibiRaise_pending (e : Err) : (s.ibiRaise e).pending = s.pending := by
  unfold State.ibiRaise; extract_lets m; split <;> rfl

/-! ### raiseSev -/

@[simp] theorem State.raiseSev_eff (e : Err) (sev die unit a0 a1 a2 a3 : Nat) : (s.raiseSev e sev die unit a0 a1 a2 a3).eff = s.eff := by
  first | rfl | (unfold State.raiseSev; (try dsimp only); (repeat' split) <;> first | rfl | simp)
@[simp] theorem State.raiseSev_mem (e : Err) (sev die unit a0 a1 a2 a3 : Nat) : (s.raiseSev e sev die unit a0 a1 a2 a3).mem = s.mem := by
  first | rfl | (unfold State.raiseSev; (try dsimp only); (repeat' split) <;> first | rfl | simp)
@[simp] theorem State.raiseSev_poison (e : Err) (sev die unit a0 a1 a2 a3 : Nat) : (s.raiseSev e sev die unit a0 a1 a2 a3).poison = s.poison := by
  first | rfl | (unfold State.raiseSev; (try dsimp only); (repeat' split) <;> first | rfl | simp)
@[simp] theorem State.raiseSev_okWords (e : Err) (sev die unit a0 a1 a2 a3 : Nat) : (s.raiseSev e sev die unit a0 a1 a2 a3).okWords = s.okWords := by
  first | rfl | (unfold State.raiseSev; (try dsimp only); (repeat' split) <;> first | rfl | simp)
@[simp] theorem State.raiseSev_symErr (e : Err) (sev die unit a0 a1 a2 a3 : Nat) : (s.raiseSev e sev die unit a0 a1 a2 a3).symErr = s.symErr := by
  first | rfl | (unfold State.raiseSev; (try dsimp only); (repeat' split) <;> first | rfl | simp)
@[simp] theorem State.raiseSev_host (e : Err) (sev die unit a0 a1 a2 a3 : Nat) : (s.raiseSev e sev die unit a0 a1 a2 a3).host = s.host := by
  first | rfl | (unfold State.raiseSev; (try dsimp only); (repeat' split) <;> first | rfl | simp)
@[simp] theorem State.raiseSev_fuses (e : Err) (sev die unit a0 a1 a2 a3 : Nat) : (s.raiseSev e sev die unit a0 a1 a2 a3).fuses = s.fuses := by
  first | rfl | (unfold State.raiseSev; (try dsimp only); (repeat' split) <;> first | rfl | simp)
@[simp] theorem State.raiseSev_nvm (e : Err) (sev die unit a0 a1 a2 a3 : Nat) : (s.raiseSev e sev die unit a0 a1 a2 a3).nvm = s.nvm := by
  first | rfl | (unfold State.raiseSev; (try dsimp only); (repeat' split) <;> first | rfl | simp)
@[simp] theorem State.raiseSev_job (e : Err) (sev die unit a0 a1 a2 a3 : Nat) : (s.raiseSev e sev die unit a0 a1 a2 a3).job = s.job := by
  first | rfl | (unfold State.raiseSev; (try dsimp only); (repeat' split) <;> first | rfl | simp)
@[simp] theorem State.raiseSev_gaths (e : Err) (sev die unit a0 a1 a2 a3 : Nat) : (s.raiseSev e sev die unit a0 a1 a2 a3).gaths = s.gaths := by
  first | rfl | (unfold State.raiseSev; (try dsimp only); (repeat' split) <;> first | rfl | simp)
@[simp] theorem State.raiseSev_queues (e : Err) (sev die unit a0 a1 a2 a3 : Nat) : (s.raiseSev e sev die unit a0 a1 a2 a3).queues = s.queues := by
  first | rfl | (unfold State.raiseSev; (try dsimp only); (repeat' split) <;> first | rfl | simp)
@[simp] theorem State.raiseSev_yarders (e : Err) (sev die unit a0 a1 a2 a3 : Nat) : (s.raiseSev e sev die unit a0 a1 a2 a3).yarders = s.yarders := by
  first | rfl | (unfold State.raiseSev; (try dsimp only); (repeat' split) <;> first | rfl | simp)
@[simp] theorem State.raiseSev_colls (e : Err) (sev die unit a0 a1 a2 a3 : Nat) : (s.raiseSev e sev die unit a0 a1 a2 a3).colls = s.colls := by
  first | rfl | (unfold State.raiseSev; (try dsimp only); (repeat' split) <;> first | rfl | simp)
@[simp] theorem State.raiseSev_dies (e : Err) (sev die unit a0 a1 a2 a3 : Nat) : (s.raiseSev e sev die unit a0 a1 a2 a3).dies = s.dies := by
  first | rfl | (unfold State.raiseSev; (try dsimp only); (repeat' split) <;> first | rfl | simp)
@[simp] theorem State.raiseSev_signals (e : Err) (sev die unit a0 a1 a2 a3 : Nat) : (s.raiseSev e sev die unit a0 a1 a2 a3).signals = s.signals := by
  first | rfl | (unfold State.raiseSev; (try dsimp only); (repeat' split) <;> first | rfl | simp)
@[simp] theorem State.raiseSev_mtok (e : Err) (sev die unit a0 a1 a2 a3 : Nat) : (s.raiseSev e sev die unit a0 a1 a2 a3).mtok = s.mtok := by
  first | rfl | (unfold State.raiseSev; (try dsimp only); (repeat' split) <;> first | rfl | simp)
@[simp] theorem State.raiseSev_mOvf (e : Err) (sev die unit a0 a1 a2 a3 : Nat) : (s.raiseSev e sev die unit a0 a1 a2 a3).mOvf = s.mOvf := by
  first | rfl | (unfold State.raiseSev; (try dsimp only); (repeat' split) <;> first | rfl | simp)
@[simp] theorem State.raiseSev_tor (e : Err) (sev die unit a0 a1 a2 a3 : Nat) : (s.raiseSev e sev die unit a0 a1 a2 a3).tor = s.tor := by
  first | rfl | (unfold State.raiseSev; (try dsimp only); (repeat' split) <;> first | rfl | simp)
@[simp] theorem State.raiseSev_irl (e : Err) (sev die unit a0 a1 a2 a3 : Nat) : (s.raiseSev e sev die unit a0 a1 a2 a3).irl = s.irl := by
  first | rfl | (unfold State.raiseSev; (try dsimp only); (repeat' split) <;> first | rfl | simp)
@[simp] theorem State.raiseSev_mons (e : Err) (sev die unit a0 a1 a2 a3 : Nat) : (s.raiseSev e sev die unit a0 a1 a2 a3).mons = s.mons := by
  first | rfl | (unfold State.raiseSev; (try dsimp only); (repeat' split) <;> first | rfl | simp)
@[simp] theorem State.raiseSev_monEnds (e : Err) (sev die unit a0 a1 a2 a3 : Nat) : (s.raiseSev e sev die unit a0 a1 a2 a3).monEnds = s.monEnds := by
  first | rfl | (unfold State.raiseSev; (try dsimp only); (repeat' split) <;> first | rfl | simp)
@[simp] theorem State.raiseSev_waits (e : Err) (sev die unit a0 a1 a2 a3 : Nat) : (s.raiseSev e sev die unit a0 a1 a2 a3).waits = s.waits := by
  first | rfl | (unfold State.raiseSev; (try dsimp only); (repeat' split) <;> first | rfl | simp)
@[simp] theorem State.raiseSev_now (e : Err) (sev die unit a0 a1 a2 a3 : Nat) : (s.raiseSev e sev die unit a0 a1 a2 a3).now = s.now := by
  first | rfl | (unfold State.raiseSev; (try dsimp only); (repeat' split) <;> first | rfl | simp)
@[simp] theorem State.raiseSev_perst (e : Err) (sev die unit a0 a1 a2 a3 : Nat) : (s.raiseSev e sev die unit a0 a1 a2 a3).perst = s.perst := by
  first | rfl | (unfold State.raiseSev; (try dsimp only); (repeat' split) <;> first | rfl | simp)
@[simp] theorem State.raiseSev_slot (e : Err) (sev die unit a0 a1 a2 a3 : Nat) : (s.raiseSev e sev die unit a0 a1 a2 a3).slot = s.slot := by
  first | rfl | (unfold State.raiseSev; (try dsimp only); (repeat' split) <;> first | rfl | simp)
@[simp] theorem State.raiseSev_badRamp (e : Err) (sev die unit a0 a1 a2 a3 : Nat) : (s.raiseSev e sev die unit a0 a1 a2 a3).badRamp = s.badRamp := by
  first | rfl | (unfold State.raiseSev; (try dsimp only); (repeat' split) <;> first | rfl | simp)
@[simp] theorem State.raiseSev_rampCure (e : Err) (sev die unit a0 a1 a2 a3 : Nat) : (s.raiseSev e sev die unit a0 a1 a2 a3).rampCure = s.rampCure := by
  first | rfl | (unfold State.raiseSev; (try dsimp only); (repeat' split) <;> first | rfl | simp)
@[simp] theorem State.raiseSev_railUntil (e : Err) (sev die unit a0 a1 a2 a3 : Nat) : (s.raiseSev e sev die unit a0 a1 a2 a3).railUntil = s.railUntil := by
  first | rfl | (unfold State.raiseSev; (try dsimp only); (repeat' split) <;> first | rfl | simp)
@[simp] theorem State.raiseSev_dead (e : Err) (sev die unit a0 a1 a2 a3 : Nat) : (s.raiseSev e sev die unit a0 a1 a2 a3).dead = s.dead := by
  first | rfl | (unfold State.raiseSev; (try dsimp only); (repeat' split) <;> first | rfl | simp)
@[simp] theorem State.raiseSev_tripped (e : Err) (sev die unit a0 a1 a2 a3 : Nat) : (s.raiseSev e sev die unit a0 a1 a2 a3).tripped = s.tripped := by
  first | rfl | (unfold State.raiseSev; (try dsimp only); (repeat' split) <;> first | rfl | simp)
@[simp] theorem State.raiseSev_thermTripN (e : Err) (sev die unit a0 a1 a2 a3 : Nat) : (s.raiseSev e sev die unit a0 a1 a2 a3).thermTripN = s.thermTripN := by
  first | rfl | (unfold State.raiseSev; (try dsimp only); (repeat' split) <;> first | rfl | simp)
@[simp] theorem State.raiseSev_refclkLost (e : Err) (sev die unit a0 a1 a2 a3 : Nat) : (s.raiseSev e sev die unit a0 a1 a2 a3).refclkLost = s.refclkLost := by
  first | rfl | (unfold State.raiseSev; (try dsimp only); (repeat' split) <;> first | rfl | simp)
@[simp] theorem State.raiseSev_lpLost (e : Err) (sev die unit a0 a1 a2 a3 : Nat) : (s.raiseSev e sev die unit a0 a1 a2 a3).lpLost = s.lpLost := by
  first | rfl | (unfold State.raiseSev; (try dsimp only); (repeat' split) <;> first | rfl | simp)
@[simp] theorem State.raiseSev_image (e : Err) (sev die unit a0 a1 a2 a3 : Nat) : (s.raiseSev e sev die unit a0 a1 a2 a3).image = s.image := by
  first | rfl | (unfold State.raiseSev; (try dsimp only); (repeat' split) <;> first | rfl | simp)
@[simp] theorem State.raiseSev_imageSvn (e : Err) (sev die unit a0 a1 a2 a3 : Nat) : (s.raiseSev e sev die unit a0 a1 a2 a3).imageSvn = s.imageSvn := by
  first | rfl | (unfold State.raiseSev; (try dsimp only); (repeat' split) <;> first | rfl | simp)
@[simp] theorem State.raiseSev_imageDigest (e : Err) (sev die unit a0 a1 a2 a3 : Nat) : (s.raiseSev e sev die unit a0 a1 a2 a3).imageDigest = s.imageDigest := by
  first | rfl | (unfold State.raiseSev; (try dsimp only); (repeat' split) <;> first | rfl | simp)
@[simp] theorem State.raiseSev_idKey (e : Err) (sev die unit a0 a1 a2 a3 : Nat) : (s.raiseSev e sev die unit a0 a1 a2 a3).idKey = s.idKey := by
  first | rfl | (unfold State.raiseSev; (try dsimp only); (repeat' split) <;> first | rfl | simp)
@[simp] theorem State.raiseSev_attest (e : Err) (sev die unit a0 a1 a2 a3 : Nat) : (s.raiseSev e sev die unit a0 a1 a2 a3).attest = s.attest := by
  first | rfl | (unfold State.raiseSev; (try dsimp only); (repeat' split) <;> first | rfl | simp)
@[simp] theorem State.raiseSev_bundle (e : Err) (sev die unit a0 a1 a2 a3 : Nat) : (s.raiseSev e sev die unit a0 a1 a2 a3).bundle = s.bundle := by
  first | rfl | (unfold State.raiseSev; (try dsimp only); (repeat' split) <;> first | rfl | simp)
@[simp] theorem State.raiseSev_bundleCopy (e : Err) (sev die unit a0 a1 a2 a3 : Nat) : (s.raiseSev e sev die unit a0 a1 a2 a3).bundleCopy = s.bundleCopy := by
  first | rfl | (unfold State.raiseSev; (try dsimp only); (repeat' split) <;> first | rfl | simp)
@[simp] theorem State.raiseSev_nonce (e : Err) (sev die unit a0 a1 a2 a3 : Nat) : (s.raiseSev e sev die unit a0 a1 a2 a3).nonce = s.nonce := by
  first | rfl | (unfold State.raiseSev; (try dsimp only); (repeat' split) <;> first | rfl | simp)
@[simp] theorem State.raiseSev_tierSize (e : Err) (sev die unit a0 a1 a2 a3 : Nat) : (s.raiseSev e sev die unit a0 a1 a2 a3).tierSize = s.tierSize := by
  first | rfl | (unfold State.raiseSev; (try dsimp only); (repeat' split) <;> first | rfl | simp)
@[simp] theorem State.raiseSev_powerUw (e : Err) (sev die unit a0 a1 a2 a3 : Nat) : (s.raiseSev e sev die unit a0 a1 a2 a3).powerUw = s.powerUw := by
  first | rfl | (unfold State.raiseSev; (try dsimp only); (repeat' split) <;> first | rfl | simp)
@[simp] theorem State.raiseSev_rails (e : Err) (sev die unit a0 a1 a2 a3 : Nat) : (s.raiseSev e sev die unit a0 a1 a2 a3).rails = s.rails := by
  first | rfl | (unfold State.raiseSev; (try dsimp only); (repeat' split) <;> first | rfl | simp)
@[simp] theorem State.raiseSev_avsFails (e : Err) (sev die unit a0 a1 a2 a3 : Nat) : (s.raiseSev e sev die unit a0 a1 a2 a3).avsFails = s.avsFails := by
  first | rfl | (unfold State.raiseSev; (try dsimp only); (repeat' split) <;> first | rfl | simp)
@[simp] theorem State.raiseSev_fresh (e : Err) (sev die unit a0 a1 a2 a3 : Nat) : (s.raiseSev e sev die unit a0 a1 a2 a3).fresh = s.fresh := by
  first | rfl | (unfold State.raiseSev; (try dsimp only); (repeat' split) <;> first | rfl | simp)
@[simp] theorem State.raiseSev_pending (e : Err) (sev die unit a0 a1 a2 a3 : Nat) : (s.raiseSev e sev die unit a0 a1 a2 a3).pending = s.pending := by
  first | rfl | (unfold State.raiseSev; (try dsimp only); (repeat' split) <;> first | rfl | simp)

/-! ### raise -/

@[simp] theorem State.raise_eff (e : Err) (die unit a0 a1 a2 : Nat) : (s.raise e die unit a0 a1 a2).eff = s.eff := by
  first | rfl | (unfold State.raise; (try dsimp only); (repeat' split) <;> first | rfl | simp)
@[simp] theorem State.raise_mem (e : Err) (die unit a0 a1 a2 : Nat) : (s.raise e die unit a0 a1 a2).mem = s.mem := by
  first | rfl | (unfold State.raise; (try dsimp only); (repeat' split) <;> first | rfl | simp)
@[simp] theorem State.raise_poison (e : Err) (die unit a0 a1 a2 : Nat) : (s.raise e die unit a0 a1 a2).poison = s.poison := by
  first | rfl | (unfold State.raise; (try dsimp only); (repeat' split) <;> first | rfl | simp)
@[simp] theorem State.raise_okWords (e : Err) (die unit a0 a1 a2 : Nat) : (s.raise e die unit a0 a1 a2).okWords = s.okWords := by
  first | rfl | (unfold State.raise; (try dsimp only); (repeat' split) <;> first | rfl | simp)
@[simp] theorem State.raise_symErr (e : Err) (die unit a0 a1 a2 : Nat) : (s.raise e die unit a0 a1 a2).symErr = s.symErr := by
  first | rfl | (unfold State.raise; (try dsimp only); (repeat' split) <;> first | rfl | simp)
@[simp] theorem State.raise_host (e : Err) (die unit a0 a1 a2 : Nat) : (s.raise e die unit a0 a1 a2).host = s.host := by
  first | rfl | (unfold State.raise; (try dsimp only); (repeat' split) <;> first | rfl | simp)
@[simp] theorem State.raise_fuses (e : Err) (die unit a0 a1 a2 : Nat) : (s.raise e die unit a0 a1 a2).fuses = s.fuses := by
  first | rfl | (unfold State.raise; (try dsimp only); (repeat' split) <;> first | rfl | simp)
@[simp] theorem State.raise_nvm (e : Err) (die unit a0 a1 a2 : Nat) : (s.raise e die unit a0 a1 a2).nvm = s.nvm := by
  first | rfl | (unfold State.raise; (try dsimp only); (repeat' split) <;> first | rfl | simp)
@[simp] theorem State.raise_job (e : Err) (die unit a0 a1 a2 : Nat) : (s.raise e die unit a0 a1 a2).job = s.job := by
  first | rfl | (unfold State.raise; (try dsimp only); (repeat' split) <;> first | rfl | simp)
@[simp] theorem State.raise_gaths (e : Err) (die unit a0 a1 a2 : Nat) : (s.raise e die unit a0 a1 a2).gaths = s.gaths := by
  first | rfl | (unfold State.raise; (try dsimp only); (repeat' split) <;> first | rfl | simp)
@[simp] theorem State.raise_queues (e : Err) (die unit a0 a1 a2 : Nat) : (s.raise e die unit a0 a1 a2).queues = s.queues := by
  first | rfl | (unfold State.raise; (try dsimp only); (repeat' split) <;> first | rfl | simp)
@[simp] theorem State.raise_yarders (e : Err) (die unit a0 a1 a2 : Nat) : (s.raise e die unit a0 a1 a2).yarders = s.yarders := by
  first | rfl | (unfold State.raise; (try dsimp only); (repeat' split) <;> first | rfl | simp)
@[simp] theorem State.raise_colls (e : Err) (die unit a0 a1 a2 : Nat) : (s.raise e die unit a0 a1 a2).colls = s.colls := by
  first | rfl | (unfold State.raise; (try dsimp only); (repeat' split) <;> first | rfl | simp)
@[simp] theorem State.raise_dies (e : Err) (die unit a0 a1 a2 : Nat) : (s.raise e die unit a0 a1 a2).dies = s.dies := by
  first | rfl | (unfold State.raise; (try dsimp only); (repeat' split) <;> first | rfl | simp)
@[simp] theorem State.raise_signals (e : Err) (die unit a0 a1 a2 : Nat) : (s.raise e die unit a0 a1 a2).signals = s.signals := by
  first | rfl | (unfold State.raise; (try dsimp only); (repeat' split) <;> first | rfl | simp)
@[simp] theorem State.raise_mtok (e : Err) (die unit a0 a1 a2 : Nat) : (s.raise e die unit a0 a1 a2).mtok = s.mtok := by
  first | rfl | (unfold State.raise; (try dsimp only); (repeat' split) <;> first | rfl | simp)
@[simp] theorem State.raise_mOvf (e : Err) (die unit a0 a1 a2 : Nat) : (s.raise e die unit a0 a1 a2).mOvf = s.mOvf := by
  first | rfl | (unfold State.raise; (try dsimp only); (repeat' split) <;> first | rfl | simp)
@[simp] theorem State.raise_tor (e : Err) (die unit a0 a1 a2 : Nat) : (s.raise e die unit a0 a1 a2).tor = s.tor := by
  first | rfl | (unfold State.raise; (try dsimp only); (repeat' split) <;> first | rfl | simp)
@[simp] theorem State.raise_irl (e : Err) (die unit a0 a1 a2 : Nat) : (s.raise e die unit a0 a1 a2).irl = s.irl := by
  first | rfl | (unfold State.raise; (try dsimp only); (repeat' split) <;> first | rfl | simp)
@[simp] theorem State.raise_mons (e : Err) (die unit a0 a1 a2 : Nat) : (s.raise e die unit a0 a1 a2).mons = s.mons := by
  first | rfl | (unfold State.raise; (try dsimp only); (repeat' split) <;> first | rfl | simp)
@[simp] theorem State.raise_monEnds (e : Err) (die unit a0 a1 a2 : Nat) : (s.raise e die unit a0 a1 a2).monEnds = s.monEnds := by
  first | rfl | (unfold State.raise; (try dsimp only); (repeat' split) <;> first | rfl | simp)
@[simp] theorem State.raise_waits (e : Err) (die unit a0 a1 a2 : Nat) : (s.raise e die unit a0 a1 a2).waits = s.waits := by
  first | rfl | (unfold State.raise; (try dsimp only); (repeat' split) <;> first | rfl | simp)
@[simp] theorem State.raise_now (e : Err) (die unit a0 a1 a2 : Nat) : (s.raise e die unit a0 a1 a2).now = s.now := by
  first | rfl | (unfold State.raise; (try dsimp only); (repeat' split) <;> first | rfl | simp)
@[simp] theorem State.raise_perst (e : Err) (die unit a0 a1 a2 : Nat) : (s.raise e die unit a0 a1 a2).perst = s.perst := by
  first | rfl | (unfold State.raise; (try dsimp only); (repeat' split) <;> first | rfl | simp)
@[simp] theorem State.raise_slot (e : Err) (die unit a0 a1 a2 : Nat) : (s.raise e die unit a0 a1 a2).slot = s.slot := by
  first | rfl | (unfold State.raise; (try dsimp only); (repeat' split) <;> first | rfl | simp)
@[simp] theorem State.raise_badRamp (e : Err) (die unit a0 a1 a2 : Nat) : (s.raise e die unit a0 a1 a2).badRamp = s.badRamp := by
  first | rfl | (unfold State.raise; (try dsimp only); (repeat' split) <;> first | rfl | simp)
@[simp] theorem State.raise_rampCure (e : Err) (die unit a0 a1 a2 : Nat) : (s.raise e die unit a0 a1 a2).rampCure = s.rampCure := by
  first | rfl | (unfold State.raise; (try dsimp only); (repeat' split) <;> first | rfl | simp)
@[simp] theorem State.raise_railUntil (e : Err) (die unit a0 a1 a2 : Nat) : (s.raise e die unit a0 a1 a2).railUntil = s.railUntil := by
  first | rfl | (unfold State.raise; (try dsimp only); (repeat' split) <;> first | rfl | simp)
@[simp] theorem State.raise_dead (e : Err) (die unit a0 a1 a2 : Nat) : (s.raise e die unit a0 a1 a2).dead = s.dead := by
  first | rfl | (unfold State.raise; (try dsimp only); (repeat' split) <;> first | rfl | simp)
@[simp] theorem State.raise_tripped (e : Err) (die unit a0 a1 a2 : Nat) : (s.raise e die unit a0 a1 a2).tripped = s.tripped := by
  first | rfl | (unfold State.raise; (try dsimp only); (repeat' split) <;> first | rfl | simp)
@[simp] theorem State.raise_thermTripN (e : Err) (die unit a0 a1 a2 : Nat) : (s.raise e die unit a0 a1 a2).thermTripN = s.thermTripN := by
  first | rfl | (unfold State.raise; (try dsimp only); (repeat' split) <;> first | rfl | simp)
@[simp] theorem State.raise_refclkLost (e : Err) (die unit a0 a1 a2 : Nat) : (s.raise e die unit a0 a1 a2).refclkLost = s.refclkLost := by
  first | rfl | (unfold State.raise; (try dsimp only); (repeat' split) <;> first | rfl | simp)
@[simp] theorem State.raise_lpLost (e : Err) (die unit a0 a1 a2 : Nat) : (s.raise e die unit a0 a1 a2).lpLost = s.lpLost := by
  first | rfl | (unfold State.raise; (try dsimp only); (repeat' split) <;> first | rfl | simp)
@[simp] theorem State.raise_image (e : Err) (die unit a0 a1 a2 : Nat) : (s.raise e die unit a0 a1 a2).image = s.image := by
  first | rfl | (unfold State.raise; (try dsimp only); (repeat' split) <;> first | rfl | simp)
@[simp] theorem State.raise_imageSvn (e : Err) (die unit a0 a1 a2 : Nat) : (s.raise e die unit a0 a1 a2).imageSvn = s.imageSvn := by
  first | rfl | (unfold State.raise; (try dsimp only); (repeat' split) <;> first | rfl | simp)
@[simp] theorem State.raise_imageDigest (e : Err) (die unit a0 a1 a2 : Nat) : (s.raise e die unit a0 a1 a2).imageDigest = s.imageDigest := by
  first | rfl | (unfold State.raise; (try dsimp only); (repeat' split) <;> first | rfl | simp)
@[simp] theorem State.raise_idKey (e : Err) (die unit a0 a1 a2 : Nat) : (s.raise e die unit a0 a1 a2).idKey = s.idKey := by
  first | rfl | (unfold State.raise; (try dsimp only); (repeat' split) <;> first | rfl | simp)
@[simp] theorem State.raise_attest (e : Err) (die unit a0 a1 a2 : Nat) : (s.raise e die unit a0 a1 a2).attest = s.attest := by
  first | rfl | (unfold State.raise; (try dsimp only); (repeat' split) <;> first | rfl | simp)
@[simp] theorem State.raise_bundle (e : Err) (die unit a0 a1 a2 : Nat) : (s.raise e die unit a0 a1 a2).bundle = s.bundle := by
  first | rfl | (unfold State.raise; (try dsimp only); (repeat' split) <;> first | rfl | simp)
@[simp] theorem State.raise_bundleCopy (e : Err) (die unit a0 a1 a2 : Nat) : (s.raise e die unit a0 a1 a2).bundleCopy = s.bundleCopy := by
  first | rfl | (unfold State.raise; (try dsimp only); (repeat' split) <;> first | rfl | simp)
@[simp] theorem State.raise_nonce (e : Err) (die unit a0 a1 a2 : Nat) : (s.raise e die unit a0 a1 a2).nonce = s.nonce := by
  first | rfl | (unfold State.raise; (try dsimp only); (repeat' split) <;> first | rfl | simp)
@[simp] theorem State.raise_tierSize (e : Err) (die unit a0 a1 a2 : Nat) : (s.raise e die unit a0 a1 a2).tierSize = s.tierSize := by
  first | rfl | (unfold State.raise; (try dsimp only); (repeat' split) <;> first | rfl | simp)
@[simp] theorem State.raise_powerUw (e : Err) (die unit a0 a1 a2 : Nat) : (s.raise e die unit a0 a1 a2).powerUw = s.powerUw := by
  first | rfl | (unfold State.raise; (try dsimp only); (repeat' split) <;> first | rfl | simp)
@[simp] theorem State.raise_rails (e : Err) (die unit a0 a1 a2 : Nat) : (s.raise e die unit a0 a1 a2).rails = s.rails := by
  first | rfl | (unfold State.raise; (try dsimp only); (repeat' split) <;> first | rfl | simp)
@[simp] theorem State.raise_avsFails (e : Err) (die unit a0 a1 a2 : Nat) : (s.raise e die unit a0 a1 a2).avsFails = s.avsFails := by
  first | rfl | (unfold State.raise; (try dsimp only); (repeat' split) <;> first | rfl | simp)
@[simp] theorem State.raise_fresh (e : Err) (die unit a0 a1 a2 : Nat) : (s.raise e die unit a0 a1 a2).fresh = s.fresh := by
  first | rfl | (unfold State.raise; (try dsimp only); (repeat' split) <;> first | rfl | simp)
@[simp] theorem State.raise_pending (e : Err) (die unit a0 a1 a2 : Nat) : (s.raise e die unit a0 a1 a2).pending = s.pending := by
  first | rfl | (unfold State.raise; (try dsimp only); (repeat' split) <;> first | rfl | simp)

/-! ### signal -/

@[simp] theorem State.signal_eff (v : Nat) : (s.signal v).eff = s.eff := by
  first | rfl | (unfold State.signal; (try dsimp only); (repeat' split) <;> first | rfl | simp)
@[simp] theorem State.signal_mem (v : Nat) : (s.signal v).mem = s.mem := by
  first | rfl | (unfold State.signal; (try dsimp only); (repeat' split) <;> first | rfl | simp)
@[simp] theorem State.signal_poison (v : Nat) : (s.signal v).poison = s.poison := by
  first | rfl | (unfold State.signal; (try dsimp only); (repeat' split) <;> first | rfl | simp)
@[simp] theorem State.signal_okWords (v : Nat) : (s.signal v).okWords = s.okWords := by
  first | rfl | (unfold State.signal; (try dsimp only); (repeat' split) <;> first | rfl | simp)
@[simp] theorem State.signal_symErr (v : Nat) : (s.signal v).symErr = s.symErr := by
  first | rfl | (unfold State.signal; (try dsimp only); (repeat' split) <;> first | rfl | simp)
@[simp] theorem State.signal_host (v : Nat) : (s.signal v).host = s.host := by
  first | rfl | (unfold State.signal; (try dsimp only); (repeat' split) <;> first | rfl | simp)
@[simp] theorem State.signal_fuses (v : Nat) : (s.signal v).fuses = s.fuses := by
  first | rfl | (unfold State.signal; (try dsimp only); (repeat' split) <;> first | rfl | simp)
@[simp] theorem State.signal_nvm (v : Nat) : (s.signal v).nvm = s.nvm := by
  first | rfl | (unfold State.signal; (try dsimp only); (repeat' split) <;> first | rfl | simp)
@[simp] theorem State.signal_recorder (v : Nat) : (s.signal v).recorder = s.recorder := by
  first | rfl | (unfold State.signal; (try dsimp only); (repeat' split) <;> first | rfl | simp)
@[simp] theorem State.signal_job (v : Nat) : (s.signal v).job = s.job := by
  first | rfl | (unfold State.signal; (try dsimp only); (repeat' split) <;> first | rfl | simp)
@[simp] theorem State.signal_gaths (v : Nat) : (s.signal v).gaths = s.gaths := by
  first | rfl | (unfold State.signal; (try dsimp only); (repeat' split) <;> first | rfl | simp)
@[simp] theorem State.signal_queues (v : Nat) : (s.signal v).queues = s.queues := by
  first | rfl | (unfold State.signal; (try dsimp only); (repeat' split) <;> first | rfl | simp)
@[simp] theorem State.signal_yarders (v : Nat) : (s.signal v).yarders = s.yarders := by
  first | rfl | (unfold State.signal; (try dsimp only); (repeat' split) <;> first | rfl | simp)
@[simp] theorem State.signal_colls (v : Nat) : (s.signal v).colls = s.colls := by
  first | rfl | (unfold State.signal; (try dsimp only); (repeat' split) <;> first | rfl | simp)
@[simp] theorem State.signal_dies (v : Nat) : (s.signal v).dies = s.dies := by
  first | rfl | (unfold State.signal; (try dsimp only); (repeat' split) <;> first | rfl | simp)
@[simp] theorem State.signal_signals (v : Nat) : (s.signal v).signals = s.signals := by
  first | rfl | (unfold State.signal; (try dsimp only); (repeat' split) <;> first | rfl | simp)
@[simp] theorem State.signal_mtok (v : Nat) : (s.signal v).mtok = s.mtok := by
  first | rfl | (unfold State.signal; (try dsimp only); (repeat' split) <;> first | rfl | simp)
@[simp] theorem State.signal_mOvf (v : Nat) : (s.signal v).mOvf = s.mOvf := by
  first | rfl | (unfold State.signal; (try dsimp only); (repeat' split) <;> first | rfl | simp)
@[simp] theorem State.signal_tor (v : Nat) : (s.signal v).tor = s.tor := by
  first | rfl | (unfold State.signal; (try dsimp only); (repeat' split) <;> first | rfl | simp)
@[simp] theorem State.signal_irl (v : Nat) : (s.signal v).irl = s.irl := by
  first | rfl | (unfold State.signal; (try dsimp only); (repeat' split) <;> first | rfl | simp)
@[simp] theorem State.signal_mons (v : Nat) : (s.signal v).mons = s.mons := by
  first | rfl | (unfold State.signal; (try dsimp only); (repeat' split) <;> first | rfl | simp)
@[simp] theorem State.signal_monEnds (v : Nat) : (s.signal v).monEnds = s.monEnds := by
  first | rfl | (unfold State.signal; (try dsimp only); (repeat' split) <;> first | rfl | simp)
@[simp] theorem State.signal_waits (v : Nat) : (s.signal v).waits = s.waits := by
  first | rfl | (unfold State.signal; (try dsimp only); (repeat' split) <;> first | rfl | simp)
@[simp] theorem State.signal_now (v : Nat) : (s.signal v).now = s.now := by
  first | rfl | (unfold State.signal; (try dsimp only); (repeat' split) <;> first | rfl | simp)
@[simp] theorem State.signal_perst (v : Nat) : (s.signal v).perst = s.perst := by
  first | rfl | (unfold State.signal; (try dsimp only); (repeat' split) <;> first | rfl | simp)
@[simp] theorem State.signal_slot (v : Nat) : (s.signal v).slot = s.slot := by
  first | rfl | (unfold State.signal; (try dsimp only); (repeat' split) <;> first | rfl | simp)
@[simp] theorem State.signal_badRamp (v : Nat) : (s.signal v).badRamp = s.badRamp := by
  first | rfl | (unfold State.signal; (try dsimp only); (repeat' split) <;> first | rfl | simp)
@[simp] theorem State.signal_rampCure (v : Nat) : (s.signal v).rampCure = s.rampCure := by
  first | rfl | (unfold State.signal; (try dsimp only); (repeat' split) <;> first | rfl | simp)
@[simp] theorem State.signal_railUntil (v : Nat) : (s.signal v).railUntil = s.railUntil := by
  first | rfl | (unfold State.signal; (try dsimp only); (repeat' split) <;> first | rfl | simp)
@[simp] theorem State.signal_dead (v : Nat) : (s.signal v).dead = s.dead := by
  first | rfl | (unfold State.signal; (try dsimp only); (repeat' split) <;> first | rfl | simp)
@[simp] theorem State.signal_tripped (v : Nat) : (s.signal v).tripped = s.tripped := by
  first | rfl | (unfold State.signal; (try dsimp only); (repeat' split) <;> first | rfl | simp)
@[simp] theorem State.signal_thermTripN (v : Nat) : (s.signal v).thermTripN = s.thermTripN := by
  first | rfl | (unfold State.signal; (try dsimp only); (repeat' split) <;> first | rfl | simp)
@[simp] theorem State.signal_refclkLost (v : Nat) : (s.signal v).refclkLost = s.refclkLost := by
  first | rfl | (unfold State.signal; (try dsimp only); (repeat' split) <;> first | rfl | simp)
@[simp] theorem State.signal_lpLost (v : Nat) : (s.signal v).lpLost = s.lpLost := by
  first | rfl | (unfold State.signal; (try dsimp only); (repeat' split) <;> first | rfl | simp)
@[simp] theorem State.signal_image (v : Nat) : (s.signal v).image = s.image := by
  first | rfl | (unfold State.signal; (try dsimp only); (repeat' split) <;> first | rfl | simp)
@[simp] theorem State.signal_imageSvn (v : Nat) : (s.signal v).imageSvn = s.imageSvn := by
  first | rfl | (unfold State.signal; (try dsimp only); (repeat' split) <;> first | rfl | simp)
@[simp] theorem State.signal_imageDigest (v : Nat) : (s.signal v).imageDigest = s.imageDigest := by
  first | rfl | (unfold State.signal; (try dsimp only); (repeat' split) <;> first | rfl | simp)
@[simp] theorem State.signal_idKey (v : Nat) : (s.signal v).idKey = s.idKey := by
  first | rfl | (unfold State.signal; (try dsimp only); (repeat' split) <;> first | rfl | simp)
@[simp] theorem State.signal_attest (v : Nat) : (s.signal v).attest = s.attest := by
  first | rfl | (unfold State.signal; (try dsimp only); (repeat' split) <;> first | rfl | simp)
@[simp] theorem State.signal_bundle (v : Nat) : (s.signal v).bundle = s.bundle := by
  first | rfl | (unfold State.signal; (try dsimp only); (repeat' split) <;> first | rfl | simp)
@[simp] theorem State.signal_bundleCopy (v : Nat) : (s.signal v).bundleCopy = s.bundleCopy := by
  first | rfl | (unfold State.signal; (try dsimp only); (repeat' split) <;> first | rfl | simp)
@[simp] theorem State.signal_nonce (v : Nat) : (s.signal v).nonce = s.nonce := by
  first | rfl | (unfold State.signal; (try dsimp only); (repeat' split) <;> first | rfl | simp)
@[simp] theorem State.signal_tierSize (v : Nat) : (s.signal v).tierSize = s.tierSize := by
  first | rfl | (unfold State.signal; (try dsimp only); (repeat' split) <;> first | rfl | simp)
@[simp] theorem State.signal_powerUw (v : Nat) : (s.signal v).powerUw = s.powerUw := by
  first | rfl | (unfold State.signal; (try dsimp only); (repeat' split) <;> first | rfl | simp)
@[simp] theorem State.signal_rails (v : Nat) : (s.signal v).rails = s.rails := by
  first | rfl | (unfold State.signal; (try dsimp only); (repeat' split) <;> first | rfl | simp)
@[simp] theorem State.signal_avsFails (v : Nat) : (s.signal v).avsFails = s.avsFails := by
  first | rfl | (unfold State.signal; (try dsimp only); (repeat' split) <;> first | rfl | simp)
@[simp] theorem State.signal_fresh (v : Nat) : (s.signal v).fresh = s.fresh := by
  first | rfl | (unfold State.signal; (try dsimp only); (repeat' split) <;> first | rfl | simp)
@[simp] theorem State.signal_pending (v : Nat) : (s.signal v).pending = s.pending := by
  first | rfl | (unfold State.signal; (try dsimp only); (repeat' split) <;> first | rfl | simp)

/-! ### flushMsix -/

@[simp] theorem State.flushMsix_rf  : (s.flushMsix).rf = s.rf := by
  first | rfl | (unfold State.flushMsix; (try dsimp only); (repeat' split) <;> first | rfl | simp)
@[simp] theorem State.flushMsix_eff  : (s.flushMsix).eff = s.eff := by
  first | rfl | (unfold State.flushMsix; (try dsimp only); (repeat' split) <;> first | rfl | simp)
@[simp] theorem State.flushMsix_mem  : (s.flushMsix).mem = s.mem := by
  first | rfl | (unfold State.flushMsix; (try dsimp only); (repeat' split) <;> first | rfl | simp)
@[simp] theorem State.flushMsix_poison  : (s.flushMsix).poison = s.poison := by
  first | rfl | (unfold State.flushMsix; (try dsimp only); (repeat' split) <;> first | rfl | simp)
@[simp] theorem State.flushMsix_okWords  : (s.flushMsix).okWords = s.okWords := by
  first | rfl | (unfold State.flushMsix; (try dsimp only); (repeat' split) <;> first | rfl | simp)
@[simp] theorem State.flushMsix_symErr  : (s.flushMsix).symErr = s.symErr := by
  first | rfl | (unfold State.flushMsix; (try dsimp only); (repeat' split) <;> first | rfl | simp)
@[simp] theorem State.flushMsix_host  : (s.flushMsix).host = s.host := by
  first | rfl | (unfold State.flushMsix; (try dsimp only); (repeat' split) <;> first | rfl | simp)
@[simp] theorem State.flushMsix_fuses  : (s.flushMsix).fuses = s.fuses := by
  first | rfl | (unfold State.flushMsix; (try dsimp only); (repeat' split) <;> first | rfl | simp)
@[simp] theorem State.flushMsix_nvm  : (s.flushMsix).nvm = s.nvm := by
  first | rfl | (unfold State.flushMsix; (try dsimp only); (repeat' split) <;> first | rfl | simp)
@[simp] theorem State.flushMsix_recorder  : (s.flushMsix).recorder = s.recorder := by
  first | rfl | (unfold State.flushMsix; (try dsimp only); (repeat' split) <;> first | rfl | simp)
@[simp] theorem State.flushMsix_job  : (s.flushMsix).job = s.job := by
  first | rfl | (unfold State.flushMsix; (try dsimp only); (repeat' split) <;> first | rfl | simp)
@[simp] theorem State.flushMsix_gaths  : (s.flushMsix).gaths = s.gaths := by
  first | rfl | (unfold State.flushMsix; (try dsimp only); (repeat' split) <;> first | rfl | simp)
@[simp] theorem State.flushMsix_queues  : (s.flushMsix).queues = s.queues := by
  first | rfl | (unfold State.flushMsix; (try dsimp only); (repeat' split) <;> first | rfl | simp)
@[simp] theorem State.flushMsix_yarders  : (s.flushMsix).yarders = s.yarders := by
  first | rfl | (unfold State.flushMsix; (try dsimp only); (repeat' split) <;> first | rfl | simp)
@[simp] theorem State.flushMsix_colls  : (s.flushMsix).colls = s.colls := by
  first | rfl | (unfold State.flushMsix; (try dsimp only); (repeat' split) <;> first | rfl | simp)
@[simp] theorem State.flushMsix_dies  : (s.flushMsix).dies = s.dies := by
  first | rfl | (unfold State.flushMsix; (try dsimp only); (repeat' split) <;> first | rfl | simp)
@[simp] theorem State.flushMsix_signals  : (s.flushMsix).signals = s.signals := by
  first | rfl | (unfold State.flushMsix; (try dsimp only); (repeat' split) <;> first | rfl | simp)
@[simp] theorem State.flushMsix_mtok  : (s.flushMsix).mtok = s.mtok := by
  first | rfl | (unfold State.flushMsix; (try dsimp only); (repeat' split) <;> first | rfl | simp)
@[simp] theorem State.flushMsix_mOvf  : (s.flushMsix).mOvf = s.mOvf := by
  first | rfl | (unfold State.flushMsix; (try dsimp only); (repeat' split) <;> first | rfl | simp)
@[simp] theorem State.flushMsix_tor  : (s.flushMsix).tor = s.tor := by
  first | rfl | (unfold State.flushMsix; (try dsimp only); (repeat' split) <;> first | rfl | simp)
@[simp] theorem State.flushMsix_irl  : (s.flushMsix).irl = s.irl := by
  first | rfl | (unfold State.flushMsix; (try dsimp only); (repeat' split) <;> first | rfl | simp)
@[simp] theorem State.flushMsix_mons  : (s.flushMsix).mons = s.mons := by
  first | rfl | (unfold State.flushMsix; (try dsimp only); (repeat' split) <;> first | rfl | simp)
@[simp] theorem State.flushMsix_monEnds  : (s.flushMsix).monEnds = s.monEnds := by
  first | rfl | (unfold State.flushMsix; (try dsimp only); (repeat' split) <;> first | rfl | simp)
@[simp] theorem State.flushMsix_waits  : (s.flushMsix).waits = s.waits := by
  first | rfl | (unfold State.flushMsix; (try dsimp only); (repeat' split) <;> first | rfl | simp)
@[simp] theorem State.flushMsix_now  : (s.flushMsix).now = s.now := by
  first | rfl | (unfold State.flushMsix; (try dsimp only); (repeat' split) <;> first | rfl | simp)
@[simp] theorem State.flushMsix_perst  : (s.flushMsix).perst = s.perst := by
  first | rfl | (unfold State.flushMsix; (try dsimp only); (repeat' split) <;> first | rfl | simp)
@[simp] theorem State.flushMsix_slot  : (s.flushMsix).slot = s.slot := by
  first | rfl | (unfold State.flushMsix; (try dsimp only); (repeat' split) <;> first | rfl | simp)
@[simp] theorem State.flushMsix_badRamp  : (s.flushMsix).badRamp = s.badRamp := by
  first | rfl | (unfold State.flushMsix; (try dsimp only); (repeat' split) <;> first | rfl | simp)
@[simp] theorem State.flushMsix_rampCure  : (s.flushMsix).rampCure = s.rampCure := by
  first | rfl | (unfold State.flushMsix; (try dsimp only); (repeat' split) <;> first | rfl | simp)
@[simp] theorem State.flushMsix_railUntil  : (s.flushMsix).railUntil = s.railUntil := by
  first | rfl | (unfold State.flushMsix; (try dsimp only); (repeat' split) <;> first | rfl | simp)
@[simp] theorem State.flushMsix_dead  : (s.flushMsix).dead = s.dead := by
  first | rfl | (unfold State.flushMsix; (try dsimp only); (repeat' split) <;> first | rfl | simp)
@[simp] theorem State.flushMsix_tripped  : (s.flushMsix).tripped = s.tripped := by
  first | rfl | (unfold State.flushMsix; (try dsimp only); (repeat' split) <;> first | rfl | simp)
@[simp] theorem State.flushMsix_thermTripN  : (s.flushMsix).thermTripN = s.thermTripN := by
  first | rfl | (unfold State.flushMsix; (try dsimp only); (repeat' split) <;> first | rfl | simp)
@[simp] theorem State.flushMsix_refclkLost  : (s.flushMsix).refclkLost = s.refclkLost := by
  first | rfl | (unfold State.flushMsix; (try dsimp only); (repeat' split) <;> first | rfl | simp)
@[simp] theorem State.flushMsix_lpLost  : (s.flushMsix).lpLost = s.lpLost := by
  first | rfl | (unfold State.flushMsix; (try dsimp only); (repeat' split) <;> first | rfl | simp)
@[simp] theorem State.flushMsix_image  : (s.flushMsix).image = s.image := by
  first | rfl | (unfold State.flushMsix; (try dsimp only); (repeat' split) <;> first | rfl | simp)
@[simp] theorem State.flushMsix_imageSvn  : (s.flushMsix).imageSvn = s.imageSvn := by
  first | rfl | (unfold State.flushMsix; (try dsimp only); (repeat' split) <;> first | rfl | simp)
@[simp] theorem State.flushMsix_imageDigest  : (s.flushMsix).imageDigest = s.imageDigest := by
  first | rfl | (unfold State.flushMsix; (try dsimp only); (repeat' split) <;> first | rfl | simp)
@[simp] theorem State.flushMsix_idKey  : (s.flushMsix).idKey = s.idKey := by
  first | rfl | (unfold State.flushMsix; (try dsimp only); (repeat' split) <;> first | rfl | simp)
@[simp] theorem State.flushMsix_attest  : (s.flushMsix).attest = s.attest := by
  first | rfl | (unfold State.flushMsix; (try dsimp only); (repeat' split) <;> first | rfl | simp)
@[simp] theorem State.flushMsix_bundle  : (s.flushMsix).bundle = s.bundle := by
  first | rfl | (unfold State.flushMsix; (try dsimp only); (repeat' split) <;> first | rfl | simp)
@[simp] theorem State.flushMsix_bundleCopy  : (s.flushMsix).bundleCopy = s.bundleCopy := by
  first | rfl | (unfold State.flushMsix; (try dsimp only); (repeat' split) <;> first | rfl | simp)
@[simp] theorem State.flushMsix_nonce  : (s.flushMsix).nonce = s.nonce := by
  first | rfl | (unfold State.flushMsix; (try dsimp only); (repeat' split) <;> first | rfl | simp)
@[simp] theorem State.flushMsix_tierSize  : (s.flushMsix).tierSize = s.tierSize := by
  first | rfl | (unfold State.flushMsix; (try dsimp only); (repeat' split) <;> first | rfl | simp)
@[simp] theorem State.flushMsix_powerUw  : (s.flushMsix).powerUw = s.powerUw := by
  first | rfl | (unfold State.flushMsix; (try dsimp only); (repeat' split) <;> first | rfl | simp)
@[simp] theorem State.flushMsix_rails  : (s.flushMsix).rails = s.rails := by
  first | rfl | (unfold State.flushMsix; (try dsimp only); (repeat' split) <;> first | rfl | simp)
@[simp] theorem State.flushMsix_avsFails  : (s.flushMsix).avsFails = s.avsFails := by
  first | rfl | (unfold State.flushMsix; (try dsimp only); (repeat' split) <;> first | rfl | simp)
@[simp] theorem State.flushMsix_fresh  : (s.flushMsix).fresh = s.fresh := by
  first | rfl | (unfold State.flushMsix; (try dsimp only); (repeat' split) <;> first | rfl | simp)
@[simp] theorem State.flushMsix_pending  : (s.flushMsix).pending = s.pending := by
  first | rfl | (unfold State.flushMsix; (try dsimp only); (repeat' split) <;> first | rfl | simp)

/-! ### history -/

@[simp] theorem State.history_rf (unit kind die index detail : Nat) : (s.history unit kind die index detail).rf = s.rf := by
  first | rfl | (unfold State.history; (try dsimp only); (repeat' split) <;> first | rfl | simp)
@[simp] theorem State.history_eff (unit kind die index detail : Nat) : (s.history unit kind die index detail).eff = s.eff := by
  first | rfl | (unfold State.history; (try dsimp only); (repeat' split) <;> first | rfl | simp)
@[simp] theorem State.history_mem (unit kind die index detail : Nat) : (s.history unit kind die index detail).mem = s.mem := by
  first | rfl | (unfold State.history; (try dsimp only); (repeat' split) <;> first | rfl | simp)
@[simp] theorem State.history_poison (unit kind die index detail : Nat) : (s.history unit kind die index detail).poison = s.poison := by
  first | rfl | (unfold State.history; (try dsimp only); (repeat' split) <;> first | rfl | simp)
@[simp] theorem State.history_okWords (unit kind die index detail : Nat) : (s.history unit kind die index detail).okWords = s.okWords := by
  first | rfl | (unfold State.history; (try dsimp only); (repeat' split) <;> first | rfl | simp)
@[simp] theorem State.history_symErr (unit kind die index detail : Nat) : (s.history unit kind die index detail).symErr = s.symErr := by
  first | rfl | (unfold State.history; (try dsimp only); (repeat' split) <;> first | rfl | simp)
@[simp] theorem State.history_host (unit kind die index detail : Nat) : (s.history unit kind die index detail).host = s.host := by
  first | rfl | (unfold State.history; (try dsimp only); (repeat' split) <;> first | rfl | simp)
@[simp] theorem State.history_fuses (unit kind die index detail : Nat) : (s.history unit kind die index detail).fuses = s.fuses := by
  first | rfl | (unfold State.history; (try dsimp only); (repeat' split) <;> first | rfl | simp)
@[simp] theorem State.history_recorder (unit kind die index detail : Nat) : (s.history unit kind die index detail).recorder = s.recorder := by
  first | rfl | (unfold State.history; (try dsimp only); (repeat' split) <;> first | rfl | simp)
@[simp] theorem State.history_job (unit kind die index detail : Nat) : (s.history unit kind die index detail).job = s.job := by
  first | rfl | (unfold State.history; (try dsimp only); (repeat' split) <;> first | rfl | simp)
@[simp] theorem State.history_hif (unit kind die index detail : Nat) : (s.history unit kind die index detail).hif = s.hif := by
  first | rfl | (unfold State.history; (try dsimp only); (repeat' split) <;> first | rfl | simp)
@[simp] theorem State.history_gaths (unit kind die index detail : Nat) : (s.history unit kind die index detail).gaths = s.gaths := by
  first | rfl | (unfold State.history; (try dsimp only); (repeat' split) <;> first | rfl | simp)
@[simp] theorem State.history_queues (unit kind die index detail : Nat) : (s.history unit kind die index detail).queues = s.queues := by
  first | rfl | (unfold State.history; (try dsimp only); (repeat' split) <;> first | rfl | simp)
@[simp] theorem State.history_yarders (unit kind die index detail : Nat) : (s.history unit kind die index detail).yarders = s.yarders := by
  first | rfl | (unfold State.history; (try dsimp only); (repeat' split) <;> first | rfl | simp)
@[simp] theorem State.history_colls (unit kind die index detail : Nat) : (s.history unit kind die index detail).colls = s.colls := by
  first | rfl | (unfold State.history; (try dsimp only); (repeat' split) <;> first | rfl | simp)
@[simp] theorem State.history_dies (unit kind die index detail : Nat) : (s.history unit kind die index detail).dies = s.dies := by
  first | rfl | (unfold State.history; (try dsimp only); (repeat' split) <;> first | rfl | simp)
@[simp] theorem State.history_signals (unit kind die index detail : Nat) : (s.history unit kind die index detail).signals = s.signals := by
  first | rfl | (unfold State.history; (try dsimp only); (repeat' split) <;> first | rfl | simp)
@[simp] theorem State.history_mtok (unit kind die index detail : Nat) : (s.history unit kind die index detail).mtok = s.mtok := by
  first | rfl | (unfold State.history; (try dsimp only); (repeat' split) <;> first | rfl | simp)
@[simp] theorem State.history_mOvf (unit kind die index detail : Nat) : (s.history unit kind die index detail).mOvf = s.mOvf := by
  first | rfl | (unfold State.history; (try dsimp only); (repeat' split) <;> first | rfl | simp)
@[simp] theorem State.history_tor (unit kind die index detail : Nat) : (s.history unit kind die index detail).tor = s.tor := by
  first | rfl | (unfold State.history; (try dsimp only); (repeat' split) <;> first | rfl | simp)
@[simp] theorem State.history_irl (unit kind die index detail : Nat) : (s.history unit kind die index detail).irl = s.irl := by
  first | rfl | (unfold State.history; (try dsimp only); (repeat' split) <;> first | rfl | simp)
@[simp] theorem State.history_mons (unit kind die index detail : Nat) : (s.history unit kind die index detail).mons = s.mons := by
  first | rfl | (unfold State.history; (try dsimp only); (repeat' split) <;> first | rfl | simp)
@[simp] theorem State.history_monEnds (unit kind die index detail : Nat) : (s.history unit kind die index detail).monEnds = s.monEnds := by
  first | rfl | (unfold State.history; (try dsimp only); (repeat' split) <;> first | rfl | simp)
@[simp] theorem State.history_waits (unit kind die index detail : Nat) : (s.history unit kind die index detail).waits = s.waits := by
  first | rfl | (unfold State.history; (try dsimp only); (repeat' split) <;> first | rfl | simp)
@[simp] theorem State.history_now (unit kind die index detail : Nat) : (s.history unit kind die index detail).now = s.now := by
  first | rfl | (unfold State.history; (try dsimp only); (repeat' split) <;> first | rfl | simp)
@[simp] theorem State.history_perst (unit kind die index detail : Nat) : (s.history unit kind die index detail).perst = s.perst := by
  first | rfl | (unfold State.history; (try dsimp only); (repeat' split) <;> first | rfl | simp)
@[simp] theorem State.history_slot (unit kind die index detail : Nat) : (s.history unit kind die index detail).slot = s.slot := by
  first | rfl | (unfold State.history; (try dsimp only); (repeat' split) <;> first | rfl | simp)
@[simp] theorem State.history_badRamp (unit kind die index detail : Nat) : (s.history unit kind die index detail).badRamp = s.badRamp := by
  first | rfl | (unfold State.history; (try dsimp only); (repeat' split) <;> first | rfl | simp)
@[simp] theorem State.history_rampCure (unit kind die index detail : Nat) : (s.history unit kind die index detail).rampCure = s.rampCure := by
  first | rfl | (unfold State.history; (try dsimp only); (repeat' split) <;> first | rfl | simp)
@[simp] theorem State.history_railUntil (unit kind die index detail : Nat) : (s.history unit kind die index detail).railUntil = s.railUntil := by
  first | rfl | (unfold State.history; (try dsimp only); (repeat' split) <;> first | rfl | simp)
@[simp] theorem State.history_dead (unit kind die index detail : Nat) : (s.history unit kind die index detail).dead = s.dead := by
  first | rfl | (unfold State.history; (try dsimp only); (repeat' split) <;> first | rfl | simp)
@[simp] theorem State.history_tripped (unit kind die index detail : Nat) : (s.history unit kind die index detail).tripped = s.tripped := by
  first | rfl | (unfold State.history; (try dsimp only); (repeat' split) <;> first | rfl | simp)
@[simp] theorem State.history_thermTripN (unit kind die index detail : Nat) : (s.history unit kind die index detail).thermTripN = s.thermTripN := by
  first | rfl | (unfold State.history; (try dsimp only); (repeat' split) <;> first | rfl | simp)
@[simp] theorem State.history_refclkLost (unit kind die index detail : Nat) : (s.history unit kind die index detail).refclkLost = s.refclkLost := by
  first | rfl | (unfold State.history; (try dsimp only); (repeat' split) <;> first | rfl | simp)
@[simp] theorem State.history_lpLost (unit kind die index detail : Nat) : (s.history unit kind die index detail).lpLost = s.lpLost := by
  first | rfl | (unfold State.history; (try dsimp only); (repeat' split) <;> first | rfl | simp)
@[simp] theorem State.history_image (unit kind die index detail : Nat) : (s.history unit kind die index detail).image = s.image := by
  first | rfl | (unfold State.history; (try dsimp only); (repeat' split) <;> first | rfl | simp)
@[simp] theorem State.history_imageSvn (unit kind die index detail : Nat) : (s.history unit kind die index detail).imageSvn = s.imageSvn := by
  first | rfl | (unfold State.history; (try dsimp only); (repeat' split) <;> first | rfl | simp)
@[simp] theorem State.history_imageDigest (unit kind die index detail : Nat) : (s.history unit kind die index detail).imageDigest = s.imageDigest := by
  first | rfl | (unfold State.history; (try dsimp only); (repeat' split) <;> first | rfl | simp)
@[simp] theorem State.history_idKey (unit kind die index detail : Nat) : (s.history unit kind die index detail).idKey = s.idKey := by
  first | rfl | (unfold State.history; (try dsimp only); (repeat' split) <;> first | rfl | simp)
@[simp] theorem State.history_attest (unit kind die index detail : Nat) : (s.history unit kind die index detail).attest = s.attest := by
  first | rfl | (unfold State.history; (try dsimp only); (repeat' split) <;> first | rfl | simp)
@[simp] theorem State.history_bundle (unit kind die index detail : Nat) : (s.history unit kind die index detail).bundle = s.bundle := by
  first | rfl | (unfold State.history; (try dsimp only); (repeat' split) <;> first | rfl | simp)
@[simp] theorem State.history_bundleCopy (unit kind die index detail : Nat) : (s.history unit kind die index detail).bundleCopy = s.bundleCopy := by
  first | rfl | (unfold State.history; (try dsimp only); (repeat' split) <;> first | rfl | simp)
@[simp] theorem State.history_nonce (unit kind die index detail : Nat) : (s.history unit kind die index detail).nonce = s.nonce := by
  first | rfl | (unfold State.history; (try dsimp only); (repeat' split) <;> first | rfl | simp)
@[simp] theorem State.history_tierSize (unit kind die index detail : Nat) : (s.history unit kind die index detail).tierSize = s.tierSize := by
  first | rfl | (unfold State.history; (try dsimp only); (repeat' split) <;> first | rfl | simp)
@[simp] theorem State.history_powerUw (unit kind die index detail : Nat) : (s.history unit kind die index detail).powerUw = s.powerUw := by
  first | rfl | (unfold State.history; (try dsimp only); (repeat' split) <;> first | rfl | simp)
@[simp] theorem State.history_rails (unit kind die index detail : Nat) : (s.history unit kind die index detail).rails = s.rails := by
  first | rfl | (unfold State.history; (try dsimp only); (repeat' split) <;> first | rfl | simp)
@[simp] theorem State.history_avsFails (unit kind die index detail : Nat) : (s.history unit kind die index detail).avsFails = s.avsFails := by
  first | rfl | (unfold State.history; (try dsimp only); (repeat' split) <;> first | rfl | simp)
@[simp] theorem State.history_fresh (unit kind die index detail : Nat) : (s.history unit kind die index detail).fresh = s.fresh := by
  first | rfl | (unfold State.history; (try dsimp only); (repeat' split) <;> first | rfl | simp)
@[simp] theorem State.history_pending (unit kind die index detail : Nat) : (s.history unit kind die index detail).pending = s.pending := by
  first | rfl | (unfold State.history; (try dsimp only); (repeat' split) <;> first | rfl | simp)

/-! ### setTok -/

@[simp] theorem State.setTok_eff (b : Bool) (d k v : Nat) : (s.setTok b d k v).eff = s.eff := by
  first | rfl | (unfold State.setTok; (try dsimp only); (repeat' split) <;> first | rfl | simp)
@[simp] theorem State.setTok_mem (b : Bool) (d k v : Nat) : (s.setTok b d k v).mem = s.mem := by
  first | rfl | (unfold State.setTok; (try dsimp only); (repeat' split) <;> first | rfl | simp)
@[simp] theorem State.setTok_poison (b : Bool) (d k v : Nat) : (s.setTok b d k v).poison = s.poison := by
  first | rfl | (unfold State.setTok; (try dsimp only); (repeat' split) <;> first | rfl | simp)
@[simp] theorem State.setTok_okWords (b : Bool) (d k v : Nat) : (s.setTok b d k v).okWords = s.okWords := by
  first | rfl | (unfold State.setTok; (try dsimp only); (repeat' split) <;> first | rfl | simp)
@[simp] theorem State.setTok_symErr (b : Bool) (d k v : Nat) : (s.setTok b d k v).symErr = s.symErr := by
  first | rfl | (unfold State.setTok; (try dsimp only); (repeat' split) <;> first | rfl | simp)
@[simp] theorem State.setTok_host (b : Bool) (d k v : Nat) : (s.setTok b d k v).host = s.host := by
  first | rfl | (unfold State.setTok; (try dsimp only); (repeat' split) <;> first | rfl | simp)
@[simp] theorem State.setTok_fuses (b : Bool) (d k v : Nat) : (s.setTok b d k v).fuses = s.fuses := by
  first | rfl | (unfold State.setTok; (try dsimp only); (repeat' split) <;> first | rfl | simp)
@[simp] theorem State.setTok_nvm (b : Bool) (d k v : Nat) : (s.setTok b d k v).nvm = s.nvm := by
  first | rfl | (unfold State.setTok; (try dsimp only); (repeat' split) <;> first | rfl | simp)
@[simp] theorem State.setTok_recorder (b : Bool) (d k v : Nat) : (s.setTok b d k v).recorder = s.recorder := by
  first | rfl | (unfold State.setTok; (try dsimp only); (repeat' split) <;> first | rfl | simp)
@[simp] theorem State.setTok_job (b : Bool) (d k v : Nat) : (s.setTok b d k v).job = s.job := by
  first | rfl | (unfold State.setTok; (try dsimp only); (repeat' split) <;> first | rfl | simp)
@[simp] theorem State.setTok_hif (b : Bool) (d k v : Nat) : (s.setTok b d k v).hif = s.hif := by
  first | rfl | (unfold State.setTok; (try dsimp only); (repeat' split) <;> first | rfl | simp)
@[simp] theorem State.setTok_gaths (b : Bool) (d k v : Nat) : (s.setTok b d k v).gaths = s.gaths := by
  first | rfl | (unfold State.setTok; (try dsimp only); (repeat' split) <;> first | rfl | simp)
@[simp] theorem State.setTok_queues (b : Bool) (d k v : Nat) : (s.setTok b d k v).queues = s.queues := by
  first | rfl | (unfold State.setTok; (try dsimp only); (repeat' split) <;> first | rfl | simp)
@[simp] theorem State.setTok_yarders (b : Bool) (d k v : Nat) : (s.setTok b d k v).yarders = s.yarders := by
  first | rfl | (unfold State.setTok; (try dsimp only); (repeat' split) <;> first | rfl | simp)
@[simp] theorem State.setTok_colls (b : Bool) (d k v : Nat) : (s.setTok b d k v).colls = s.colls := by
  first | rfl | (unfold State.setTok; (try dsimp only); (repeat' split) <;> first | rfl | simp)
@[simp] theorem State.setTok_dies (b : Bool) (d k v : Nat) : (s.setTok b d k v).dies = s.dies := by
  first | rfl | (unfold State.setTok; (try dsimp only); (repeat' split) <;> first | rfl | simp)
@[simp] theorem State.setTok_signals (b : Bool) (d k v : Nat) : (s.setTok b d k v).signals = s.signals := by
  first | rfl | (unfold State.setTok; (try dsimp only); (repeat' split) <;> first | rfl | simp)
@[simp] theorem State.setTok_mOvf (b : Bool) (d k v : Nat) : (s.setTok b d k v).mOvf = s.mOvf := by
  first | rfl | (unfold State.setTok; (try dsimp only); (repeat' split) <;> first | rfl | simp)
@[simp] theorem State.setTok_tor (b : Bool) (d k v : Nat) : (s.setTok b d k v).tor = s.tor := by
  first | rfl | (unfold State.setTok; (try dsimp only); (repeat' split) <;> first | rfl | simp)
@[simp] theorem State.setTok_irl (b : Bool) (d k v : Nat) : (s.setTok b d k v).irl = s.irl := by
  first | rfl | (unfold State.setTok; (try dsimp only); (repeat' split) <;> first | rfl | simp)
@[simp] theorem State.setTok_mons (b : Bool) (d k v : Nat) : (s.setTok b d k v).mons = s.mons := by
  first | rfl | (unfold State.setTok; (try dsimp only); (repeat' split) <;> first | rfl | simp)
@[simp] theorem State.setTok_monEnds (b : Bool) (d k v : Nat) : (s.setTok b d k v).monEnds = s.monEnds := by
  first | rfl | (unfold State.setTok; (try dsimp only); (repeat' split) <;> first | rfl | simp)
@[simp] theorem State.setTok_waits (b : Bool) (d k v : Nat) : (s.setTok b d k v).waits = s.waits := by
  first | rfl | (unfold State.setTok; (try dsimp only); (repeat' split) <;> first | rfl | simp)
@[simp] theorem State.setTok_now (b : Bool) (d k v : Nat) : (s.setTok b d k v).now = s.now := by
  first | rfl | (unfold State.setTok; (try dsimp only); (repeat' split) <;> first | rfl | simp)
@[simp] theorem State.setTok_perst (b : Bool) (d k v : Nat) : (s.setTok b d k v).perst = s.perst := by
  first | rfl | (unfold State.setTok; (try dsimp only); (repeat' split) <;> first | rfl | simp)
@[simp] theorem State.setTok_slot (b : Bool) (d k v : Nat) : (s.setTok b d k v).slot = s.slot := by
  first | rfl | (unfold State.setTok; (try dsimp only); (repeat' split) <;> first | rfl | simp)
@[simp] theorem State.setTok_badRamp (b : Bool) (d k v : Nat) : (s.setTok b d k v).badRamp = s.badRamp := by
  first | rfl | (unfold State.setTok; (try dsimp only); (repeat' split) <;> first | rfl | simp)
@[simp] theorem State.setTok_rampCure (b : Bool) (d k v : Nat) : (s.setTok b d k v).rampCure = s.rampCure := by
  first | rfl | (unfold State.setTok; (try dsimp only); (repeat' split) <;> first | rfl | simp)
@[simp] theorem State.setTok_railUntil (b : Bool) (d k v : Nat) : (s.setTok b d k v).railUntil = s.railUntil := by
  first | rfl | (unfold State.setTok; (try dsimp only); (repeat' split) <;> first | rfl | simp)
@[simp] theorem State.setTok_dead (b : Bool) (d k v : Nat) : (s.setTok b d k v).dead = s.dead := by
  first | rfl | (unfold State.setTok; (try dsimp only); (repeat' split) <;> first | rfl | simp)
@[simp] theorem State.setTok_tripped (b : Bool) (d k v : Nat) : (s.setTok b d k v).tripped = s.tripped := by
  first | rfl | (unfold State.setTok; (try dsimp only); (repeat' split) <;> first | rfl | simp)
@[simp] theorem State.setTok_thermTripN (b : Bool) (d k v : Nat) : (s.setTok b d k v).thermTripN = s.thermTripN := by
  first | rfl | (unfold State.setTok; (try dsimp only); (repeat' split) <;> first | rfl | simp)
@[simp] theorem State.setTok_refclkLost (b : Bool) (d k v : Nat) : (s.setTok b d k v).refclkLost = s.refclkLost := by
  first | rfl | (unfold State.setTok; (try dsimp only); (repeat' split) <;> first | rfl | simp)
@[simp] theorem State.setTok_lpLost (b : Bool) (d k v : Nat) : (s.setTok b d k v).lpLost = s.lpLost := by
  first | rfl | (unfold State.setTok; (try dsimp only); (repeat' split) <;> first | rfl | simp)
@[simp] theorem State.setTok_image (b : Bool) (d k v : Nat) : (s.setTok b d k v).image = s.image := by
  first | rfl | (unfold State.setTok; (try dsimp only); (repeat' split) <;> first | rfl | simp)
@[simp] theorem State.setTok_imageSvn (b : Bool) (d k v : Nat) : (s.setTok b d k v).imageSvn = s.imageSvn := by
  first | rfl | (unfold State.setTok; (try dsimp only); (repeat' split) <;> first | rfl | simp)
@[simp] theorem State.setTok_imageDigest (b : Bool) (d k v : Nat) : (s.setTok b d k v).imageDigest = s.imageDigest := by
  first | rfl | (unfold State.setTok; (try dsimp only); (repeat' split) <;> first | rfl | simp)
@[simp] theorem State.setTok_idKey (b : Bool) (d k v : Nat) : (s.setTok b d k v).idKey = s.idKey := by
  first | rfl | (unfold State.setTok; (try dsimp only); (repeat' split) <;> first | rfl | simp)
@[simp] theorem State.setTok_attest (b : Bool) (d k v : Nat) : (s.setTok b d k v).attest = s.attest := by
  first | rfl | (unfold State.setTok; (try dsimp only); (repeat' split) <;> first | rfl | simp)
@[simp] theorem State.setTok_bundle (b : Bool) (d k v : Nat) : (s.setTok b d k v).bundle = s.bundle := by
  first | rfl | (unfold State.setTok; (try dsimp only); (repeat' split) <;> first | rfl | simp)
@[simp] theorem State.setTok_bundleCopy (b : Bool) (d k v : Nat) : (s.setTok b d k v).bundleCopy = s.bundleCopy := by
  first | rfl | (unfold State.setTok; (try dsimp only); (repeat' split) <;> first | rfl | simp)
@[simp] theorem State.setTok_nonce (b : Bool) (d k v : Nat) : (s.setTok b d k v).nonce = s.nonce := by
  first | rfl | (unfold State.setTok; (try dsimp only); (repeat' split) <;> first | rfl | simp)
@[simp] theorem State.setTok_tierSize (b : Bool) (d k v : Nat) : (s.setTok b d k v).tierSize = s.tierSize := by
  first | rfl | (unfold State.setTok; (try dsimp only); (repeat' split) <;> first | rfl | simp)
@[simp] theorem State.setTok_powerUw (b : Bool) (d k v : Nat) : (s.setTok b d k v).powerUw = s.powerUw := by
  first | rfl | (unfold State.setTok; (try dsimp only); (repeat' split) <;> first | rfl | simp)
@[simp] theorem State.setTok_rails (b : Bool) (d k v : Nat) : (s.setTok b d k v).rails = s.rails := by
  first | rfl | (unfold State.setTok; (try dsimp only); (repeat' split) <;> first | rfl | simp)
@[simp] theorem State.setTok_avsFails (b : Bool) (d k v : Nat) : (s.setTok b d k v).avsFails = s.avsFails := by
  first | rfl | (unfold State.setTok; (try dsimp only); (repeat' split) <;> first | rfl | simp)
@[simp] theorem State.setTok_fresh (b : Bool) (d k v : Nat) : (s.setTok b d k v).fresh = s.fresh := by
  first | rfl | (unfold State.setTok; (try dsimp only); (repeat' split) <;> first | rfl | simp)
@[simp] theorem State.setTok_pending (b : Bool) (d k v : Nat) : (s.setTok b d k v).pending = s.pending := by
  first | rfl | (unfold State.setTok; (try dsimp only); (repeat' split) <;> first | rfl | simp)

/-! ### tokSignal -/

@[simp] theorem State.tokSignal_eff (b : Bool) (d k c a : Nat) : (s.tokSignal b d k c a).eff = s.eff := by
  first | rfl | (unfold State.tokSignal; (try dsimp only); (repeat' split) <;> first | rfl | simp)
@[simp] theorem State.tokSignal_mem (b : Bool) (d k c a : Nat) : (s.tokSignal b d k c a).mem = s.mem := by
  first | rfl | (unfold State.tokSignal; (try dsimp only); (repeat' split) <;> first | rfl | simp)
@[simp] theorem State.tokSignal_poison (b : Bool) (d k c a : Nat) : (s.tokSignal b d k c a).poison = s.poison := by
  first | rfl | (unfold State.tokSignal; (try dsimp only); (repeat' split) <;> first | rfl | simp)
@[simp] theorem State.tokSignal_okWords (b : Bool) (d k c a : Nat) : (s.tokSignal b d k c a).okWords = s.okWords := by
  first | rfl | (unfold State.tokSignal; (try dsimp only); (repeat' split) <;> first | rfl | simp)
@[simp] theorem State.tokSignal_symErr (b : Bool) (d k c a : Nat) : (s.tokSignal b d k c a).symErr = s.symErr := by
  first | rfl | (unfold State.tokSignal; (try dsimp only); (repeat' split) <;> first | rfl | simp)
@[simp] theorem State.tokSignal_host (b : Bool) (d k c a : Nat) : (s.tokSignal b d k c a).host = s.host := by
  first | rfl | (unfold State.tokSignal; (try dsimp only); (repeat' split) <;> first | rfl | simp)
@[simp] theorem State.tokSignal_fuses (b : Bool) (d k c a : Nat) : (s.tokSignal b d k c a).fuses = s.fuses := by
  first | rfl | (unfold State.tokSignal; (try dsimp only); (repeat' split) <;> first | rfl | simp)
@[simp] theorem State.tokSignal_nvm (b : Bool) (d k c a : Nat) : (s.tokSignal b d k c a).nvm = s.nvm := by
  first | rfl | (unfold State.tokSignal; (try dsimp only); (repeat' split) <;> first | rfl | simp)
@[simp] theorem State.tokSignal_job (b : Bool) (d k c a : Nat) : (s.tokSignal b d k c a).job = s.job := by
  first | rfl | (unfold State.tokSignal; (try dsimp only); (repeat' split) <;> first | rfl | simp)
@[simp] theorem State.tokSignal_gaths (b : Bool) (d k c a : Nat) : (s.tokSignal b d k c a).gaths = s.gaths := by
  first | rfl | (unfold State.tokSignal; (try dsimp only); (repeat' split) <;> first | rfl | simp)
@[simp] theorem State.tokSignal_queues (b : Bool) (d k c a : Nat) : (s.tokSignal b d k c a).queues = s.queues := by
  first | rfl | (unfold State.tokSignal; (try dsimp only); (repeat' split) <;> first | rfl | simp)
@[simp] theorem State.tokSignal_yarders (b : Bool) (d k c a : Nat) : (s.tokSignal b d k c a).yarders = s.yarders := by
  first | rfl | (unfold State.tokSignal; (try dsimp only); (repeat' split) <;> first | rfl | simp)
@[simp] theorem State.tokSignal_colls (b : Bool) (d k c a : Nat) : (s.tokSignal b d k c a).colls = s.colls := by
  first | rfl | (unfold State.tokSignal; (try dsimp only); (repeat' split) <;> first | rfl | simp)
@[simp] theorem State.tokSignal_dies (b : Bool) (d k c a : Nat) : (s.tokSignal b d k c a).dies = s.dies := by
  first | rfl | (unfold State.tokSignal; (try dsimp only); (repeat' split) <;> first | rfl | simp)
@[simp] theorem State.tokSignal_signals (b : Bool) (d k c a : Nat) : (s.tokSignal b d k c a).signals = s.signals := by
  first | rfl | (unfold State.tokSignal; (try dsimp only); (repeat' split) <;> first | rfl | simp)
@[simp] theorem State.tokSignal_tor (b : Bool) (d k c a : Nat) : (s.tokSignal b d k c a).tor = s.tor := by
  first | rfl | (unfold State.tokSignal; (try dsimp only); (repeat' split) <;> first | rfl | simp)
@[simp] theorem State.tokSignal_irl (b : Bool) (d k c a : Nat) : (s.tokSignal b d k c a).irl = s.irl := by
  first | rfl | (unfold State.tokSignal; (try dsimp only); (repeat' split) <;> first | rfl | simp)
@[simp] theorem State.tokSignal_mons (b : Bool) (d k c a : Nat) : (s.tokSignal b d k c a).mons = s.mons := by
  first | rfl | (unfold State.tokSignal; (try dsimp only); (repeat' split) <;> first | rfl | simp)
@[simp] theorem State.tokSignal_monEnds (b : Bool) (d k c a : Nat) : (s.tokSignal b d k c a).monEnds = s.monEnds := by
  first | rfl | (unfold State.tokSignal; (try dsimp only); (repeat' split) <;> first | rfl | simp)
@[simp] theorem State.tokSignal_waits (b : Bool) (d k c a : Nat) : (s.tokSignal b d k c a).waits = s.waits := by
  first | rfl | (unfold State.tokSignal; (try dsimp only); (repeat' split) <;> first | rfl | simp)
@[simp] theorem State.tokSignal_now (b : Bool) (d k c a : Nat) : (s.tokSignal b d k c a).now = s.now := by
  first | rfl | (unfold State.tokSignal; (try dsimp only); (repeat' split) <;> first | rfl | simp)
@[simp] theorem State.tokSignal_perst (b : Bool) (d k c a : Nat) : (s.tokSignal b d k c a).perst = s.perst := by
  first | rfl | (unfold State.tokSignal; (try dsimp only); (repeat' split) <;> first | rfl | simp)
@[simp] theorem State.tokSignal_slot (b : Bool) (d k c a : Nat) : (s.tokSignal b d k c a).slot = s.slot := by
  first | rfl | (unfold State.tokSignal; (try dsimp only); (repeat' split) <;> first | rfl | simp)
@[simp] theorem State.tokSignal_badRamp (b : Bool) (d k c a : Nat) : (s.tokSignal b d k c a).badRamp = s.badRamp := by
  first | rfl | (unfold State.tokSignal; (try dsimp only); (repeat' split) <;> first | rfl | simp)
@[simp] theorem State.tokSignal_rampCure (b : Bool) (d k c a : Nat) : (s.tokSignal b d k c a).rampCure = s.rampCure := by
  first | rfl | (unfold State.tokSignal; (try dsimp only); (repeat' split) <;> first | rfl | simp)
@[simp] theorem State.tokSignal_railUntil (b : Bool) (d k c a : Nat) : (s.tokSignal b d k c a).railUntil = s.railUntil := by
  first | rfl | (unfold State.tokSignal; (try dsimp only); (repeat' split) <;> first | rfl | simp)
@[simp] theorem State.tokSignal_dead (b : Bool) (d k c a : Nat) : (s.tokSignal b d k c a).dead = s.dead := by
  first | rfl | (unfold State.tokSignal; (try dsimp only); (repeat' split) <;> first | rfl | simp)
@[simp] theorem State.tokSignal_tripped (b : Bool) (d k c a : Nat) : (s.tokSignal b d k c a).tripped = s.tripped := by
  first | rfl | (unfold State.tokSignal; (try dsimp only); (repeat' split) <;> first | rfl | simp)
@[simp] theorem State.tokSignal_thermTripN (b : Bool) (d k c a : Nat) : (s.tokSignal b d k c a).thermTripN = s.thermTripN := by
  first | rfl | (unfold State.tokSignal; (try dsimp only); (repeat' split) <;> first | rfl | simp)
@[simp] theorem State.tokSignal_refclkLost (b : Bool) (d k c a : Nat) : (s.tokSignal b d k c a).refclkLost = s.refclkLost := by
  first | rfl | (unfold State.tokSignal; (try dsimp only); (repeat' split) <;> first | rfl | simp)
@[simp] theorem State.tokSignal_lpLost (b : Bool) (d k c a : Nat) : (s.tokSignal b d k c a).lpLost = s.lpLost := by
  first | rfl | (unfold State.tokSignal; (try dsimp only); (repeat' split) <;> first | rfl | simp)
@[simp] theorem State.tokSignal_image (b : Bool) (d k c a : Nat) : (s.tokSignal b d k c a).image = s.image := by
  first | rfl | (unfold State.tokSignal; (try dsimp only); (repeat' split) <;> first | rfl | simp)
@[simp] theorem State.tokSignal_imageSvn (b : Bool) (d k c a : Nat) : (s.tokSignal b d k c a).imageSvn = s.imageSvn := by
  first | rfl | (unfold State.tokSignal; (try dsimp only); (repeat' split) <;> first | rfl | simp)
@[simp] theorem State.tokSignal_imageDigest (b : Bool) (d k c a : Nat) : (s.tokSignal b d k c a).imageDigest = s.imageDigest := by
  first | rfl | (unfold State.tokSignal; (try dsimp only); (repeat' split) <;> first | rfl | simp)
@[simp] theorem State.tokSignal_idKey (b : Bool) (d k c a : Nat) : (s.tokSignal b d k c a).idKey = s.idKey := by
  first | rfl | (unfold State.tokSignal; (try dsimp only); (repeat' split) <;> first | rfl | simp)
@[simp] theorem State.tokSignal_attest (b : Bool) (d k c a : Nat) : (s.tokSignal b d k c a).attest = s.attest := by
  first | rfl | (unfold State.tokSignal; (try dsimp only); (repeat' split) <;> first | rfl | simp)
@[simp] theorem State.tokSignal_bundle (b : Bool) (d k c a : Nat) : (s.tokSignal b d k c a).bundle = s.bundle := by
  first | rfl | (unfold State.tokSignal; (try dsimp only); (repeat' split) <;> first | rfl | simp)
@[simp] theorem State.tokSignal_bundleCopy (b : Bool) (d k c a : Nat) : (s.tokSignal b d k c a).bundleCopy = s.bundleCopy := by
  first | rfl | (unfold State.tokSignal; (try dsimp only); (repeat' split) <;> first | rfl | simp)
@[simp] theorem State.tokSignal_nonce (b : Bool) (d k c a : Nat) : (s.tokSignal b d k c a).nonce = s.nonce := by
  first | rfl | (unfold State.tokSignal; (try dsimp only); (repeat' split) <;> first | rfl | simp)
@[simp] theorem State.tokSignal_tierSize (b : Bool) (d k c a : Nat) : (s.tokSignal b d k c a).tierSize = s.tierSize := by
  first | rfl | (unfold State.tokSignal; (try dsimp only); (repeat' split) <;> first | rfl | simp)
@[simp] theorem State.tokSignal_powerUw (b : Bool) (d k c a : Nat) : (s.tokSignal b d k c a).powerUw = s.powerUw := by
  first | rfl | (unfold State.tokSignal; (try dsimp only); (repeat' split) <;> first | rfl | simp)
@[simp] theorem State.tokSignal_rails (b : Bool) (d k c a : Nat) : (s.tokSignal b d k c a).rails = s.rails := by
  first | rfl | (unfold State.tokSignal; (try dsimp only); (repeat' split) <;> first | rfl | simp)
@[simp] theorem State.tokSignal_avsFails (b : Bool) (d k c a : Nat) : (s.tokSignal b d k c a).avsFails = s.avsFails := by
  first | rfl | (unfold State.tokSignal; (try dsimp only); (repeat' split) <;> first | rfl | simp)
@[simp] theorem State.tokSignal_fresh (b : Bool) (d k c a : Nat) : (s.tokSignal b d k c a).fresh = s.fresh := by
  first | rfl | (unfold State.tokSignal; (try dsimp only); (repeat' split) <;> first | rfl | simp)
@[simp] theorem State.tokSignal_pending (b : Bool) (d k c a : Nat) : (s.tokSignal b d k c a).pending = s.pending := by
  first | rfl | (unfold State.tokSignal; (try dsimp only); (repeat' split) <;> first | rfl | simp)

/-! ### healAll -/

@[simp] theorem State.healAll_rf (p : Nat → Bool) : (s.healAll p).rf = s.rf := by
  first | rfl | (unfold State.healAll; (try dsimp only); (repeat' split) <;> first | rfl | simp)
@[simp] theorem State.healAll_eff (p : Nat → Bool) : (s.healAll p).eff = s.eff := by
  first | rfl | (unfold State.healAll; (try dsimp only); (repeat' split) <;> first | rfl | simp)
@[simp] theorem State.healAll_mem (p : Nat → Bool) : (s.healAll p).mem = s.mem := by
  first | rfl | (unfold State.healAll; (try dsimp only); (repeat' split) <;> first | rfl | simp)
@[simp] theorem State.healAll_symErr (p : Nat → Bool) : (s.healAll p).symErr = s.symErr := by
  first | rfl | (unfold State.healAll; (try dsimp only); (repeat' split) <;> first | rfl | simp)
@[simp] theorem State.healAll_host (p : Nat → Bool) : (s.healAll p).host = s.host := by
  first | rfl | (unfold State.healAll; (try dsimp only); (repeat' split) <;> first | rfl | simp)
@[simp] theorem State.healAll_fuses (p : Nat → Bool) : (s.healAll p).fuses = s.fuses := by
  first | rfl | (unfold State.healAll; (try dsimp only); (repeat' split) <;> first | rfl | simp)
@[simp] theorem State.healAll_nvm (p : Nat → Bool) : (s.healAll p).nvm = s.nvm := by
  first | rfl | (unfold State.healAll; (try dsimp only); (repeat' split) <;> first | rfl | simp)
@[simp] theorem State.healAll_recorder (p : Nat → Bool) : (s.healAll p).recorder = s.recorder := by
  first | rfl | (unfold State.healAll; (try dsimp only); (repeat' split) <;> first | rfl | simp)
@[simp] theorem State.healAll_job (p : Nat → Bool) : (s.healAll p).job = s.job := by
  first | rfl | (unfold State.healAll; (try dsimp only); (repeat' split) <;> first | rfl | simp)
@[simp] theorem State.healAll_hif (p : Nat → Bool) : (s.healAll p).hif = s.hif := by
  first | rfl | (unfold State.healAll; (try dsimp only); (repeat' split) <;> first | rfl | simp)
@[simp] theorem State.healAll_gaths (p : Nat → Bool) : (s.healAll p).gaths = s.gaths := by
  first | rfl | (unfold State.healAll; (try dsimp only); (repeat' split) <;> first | rfl | simp)
@[simp] theorem State.healAll_queues (p : Nat → Bool) : (s.healAll p).queues = s.queues := by
  first | rfl | (unfold State.healAll; (try dsimp only); (repeat' split) <;> first | rfl | simp)
@[simp] theorem State.healAll_yarders (p : Nat → Bool) : (s.healAll p).yarders = s.yarders := by
  first | rfl | (unfold State.healAll; (try dsimp only); (repeat' split) <;> first | rfl | simp)
@[simp] theorem State.healAll_colls (p : Nat → Bool) : (s.healAll p).colls = s.colls := by
  first | rfl | (unfold State.healAll; (try dsimp only); (repeat' split) <;> first | rfl | simp)
@[simp] theorem State.healAll_dies (p : Nat → Bool) : (s.healAll p).dies = s.dies := by
  first | rfl | (unfold State.healAll; (try dsimp only); (repeat' split) <;> first | rfl | simp)
@[simp] theorem State.healAll_signals (p : Nat → Bool) : (s.healAll p).signals = s.signals := by
  first | rfl | (unfold State.healAll; (try dsimp only); (repeat' split) <;> first | rfl | simp)
@[simp] theorem State.healAll_mtok (p : Nat → Bool) : (s.healAll p).mtok = s.mtok := by
  first | rfl | (unfold State.healAll; (try dsimp only); (repeat' split) <;> first | rfl | simp)
@[simp] theorem State.healAll_mOvf (p : Nat → Bool) : (s.healAll p).mOvf = s.mOvf := by
  first | rfl | (unfold State.healAll; (try dsimp only); (repeat' split) <;> first | rfl | simp)
@[simp] theorem State.healAll_tor (p : Nat → Bool) : (s.healAll p).tor = s.tor := by
  first | rfl | (unfold State.healAll; (try dsimp only); (repeat' split) <;> first | rfl | simp)
@[simp] theorem State.healAll_irl (p : Nat → Bool) : (s.healAll p).irl = s.irl := by
  first | rfl | (unfold State.healAll; (try dsimp only); (repeat' split) <;> first | rfl | simp)
@[simp] theorem State.healAll_mons (p : Nat → Bool) : (s.healAll p).mons = s.mons := by
  first | rfl | (unfold State.healAll; (try dsimp only); (repeat' split) <;> first | rfl | simp)
@[simp] theorem State.healAll_monEnds (p : Nat → Bool) : (s.healAll p).monEnds = s.monEnds := by
  first | rfl | (unfold State.healAll; (try dsimp only); (repeat' split) <;> first | rfl | simp)
@[simp] theorem State.healAll_waits (p : Nat → Bool) : (s.healAll p).waits = s.waits := by
  first | rfl | (unfold State.healAll; (try dsimp only); (repeat' split) <;> first | rfl | simp)
@[simp] theorem State.healAll_now (p : Nat → Bool) : (s.healAll p).now = s.now := by
  first | rfl | (unfold State.healAll; (try dsimp only); (repeat' split) <;> first | rfl | simp)
@[simp] theorem State.healAll_perst (p : Nat → Bool) : (s.healAll p).perst = s.perst := by
  first | rfl | (unfold State.healAll; (try dsimp only); (repeat' split) <;> first | rfl | simp)
@[simp] theorem State.healAll_slot (p : Nat → Bool) : (s.healAll p).slot = s.slot := by
  first | rfl | (unfold State.healAll; (try dsimp only); (repeat' split) <;> first | rfl | simp)
@[simp] theorem State.healAll_badRamp (p : Nat → Bool) : (s.healAll p).badRamp = s.badRamp := by
  first | rfl | (unfold State.healAll; (try dsimp only); (repeat' split) <;> first | rfl | simp)
@[simp] theorem State.healAll_rampCure (p : Nat → Bool) : (s.healAll p).rampCure = s.rampCure := by
  first | rfl | (unfold State.healAll; (try dsimp only); (repeat' split) <;> first | rfl | simp)
@[simp] theorem State.healAll_railUntil (p : Nat → Bool) : (s.healAll p).railUntil = s.railUntil := by
  first | rfl | (unfold State.healAll; (try dsimp only); (repeat' split) <;> first | rfl | simp)
@[simp] theorem State.healAll_dead (p : Nat → Bool) : (s.healAll p).dead = s.dead := by
  first | rfl | (unfold State.healAll; (try dsimp only); (repeat' split) <;> first | rfl | simp)
@[simp] theorem State.healAll_tripped (p : Nat → Bool) : (s.healAll p).tripped = s.tripped := by
  first | rfl | (unfold State.healAll; (try dsimp only); (repeat' split) <;> first | rfl | simp)
@[simp] theorem State.healAll_thermTripN (p : Nat → Bool) : (s.healAll p).thermTripN = s.thermTripN := by
  first | rfl | (unfold State.healAll; (try dsimp only); (repeat' split) <;> first | rfl | simp)
@[simp] theorem State.healAll_refclkLost (p : Nat → Bool) : (s.healAll p).refclkLost = s.refclkLost := by
  first | rfl | (unfold State.healAll; (try dsimp only); (repeat' split) <;> first | rfl | simp)
@[simp] theorem State.healAll_lpLost (p : Nat → Bool) : (s.healAll p).lpLost = s.lpLost := by
  first | rfl | (unfold State.healAll; (try dsimp only); (repeat' split) <;> first | rfl | simp)
@[simp] theorem State.healAll_image (p : Nat → Bool) : (s.healAll p).image = s.image := by
  first | rfl | (unfold State.healAll; (try dsimp only); (repeat' split) <;> first | rfl | simp)
@[simp] theorem State.healAll_imageSvn (p : Nat → Bool) : (s.healAll p).imageSvn = s.imageSvn := by
  first | rfl | (unfold State.healAll; (try dsimp only); (repeat' split) <;> first | rfl | simp)
@[simp] theorem State.healAll_imageDigest (p : Nat → Bool) : (s.healAll p).imageDigest = s.imageDigest := by
  first | rfl | (unfold State.healAll; (try dsimp only); (repeat' split) <;> first | rfl | simp)
@[simp] theorem State.healAll_idKey (p : Nat → Bool) : (s.healAll p).idKey = s.idKey := by
  first | rfl | (unfold State.healAll; (try dsimp only); (repeat' split) <;> first | rfl | simp)
@[simp] theorem State.healAll_attest (p : Nat → Bool) : (s.healAll p).attest = s.attest := by
  first | rfl | (unfold State.healAll; (try dsimp only); (repeat' split) <;> first | rfl | simp)
@[simp] theorem State.healAll_bundle (p : Nat → Bool) : (s.healAll p).bundle = s.bundle := by
  first | rfl | (unfold State.healAll; (try dsimp only); (repeat' split) <;> first | rfl | simp)
@[simp] theorem State.healAll_bundleCopy (p : Nat → Bool) : (s.healAll p).bundleCopy = s.bundleCopy := by
  first | rfl | (unfold State.healAll; (try dsimp only); (repeat' split) <;> first | rfl | simp)
@[simp] theorem State.healAll_nonce (p : Nat → Bool) : (s.healAll p).nonce = s.nonce := by
  first | rfl | (unfold State.healAll; (try dsimp only); (repeat' split) <;> first | rfl | simp)
@[simp] theorem State.healAll_tierSize (p : Nat → Bool) : (s.healAll p).tierSize = s.tierSize := by
  first | rfl | (unfold State.healAll; (try dsimp only); (repeat' split) <;> first | rfl | simp)
@[simp] theorem State.healAll_powerUw (p : Nat → Bool) : (s.healAll p).powerUw = s.powerUw := by
  first | rfl | (unfold State.healAll; (try dsimp only); (repeat' split) <;> first | rfl | simp)
@[simp] theorem State.healAll_rails (p : Nat → Bool) : (s.healAll p).rails = s.rails := by
  first | rfl | (unfold State.healAll; (try dsimp only); (repeat' split) <;> first | rfl | simp)
@[simp] theorem State.healAll_avsFails (p : Nat → Bool) : (s.healAll p).avsFails = s.avsFails := by
  first | rfl | (unfold State.healAll; (try dsimp only); (repeat' split) <;> first | rfl | simp)
@[simp] theorem State.healAll_fresh (p : Nat → Bool) : (s.healAll p).fresh = s.fresh := by
  first | rfl | (unfold State.healAll; (try dsimp only); (repeat' split) <;> first | rfl | simp)
@[simp] theorem State.healAll_pending (p : Nat → Bool) : (s.healAll p).pending = s.pending := by
  first | rfl | (unfold State.healAll; (try dsimp only); (repeat' split) <;> first | rfl | simp)

/-! ### heal -/

@[simp] theorem State.heal_rf (g n : Nat) : (s.heal g n).rf = s.rf := by
  first | rfl | (unfold State.heal; (try dsimp only); (repeat' split) <;> first | rfl | simp)
@[simp] theorem State.heal_eff (g n : Nat) : (s.heal g n).eff = s.eff := by
  first | rfl | (unfold State.heal; (try dsimp only); (repeat' split) <;> first | rfl | simp)
@[simp] theorem State.heal_mem (g n : Nat) : (s.heal g n).mem = s.mem := by
  first | rfl | (unfold State.heal; (try dsimp only); (repeat' split) <;> first | rfl | simp)
@[simp] theorem State.heal_symErr (g n : Nat) : (s.heal g n).symErr = s.symErr := by
  first | rfl | (unfold State.heal; (try dsimp only); (repeat' split) <;> first | rfl | simp)
@[simp] theorem State.heal_host (g n : Nat) : (s.heal g n).host = s.host := by
  first | rfl | (unfold State.heal; (try dsimp only); (repeat' split) <;> first | rfl | simp)
@[simp] theorem State.heal_fuses (g n : Nat) : (s.heal g n).fuses = s.fuses := by
  first | rfl | (unfold State.heal; (try dsimp only); (repeat' split) <;> first | rfl | simp)
@[simp] theorem State.heal_nvm (g n : Nat) : (s.heal g n).nvm = s.nvm := by
  first | rfl | (unfold State.heal; (try dsimp only); (repeat' split) <;> first | rfl | simp)
@[simp] theorem State.heal_recorder (g n : Nat) : (s.heal g n).recorder = s.recorder := by
  first | rfl | (unfold State.heal; (try dsimp only); (repeat' split) <;> first | rfl | simp)
@[simp] theorem State.heal_job (g n : Nat) : (s.heal g n).job = s.job := by
  first | rfl | (unfold State.heal; (try dsimp only); (repeat' split) <;> first | rfl | simp)
@[simp] theorem State.heal_hif (g n : Nat) : (s.heal g n).hif = s.hif := by
  first | rfl | (unfold State.heal; (try dsimp only); (repeat' split) <;> first | rfl | simp)
@[simp] theorem State.heal_gaths (g n : Nat) : (s.heal g n).gaths = s.gaths := by
  first | rfl | (unfold State.heal; (try dsimp only); (repeat' split) <;> first | rfl | simp)
@[simp] theorem State.heal_queues (g n : Nat) : (s.heal g n).queues = s.queues := by
  first | rfl | (unfold State.heal; (try dsimp only); (repeat' split) <;> first | rfl | simp)
@[simp] theorem State.heal_yarders (g n : Nat) : (s.heal g n).yarders = s.yarders := by
  first | rfl | (unfold State.heal; (try dsimp only); (repeat' split) <;> first | rfl | simp)
@[simp] theorem State.heal_colls (g n : Nat) : (s.heal g n).colls = s.colls := by
  first | rfl | (unfold State.heal; (try dsimp only); (repeat' split) <;> first | rfl | simp)
@[simp] theorem State.heal_dies (g n : Nat) : (s.heal g n).dies = s.dies := by
  first | rfl | (unfold State.heal; (try dsimp only); (repeat' split) <;> first | rfl | simp)
@[simp] theorem State.heal_signals (g n : Nat) : (s.heal g n).signals = s.signals := by
  first | rfl | (unfold State.heal; (try dsimp only); (repeat' split) <;> first | rfl | simp)
@[simp] theorem State.heal_mtok (g n : Nat) : (s.heal g n).mtok = s.mtok := by
  first | rfl | (unfold State.heal; (try dsimp only); (repeat' split) <;> first | rfl | simp)
@[simp] theorem State.heal_mOvf (g n : Nat) : (s.heal g n).mOvf = s.mOvf := by
  first | rfl | (unfold State.heal; (try dsimp only); (repeat' split) <;> first | rfl | simp)
@[simp] theorem State.heal_tor (g n : Nat) : (s.heal g n).tor = s.tor := by
  first | rfl | (unfold State.heal; (try dsimp only); (repeat' split) <;> first | rfl | simp)
@[simp] theorem State.heal_irl (g n : Nat) : (s.heal g n).irl = s.irl := by
  first | rfl | (unfold State.heal; (try dsimp only); (repeat' split) <;> first | rfl | simp)
@[simp] theorem State.heal_mons (g n : Nat) : (s.heal g n).mons = s.mons := by
  first | rfl | (unfold State.heal; (try dsimp only); (repeat' split) <;> first | rfl | simp)
@[simp] theorem State.heal_monEnds (g n : Nat) : (s.heal g n).monEnds = s.monEnds := by
  first | rfl | (unfold State.heal; (try dsimp only); (repeat' split) <;> first | rfl | simp)
@[simp] theorem State.heal_waits (g n : Nat) : (s.heal g n).waits = s.waits := by
  first | rfl | (unfold State.heal; (try dsimp only); (repeat' split) <;> first | rfl | simp)
@[simp] theorem State.heal_now (g n : Nat) : (s.heal g n).now = s.now := by
  first | rfl | (unfold State.heal; (try dsimp only); (repeat' split) <;> first | rfl | simp)
@[simp] theorem State.heal_perst (g n : Nat) : (s.heal g n).perst = s.perst := by
  first | rfl | (unfold State.heal; (try dsimp only); (repeat' split) <;> first | rfl | simp)
@[simp] theorem State.heal_slot (g n : Nat) : (s.heal g n).slot = s.slot := by
  first | rfl | (unfold State.heal; (try dsimp only); (repeat' split) <;> first | rfl | simp)
@[simp] theorem State.heal_badRamp (g n : Nat) : (s.heal g n).badRamp = s.badRamp := by
  first | rfl | (unfold State.heal; (try dsimp only); (repeat' split) <;> first | rfl | simp)
@[simp] theorem State.heal_rampCure (g n : Nat) : (s.heal g n).rampCure = s.rampCure := by
  first | rfl | (unfold State.heal; (try dsimp only); (repeat' split) <;> first | rfl | simp)
@[simp] theorem State.heal_railUntil (g n : Nat) : (s.heal g n).railUntil = s.railUntil := by
  first | rfl | (unfold State.heal; (try dsimp only); (repeat' split) <;> first | rfl | simp)
@[simp] theorem State.heal_dead (g n : Nat) : (s.heal g n).dead = s.dead := by
  first | rfl | (unfold State.heal; (try dsimp only); (repeat' split) <;> first | rfl | simp)
@[simp] theorem State.heal_tripped (g n : Nat) : (s.heal g n).tripped = s.tripped := by
  first | rfl | (unfold State.heal; (try dsimp only); (repeat' split) <;> first | rfl | simp)
@[simp] theorem State.heal_thermTripN (g n : Nat) : (s.heal g n).thermTripN = s.thermTripN := by
  first | rfl | (unfold State.heal; (try dsimp only); (repeat' split) <;> first | rfl | simp)
@[simp] theorem State.heal_refclkLost (g n : Nat) : (s.heal g n).refclkLost = s.refclkLost := by
  first | rfl | (unfold State.heal; (try dsimp only); (repeat' split) <;> first | rfl | simp)
@[simp] theorem State.heal_lpLost (g n : Nat) : (s.heal g n).lpLost = s.lpLost := by
  first | rfl | (unfold State.heal; (try dsimp only); (repeat' split) <;> first | rfl | simp)
@[simp] theorem State.heal_image (g n : Nat) : (s.heal g n).image = s.image := by
  first | rfl | (unfold State.heal; (try dsimp only); (repeat' split) <;> first | rfl | simp)
@[simp] theorem State.heal_imageSvn (g n : Nat) : (s.heal g n).imageSvn = s.imageSvn := by
  first | rfl | (unfold State.heal; (try dsimp only); (repeat' split) <;> first | rfl | simp)
@[simp] theorem State.heal_imageDigest (g n : Nat) : (s.heal g n).imageDigest = s.imageDigest := by
  first | rfl | (unfold State.heal; (try dsimp only); (repeat' split) <;> first | rfl | simp)
@[simp] theorem State.heal_idKey (g n : Nat) : (s.heal g n).idKey = s.idKey := by
  first | rfl | (unfold State.heal; (try dsimp only); (repeat' split) <;> first | rfl | simp)
@[simp] theorem State.heal_attest (g n : Nat) : (s.heal g n).attest = s.attest := by
  first | rfl | (unfold State.heal; (try dsimp only); (repeat' split) <;> first | rfl | simp)
@[simp] theorem State.heal_bundle (g n : Nat) : (s.heal g n).bundle = s.bundle := by
  first | rfl | (unfold State.heal; (try dsimp only); (repeat' split) <;> first | rfl | simp)
@[simp] theorem State.heal_bundleCopy (g n : Nat) : (s.heal g n).bundleCopy = s.bundleCopy := by
  first | rfl | (unfold State.heal; (try dsimp only); (repeat' split) <;> first | rfl | simp)
@[simp] theorem State.heal_nonce (g n : Nat) : (s.heal g n).nonce = s.nonce := by
  first | rfl | (unfold State.heal; (try dsimp only); (repeat' split) <;> first | rfl | simp)
@[simp] theorem State.heal_tierSize (g n : Nat) : (s.heal g n).tierSize = s.tierSize := by
  first | rfl | (unfold State.heal; (try dsimp only); (repeat' split) <;> first | rfl | simp)
@[simp] theorem State.heal_powerUw (g n : Nat) : (s.heal g n).powerUw = s.powerUw := by
  first | rfl | (unfold State.heal; (try dsimp only); (repeat' split) <;> first | rfl | simp)
@[simp] theorem State.heal_rails (g n : Nat) : (s.heal g n).rails = s.rails := by
  first | rfl | (unfold State.heal; (try dsimp only); (repeat' split) <;> first | rfl | simp)
@[simp] theorem State.heal_avsFails (g n : Nat) : (s.heal g n).avsFails = s.avsFails := by
  first | rfl | (unfold State.heal; (try dsimp only); (repeat' split) <;> first | rfl | simp)
@[simp] theorem State.heal_fresh (g n : Nat) : (s.heal g n).fresh = s.fresh := by
  first | rfl | (unfold State.heal; (try dsimp only); (repeat' split) <;> first | rfl | simp)
@[simp] theorem State.heal_pending (g n : Nat) : (s.heal g n).pending = s.pending := by
  first | rfl | (unfold State.heal; (try dsimp only); (repeat' split) <;> first | rfl | simp)

/-! ### rewritten -/

@[simp] theorem State.rewritten_rf (a n : Nat) : (s.rewritten a n).rf = s.rf := by
  first | rfl | (unfold State.rewritten; (try dsimp only); (repeat' split) <;> first | rfl | simp)
@[simp] theorem State.rewritten_eff (a n : Nat) : (s.rewritten a n).eff = s.eff := by
  first | rfl | (unfold State.rewritten; (try dsimp only); (repeat' split) <;> first | rfl | simp)
@[simp] theorem State.rewritten_mem (a n : Nat) : (s.rewritten a n).mem = s.mem := by
  first | rfl | (unfold State.rewritten; (try dsimp only); (repeat' split) <;> first | rfl | simp)
@[simp] theorem State.rewritten_poison (a n : Nat) : (s.rewritten a n).poison = s.poison := by
  first | rfl | (unfold State.rewritten; (try dsimp only); (repeat' split) <;> first | rfl | simp)
@[simp] theorem State.rewritten_okWords (a n : Nat) : (s.rewritten a n).okWords = s.okWords := by
  first | rfl | (unfold State.rewritten; (try dsimp only); (repeat' split) <;> first | rfl | simp)
@[simp] theorem State.rewritten_host (a n : Nat) : (s.rewritten a n).host = s.host := by
  first | rfl | (unfold State.rewritten; (try dsimp only); (repeat' split) <;> first | rfl | simp)
@[simp] theorem State.rewritten_fuses (a n : Nat) : (s.rewritten a n).fuses = s.fuses := by
  first | rfl | (unfold State.rewritten; (try dsimp only); (repeat' split) <;> first | rfl | simp)
@[simp] theorem State.rewritten_nvm (a n : Nat) : (s.rewritten a n).nvm = s.nvm := by
  first | rfl | (unfold State.rewritten; (try dsimp only); (repeat' split) <;> first | rfl | simp)
@[simp] theorem State.rewritten_recorder (a n : Nat) : (s.rewritten a n).recorder = s.recorder := by
  first | rfl | (unfold State.rewritten; (try dsimp only); (repeat' split) <;> first | rfl | simp)
@[simp] theorem State.rewritten_job (a n : Nat) : (s.rewritten a n).job = s.job := by
  first | rfl | (unfold State.rewritten; (try dsimp only); (repeat' split) <;> first | rfl | simp)
@[simp] theorem State.rewritten_hif (a n : Nat) : (s.rewritten a n).hif = s.hif := by
  first | rfl | (unfold State.rewritten; (try dsimp only); (repeat' split) <;> first | rfl | simp)
@[simp] theorem State.rewritten_gaths (a n : Nat) : (s.rewritten a n).gaths = s.gaths := by
  first | rfl | (unfold State.rewritten; (try dsimp only); (repeat' split) <;> first | rfl | simp)
@[simp] theorem State.rewritten_queues (a n : Nat) : (s.rewritten a n).queues = s.queues := by
  first | rfl | (unfold State.rewritten; (try dsimp only); (repeat' split) <;> first | rfl | simp)
@[simp] theorem State.rewritten_yarders (a n : Nat) : (s.rewritten a n).yarders = s.yarders := by
  first | rfl | (unfold State.rewritten; (try dsimp only); (repeat' split) <;> first | rfl | simp)
@[simp] theorem State.rewritten_colls (a n : Nat) : (s.rewritten a n).colls = s.colls := by
  first | rfl | (unfold State.rewritten; (try dsimp only); (repeat' split) <;> first | rfl | simp)
@[simp] theorem State.rewritten_dies (a n : Nat) : (s.rewritten a n).dies = s.dies := by
  first | rfl | (unfold State.rewritten; (try dsimp only); (repeat' split) <;> first | rfl | simp)
@[simp] theorem State.rewritten_signals (a n : Nat) : (s.rewritten a n).signals = s.signals := by
  first | rfl | (unfold State.rewritten; (try dsimp only); (repeat' split) <;> first | rfl | simp)
@[simp] theorem State.rewritten_mtok (a n : Nat) : (s.rewritten a n).mtok = s.mtok := by
  first | rfl | (unfold State.rewritten; (try dsimp only); (repeat' split) <;> first | rfl | simp)
@[simp] theorem State.rewritten_mOvf (a n : Nat) : (s.rewritten a n).mOvf = s.mOvf := by
  first | rfl | (unfold State.rewritten; (try dsimp only); (repeat' split) <;> first | rfl | simp)
@[simp] theorem State.rewritten_tor (a n : Nat) : (s.rewritten a n).tor = s.tor := by
  first | rfl | (unfold State.rewritten; (try dsimp only); (repeat' split) <;> first | rfl | simp)
@[simp] theorem State.rewritten_irl (a n : Nat) : (s.rewritten a n).irl = s.irl := by
  first | rfl | (unfold State.rewritten; (try dsimp only); (repeat' split) <;> first | rfl | simp)
@[simp] theorem State.rewritten_mons (a n : Nat) : (s.rewritten a n).mons = s.mons := by
  first | rfl | (unfold State.rewritten; (try dsimp only); (repeat' split) <;> first | rfl | simp)
@[simp] theorem State.rewritten_monEnds (a n : Nat) : (s.rewritten a n).monEnds = s.monEnds := by
  first | rfl | (unfold State.rewritten; (try dsimp only); (repeat' split) <;> first | rfl | simp)
@[simp] theorem State.rewritten_waits (a n : Nat) : (s.rewritten a n).waits = s.waits := by
  first | rfl | (unfold State.rewritten; (try dsimp only); (repeat' split) <;> first | rfl | simp)
@[simp] theorem State.rewritten_now (a n : Nat) : (s.rewritten a n).now = s.now := by
  first | rfl | (unfold State.rewritten; (try dsimp only); (repeat' split) <;> first | rfl | simp)
@[simp] theorem State.rewritten_perst (a n : Nat) : (s.rewritten a n).perst = s.perst := by
  first | rfl | (unfold State.rewritten; (try dsimp only); (repeat' split) <;> first | rfl | simp)
@[simp] theorem State.rewritten_slot (a n : Nat) : (s.rewritten a n).slot = s.slot := by
  first | rfl | (unfold State.rewritten; (try dsimp only); (repeat' split) <;> first | rfl | simp)
@[simp] theorem State.rewritten_badRamp (a n : Nat) : (s.rewritten a n).badRamp = s.badRamp := by
  first | rfl | (unfold State.rewritten; (try dsimp only); (repeat' split) <;> first | rfl | simp)
@[simp] theorem State.rewritten_rampCure (a n : Nat) : (s.rewritten a n).rampCure = s.rampCure := by
  first | rfl | (unfold State.rewritten; (try dsimp only); (repeat' split) <;> first | rfl | simp)
@[simp] theorem State.rewritten_railUntil (a n : Nat) : (s.rewritten a n).railUntil = s.railUntil := by
  first | rfl | (unfold State.rewritten; (try dsimp only); (repeat' split) <;> first | rfl | simp)
@[simp] theorem State.rewritten_dead (a n : Nat) : (s.rewritten a n).dead = s.dead := by
  first | rfl | (unfold State.rewritten; (try dsimp only); (repeat' split) <;> first | rfl | simp)
@[simp] theorem State.rewritten_tripped (a n : Nat) : (s.rewritten a n).tripped = s.tripped := by
  first | rfl | (unfold State.rewritten; (try dsimp only); (repeat' split) <;> first | rfl | simp)
@[simp] theorem State.rewritten_thermTripN (a n : Nat) : (s.rewritten a n).thermTripN = s.thermTripN := by
  first | rfl | (unfold State.rewritten; (try dsimp only); (repeat' split) <;> first | rfl | simp)
@[simp] theorem State.rewritten_refclkLost (a n : Nat) : (s.rewritten a n).refclkLost = s.refclkLost := by
  first | rfl | (unfold State.rewritten; (try dsimp only); (repeat' split) <;> first | rfl | simp)
@[simp] theorem State.rewritten_lpLost (a n : Nat) : (s.rewritten a n).lpLost = s.lpLost := by
  first | rfl | (unfold State.rewritten; (try dsimp only); (repeat' split) <;> first | rfl | simp)
@[simp] theorem State.rewritten_image (a n : Nat) : (s.rewritten a n).image = s.image := by
  first | rfl | (unfold State.rewritten; (try dsimp only); (repeat' split) <;> first | rfl | simp)
@[simp] theorem State.rewritten_imageSvn (a n : Nat) : (s.rewritten a n).imageSvn = s.imageSvn := by
  first | rfl | (unfold State.rewritten; (try dsimp only); (repeat' split) <;> first | rfl | simp)
@[simp] theorem State.rewritten_imageDigest (a n : Nat) : (s.rewritten a n).imageDigest = s.imageDigest := by
  first | rfl | (unfold State.rewritten; (try dsimp only); (repeat' split) <;> first | rfl | simp)
@[simp] theorem State.rewritten_idKey (a n : Nat) : (s.rewritten a n).idKey = s.idKey := by
  first | rfl | (unfold State.rewritten; (try dsimp only); (repeat' split) <;> first | rfl | simp)
@[simp] theorem State.rewritten_attest (a n : Nat) : (s.rewritten a n).attest = s.attest := by
  first | rfl | (unfold State.rewritten; (try dsimp only); (repeat' split) <;> first | rfl | simp)
@[simp] theorem State.rewritten_bundle (a n : Nat) : (s.rewritten a n).bundle = s.bundle := by
  first | rfl | (unfold State.rewritten; (try dsimp only); (repeat' split) <;> first | rfl | simp)
@[simp] theorem State.rewritten_bundleCopy (a n : Nat) : (s.rewritten a n).bundleCopy = s.bundleCopy := by
  first | rfl | (unfold State.rewritten; (try dsimp only); (repeat' split) <;> first | rfl | simp)
@[simp] theorem State.rewritten_nonce (a n : Nat) : (s.rewritten a n).nonce = s.nonce := by
  first | rfl | (unfold State.rewritten; (try dsimp only); (repeat' split) <;> first | rfl | simp)
@[simp] theorem State.rewritten_tierSize (a n : Nat) : (s.rewritten a n).tierSize = s.tierSize := by
  first | rfl | (unfold State.rewritten; (try dsimp only); (repeat' split) <;> first | rfl | simp)
@[simp] theorem State.rewritten_powerUw (a n : Nat) : (s.rewritten a n).powerUw = s.powerUw := by
  first | rfl | (unfold State.rewritten; (try dsimp only); (repeat' split) <;> first | rfl | simp)
@[simp] theorem State.rewritten_rails (a n : Nat) : (s.rewritten a n).rails = s.rails := by
  first | rfl | (unfold State.rewritten; (try dsimp only); (repeat' split) <;> first | rfl | simp)
@[simp] theorem State.rewritten_avsFails (a n : Nat) : (s.rewritten a n).avsFails = s.avsFails := by
  first | rfl | (unfold State.rewritten; (try dsimp only); (repeat' split) <;> first | rfl | simp)
@[simp] theorem State.rewritten_fresh (a n : Nat) : (s.rewritten a n).fresh = s.fresh := by
  first | rfl | (unfold State.rewritten; (try dsimp only); (repeat' split) <;> first | rfl | simp)
@[simp] theorem State.rewritten_pending (a n : Nat) : (s.rewritten a n).pending = s.pending := by
  first | rfl | (unfold State.rewritten; (try dsimp only); (repeat' split) <;> first | rfl | simp)

/-! ### invalidate -/

@[simp] theorem State.invalidate_rf (a n : Nat) : (s.invalidate a n).rf = s.rf := by
  first | rfl | (unfold State.invalidate; (try dsimp only); (repeat' split) <;> first | rfl | simp)
@[simp] theorem State.invalidate_eff (a n : Nat) : (s.invalidate a n).eff = s.eff := by
  first | rfl | (unfold State.invalidate; (try dsimp only); (repeat' split) <;> first | rfl | simp)
@[simp] theorem State.invalidate_mem (a n : Nat) : (s.invalidate a n).mem = s.mem := by
  first | rfl | (unfold State.invalidate; (try dsimp only); (repeat' split) <;> first | rfl | simp)
@[simp] theorem State.invalidate_poison (a n : Nat) : (s.invalidate a n).poison = s.poison := by
  first | rfl | (unfold State.invalidate; (try dsimp only); (repeat' split) <;> first | rfl | simp)
@[simp] theorem State.invalidate_okWords (a n : Nat) : (s.invalidate a n).okWords = s.okWords := by
  first | rfl | (unfold State.invalidate; (try dsimp only); (repeat' split) <;> first | rfl | simp)
@[simp] theorem State.invalidate_host (a n : Nat) : (s.invalidate a n).host = s.host := by
  first | rfl | (unfold State.invalidate; (try dsimp only); (repeat' split) <;> first | rfl | simp)
@[simp] theorem State.invalidate_fuses (a n : Nat) : (s.invalidate a n).fuses = s.fuses := by
  first | rfl | (unfold State.invalidate; (try dsimp only); (repeat' split) <;> first | rfl | simp)
@[simp] theorem State.invalidate_nvm (a n : Nat) : (s.invalidate a n).nvm = s.nvm := by
  first | rfl | (unfold State.invalidate; (try dsimp only); (repeat' split) <;> first | rfl | simp)
@[simp] theorem State.invalidate_recorder (a n : Nat) : (s.invalidate a n).recorder = s.recorder := by
  first | rfl | (unfold State.invalidate; (try dsimp only); (repeat' split) <;> first | rfl | simp)
@[simp] theorem State.invalidate_job (a n : Nat) : (s.invalidate a n).job = s.job := by
  first | rfl | (unfold State.invalidate; (try dsimp only); (repeat' split) <;> first | rfl | simp)
@[simp] theorem State.invalidate_hif (a n : Nat) : (s.invalidate a n).hif = s.hif := by
  first | rfl | (unfold State.invalidate; (try dsimp only); (repeat' split) <;> first | rfl | simp)
@[simp] theorem State.invalidate_gaths (a n : Nat) : (s.invalidate a n).gaths = s.gaths := by
  first | rfl | (unfold State.invalidate; (try dsimp only); (repeat' split) <;> first | rfl | simp)
@[simp] theorem State.invalidate_queues (a n : Nat) : (s.invalidate a n).queues = s.queues := by
  first | rfl | (unfold State.invalidate; (try dsimp only); (repeat' split) <;> first | rfl | simp)
@[simp] theorem State.invalidate_yarders (a n : Nat) : (s.invalidate a n).yarders = s.yarders := by
  first | rfl | (unfold State.invalidate; (try dsimp only); (repeat' split) <;> first | rfl | simp)
@[simp] theorem State.invalidate_colls (a n : Nat) : (s.invalidate a n).colls = s.colls := by
  first | rfl | (unfold State.invalidate; (try dsimp only); (repeat' split) <;> first | rfl | simp)
@[simp] theorem State.invalidate_signals (a n : Nat) : (s.invalidate a n).signals = s.signals := by
  first | rfl | (unfold State.invalidate; (try dsimp only); (repeat' split) <;> first | rfl | simp)
@[simp] theorem State.invalidate_mtok (a n : Nat) : (s.invalidate a n).mtok = s.mtok := by
  first | rfl | (unfold State.invalidate; (try dsimp only); (repeat' split) <;> first | rfl | simp)
@[simp] theorem State.invalidate_mOvf (a n : Nat) : (s.invalidate a n).mOvf = s.mOvf := by
  first | rfl | (unfold State.invalidate; (try dsimp only); (repeat' split) <;> first | rfl | simp)
@[simp] theorem State.invalidate_tor (a n : Nat) : (s.invalidate a n).tor = s.tor := by
  first | rfl | (unfold State.invalidate; (try dsimp only); (repeat' split) <;> first | rfl | simp)
@[simp] theorem State.invalidate_irl (a n : Nat) : (s.invalidate a n).irl = s.irl := by
  first | rfl | (unfold State.invalidate; (try dsimp only); (repeat' split) <;> first | rfl | simp)
@[simp] theorem State.invalidate_mons (a n : Nat) : (s.invalidate a n).mons = s.mons := by
  first | rfl | (unfold State.invalidate; (try dsimp only); (repeat' split) <;> first | rfl | simp)
@[simp] theorem State.invalidate_monEnds (a n : Nat) : (s.invalidate a n).monEnds = s.monEnds := by
  first | rfl | (unfold State.invalidate; (try dsimp only); (repeat' split) <;> first | rfl | simp)
@[simp] theorem State.invalidate_waits (a n : Nat) : (s.invalidate a n).waits = s.waits := by
  first | rfl | (unfold State.invalidate; (try dsimp only); (repeat' split) <;> first | rfl | simp)
@[simp] theorem State.invalidate_now (a n : Nat) : (s.invalidate a n).now = s.now := by
  first | rfl | (unfold State.invalidate; (try dsimp only); (repeat' split) <;> first | rfl | simp)
@[simp] theorem State.invalidate_perst (a n : Nat) : (s.invalidate a n).perst = s.perst := by
  first | rfl | (unfold State.invalidate; (try dsimp only); (repeat' split) <;> first | rfl | simp)
@[simp] theorem State.invalidate_slot (a n : Nat) : (s.invalidate a n).slot = s.slot := by
  first | rfl | (unfold State.invalidate; (try dsimp only); (repeat' split) <;> first | rfl | simp)
@[simp] theorem State.invalidate_badRamp (a n : Nat) : (s.invalidate a n).badRamp = s.badRamp := by
  first | rfl | (unfold State.invalidate; (try dsimp only); (repeat' split) <;> first | rfl | simp)
@[simp] theorem State.invalidate_rampCure (a n : Nat) : (s.invalidate a n).rampCure = s.rampCure := by
  first | rfl | (unfold State.invalidate; (try dsimp only); (repeat' split) <;> first | rfl | simp)
@[simp] theorem State.invalidate_railUntil (a n : Nat) : (s.invalidate a n).railUntil = s.railUntil := by
  first | rfl | (unfold State.invalidate; (try dsimp only); (repeat' split) <;> first | rfl | simp)
@[simp] theorem State.invalidate_dead (a n : Nat) : (s.invalidate a n).dead = s.dead := by
  first | rfl | (unfold State.invalidate; (try dsimp only); (repeat' split) <;> first | rfl | simp)
@[simp] theorem State.invalidate_tripped (a n : Nat) : (s.invalidate a n).tripped = s.tripped := by
  first | rfl | (unfold State.invalidate; (try dsimp only); (repeat' split) <;> first | rfl | simp)
@[simp] theorem State.invalidate_thermTripN (a n : Nat) : (s.invalidate a n).thermTripN = s.thermTripN := by
  first | rfl | (unfold State.invalidate; (try dsimp only); (repeat' split) <;> first | rfl | simp)
@[simp] theorem State.invalidate_refclkLost (a n : Nat) : (s.invalidate a n).refclkLost = s.refclkLost := by
  first | rfl | (unfold State.invalidate; (try dsimp only); (repeat' split) <;> first | rfl | simp)
@[simp] theorem State.invalidate_lpLost (a n : Nat) : (s.invalidate a n).lpLost = s.lpLost := by
  first | rfl | (unfold State.invalidate; (try dsimp only); (repeat' split) <;> first | rfl | simp)
@[simp] theorem State.invalidate_image (a n : Nat) : (s.invalidate a n).image = s.image := by
  first | rfl | (unfold State.invalidate; (try dsimp only); (repeat' split) <;> first | rfl | simp)
@[simp] theorem State.invalidate_imageSvn (a n : Nat) : (s.invalidate a n).imageSvn = s.imageSvn := by
  first | rfl | (unfold State.invalidate; (try dsimp only); (repeat' split) <;> first | rfl | simp)
@[simp] theorem State.invalidate_imageDigest (a n : Nat) : (s.invalidate a n).imageDigest = s.imageDigest := by
  first | rfl | (unfold State.invalidate; (try dsimp only); (repeat' split) <;> first | rfl | simp)
@[simp] theorem State.invalidate_idKey (a n : Nat) : (s.invalidate a n).idKey = s.idKey := by
  first | rfl | (unfold State.invalidate; (try dsimp only); (repeat' split) <;> first | rfl | simp)
@[simp] theorem State.invalidate_attest (a n : Nat) : (s.invalidate a n).attest = s.attest := by
  first | rfl | (unfold State.invalidate; (try dsimp only); (repeat' split) <;> first | rfl | simp)
@[simp] theorem State.invalidate_bundle (a n : Nat) : (s.invalidate a n).bundle = s.bundle := by
  first | rfl | (unfold State.invalidate; (try dsimp only); (repeat' split) <;> first | rfl | simp)
@[simp] theorem State.invalidate_bundleCopy (a n : Nat) : (s.invalidate a n).bundleCopy = s.bundleCopy := by
  first | rfl | (unfold State.invalidate; (try dsimp only); (repeat' split) <;> first | rfl | simp)
@[simp] theorem State.invalidate_nonce (a n : Nat) : (s.invalidate a n).nonce = s.nonce := by
  first | rfl | (unfold State.invalidate; (try dsimp only); (repeat' split) <;> first | rfl | simp)
@[simp] theorem State.invalidate_tierSize (a n : Nat) : (s.invalidate a n).tierSize = s.tierSize := by
  first | rfl | (unfold State.invalidate; (try dsimp only); (repeat' split) <;> first | rfl | simp)
@[simp] theorem State.invalidate_powerUw (a n : Nat) : (s.invalidate a n).powerUw = s.powerUw := by
  first | rfl | (unfold State.invalidate; (try dsimp only); (repeat' split) <;> first | rfl | simp)
@[simp] theorem State.invalidate_rails (a n : Nat) : (s.invalidate a n).rails = s.rails := by
  first | rfl | (unfold State.invalidate; (try dsimp only); (repeat' split) <;> first | rfl | simp)
@[simp] theorem State.invalidate_avsFails (a n : Nat) : (s.invalidate a n).avsFails = s.avsFails := by
  first | rfl | (unfold State.invalidate; (try dsimp only); (repeat' split) <;> first | rfl | simp)
@[simp] theorem State.invalidate_fresh (a n : Nat) : (s.invalidate a n).fresh = s.fresh := by
  first | rfl | (unfold State.invalidate; (try dsimp only); (repeat' split) <;> first | rfl | simp)
@[simp] theorem State.invalidate_pending (a n : Nat) : (s.invalidate a n).pending = s.pending := by
  first | rfl | (unfold State.invalidate; (try dsimp only); (repeat' split) <;> first | rfl | simp)

/-! ### hwr -/

@[simp] theorem State.hwr_rf (a : Nat) (l : List Nat) : (s.hwr a l).rf = s.rf := by
  first | rfl | (unfold State.hwr; (try dsimp only); (repeat' split) <;> first | rfl | simp)
@[simp] theorem State.hwr_eff (a : Nat) (l : List Nat) : (s.hwr a l).eff = s.eff := by
  first | rfl | (unfold State.hwr; (try dsimp only); (repeat' split) <;> first | rfl | simp)
@[simp] theorem State.hwr_mem (a : Nat) (l : List Nat) : (s.hwr a l).mem = s.mem := by
  first | rfl | (unfold State.hwr; (try dsimp only); (repeat' split) <;> first | rfl | simp)
@[simp] theorem State.hwr_poison (a : Nat) (l : List Nat) : (s.hwr a l).poison = s.poison := by
  first | rfl | (unfold State.hwr; (try dsimp only); (repeat' split) <;> first | rfl | simp)
@[simp] theorem State.hwr_okWords (a : Nat) (l : List Nat) : (s.hwr a l).okWords = s.okWords := by
  first | rfl | (unfold State.hwr; (try dsimp only); (repeat' split) <;> first | rfl | simp)
@[simp] theorem State.hwr_symErr (a : Nat) (l : List Nat) : (s.hwr a l).symErr = s.symErr := by
  first | rfl | (unfold State.hwr; (try dsimp only); (repeat' split) <;> first | rfl | simp)
@[simp] theorem State.hwr_fuses (a : Nat) (l : List Nat) : (s.hwr a l).fuses = s.fuses := by
  first | rfl | (unfold State.hwr; (try dsimp only); (repeat' split) <;> first | rfl | simp)
@[simp] theorem State.hwr_nvm (a : Nat) (l : List Nat) : (s.hwr a l).nvm = s.nvm := by
  first | rfl | (unfold State.hwr; (try dsimp only); (repeat' split) <;> first | rfl | simp)
@[simp] theorem State.hwr_recorder (a : Nat) (l : List Nat) : (s.hwr a l).recorder = s.recorder := by
  first | rfl | (unfold State.hwr; (try dsimp only); (repeat' split) <;> first | rfl | simp)
@[simp] theorem State.hwr_job (a : Nat) (l : List Nat) : (s.hwr a l).job = s.job := by
  first | rfl | (unfold State.hwr; (try dsimp only); (repeat' split) <;> first | rfl | simp)
@[simp] theorem State.hwr_gaths (a : Nat) (l : List Nat) : (s.hwr a l).gaths = s.gaths := by
  first | rfl | (unfold State.hwr; (try dsimp only); (repeat' split) <;> first | rfl | simp)
@[simp] theorem State.hwr_queues (a : Nat) (l : List Nat) : (s.hwr a l).queues = s.queues := by
  first | rfl | (unfold State.hwr; (try dsimp only); (repeat' split) <;> first | rfl | simp)
@[simp] theorem State.hwr_yarders (a : Nat) (l : List Nat) : (s.hwr a l).yarders = s.yarders := by
  first | rfl | (unfold State.hwr; (try dsimp only); (repeat' split) <;> first | rfl | simp)
@[simp] theorem State.hwr_colls (a : Nat) (l : List Nat) : (s.hwr a l).colls = s.colls := by
  first | rfl | (unfold State.hwr; (try dsimp only); (repeat' split) <;> first | rfl | simp)
@[simp] theorem State.hwr_dies (a : Nat) (l : List Nat) : (s.hwr a l).dies = s.dies := by
  first | rfl | (unfold State.hwr; (try dsimp only); (repeat' split) <;> first | rfl | simp)
@[simp] theorem State.hwr_signals (a : Nat) (l : List Nat) : (s.hwr a l).signals = s.signals := by
  first | rfl | (unfold State.hwr; (try dsimp only); (repeat' split) <;> first | rfl | simp)
@[simp] theorem State.hwr_mtok (a : Nat) (l : List Nat) : (s.hwr a l).mtok = s.mtok := by
  first | rfl | (unfold State.hwr; (try dsimp only); (repeat' split) <;> first | rfl | simp)
@[simp] theorem State.hwr_mOvf (a : Nat) (l : List Nat) : (s.hwr a l).mOvf = s.mOvf := by
  first | rfl | (unfold State.hwr; (try dsimp only); (repeat' split) <;> first | rfl | simp)
@[simp] theorem State.hwr_tor (a : Nat) (l : List Nat) : (s.hwr a l).tor = s.tor := by
  first | rfl | (unfold State.hwr; (try dsimp only); (repeat' split) <;> first | rfl | simp)
@[simp] theorem State.hwr_irl (a : Nat) (l : List Nat) : (s.hwr a l).irl = s.irl := by
  first | rfl | (unfold State.hwr; (try dsimp only); (repeat' split) <;> first | rfl | simp)
@[simp] theorem State.hwr_mons (a : Nat) (l : List Nat) : (s.hwr a l).mons = s.mons := by
  first | rfl | (unfold State.hwr; (try dsimp only); (repeat' split) <;> first | rfl | simp)
@[simp] theorem State.hwr_monEnds (a : Nat) (l : List Nat) : (s.hwr a l).monEnds = s.monEnds := by
  first | rfl | (unfold State.hwr; (try dsimp only); (repeat' split) <;> first | rfl | simp)
@[simp] theorem State.hwr_waits (a : Nat) (l : List Nat) : (s.hwr a l).waits = s.waits := by
  first | rfl | (unfold State.hwr; (try dsimp only); (repeat' split) <;> first | rfl | simp)
@[simp] theorem State.hwr_now (a : Nat) (l : List Nat) : (s.hwr a l).now = s.now := by
  first | rfl | (unfold State.hwr; (try dsimp only); (repeat' split) <;> first | rfl | simp)
@[simp] theorem State.hwr_perst (a : Nat) (l : List Nat) : (s.hwr a l).perst = s.perst := by
  first | rfl | (unfold State.hwr; (try dsimp only); (repeat' split) <;> first | rfl | simp)
@[simp] theorem State.hwr_slot (a : Nat) (l : List Nat) : (s.hwr a l).slot = s.slot := by
  first | rfl | (unfold State.hwr; (try dsimp only); (repeat' split) <;> first | rfl | simp)
@[simp] theorem State.hwr_badRamp (a : Nat) (l : List Nat) : (s.hwr a l).badRamp = s.badRamp := by
  first | rfl | (unfold State.hwr; (try dsimp only); (repeat' split) <;> first | rfl | simp)
@[simp] theorem State.hwr_rampCure (a : Nat) (l : List Nat) : (s.hwr a l).rampCure = s.rampCure := by
  first | rfl | (unfold State.hwr; (try dsimp only); (repeat' split) <;> first | rfl | simp)
@[simp] theorem State.hwr_railUntil (a : Nat) (l : List Nat) : (s.hwr a l).railUntil = s.railUntil := by
  first | rfl | (unfold State.hwr; (try dsimp only); (repeat' split) <;> first | rfl | simp)
@[simp] theorem State.hwr_dead (a : Nat) (l : List Nat) : (s.hwr a l).dead = s.dead := by
  first | rfl | (unfold State.hwr; (try dsimp only); (repeat' split) <;> first | rfl | simp)
@[simp] theorem State.hwr_tripped (a : Nat) (l : List Nat) : (s.hwr a l).tripped = s.tripped := by
  first | rfl | (unfold State.hwr; (try dsimp only); (repeat' split) <;> first | rfl | simp)
@[simp] theorem State.hwr_thermTripN (a : Nat) (l : List Nat) : (s.hwr a l).thermTripN = s.thermTripN := by
  first | rfl | (unfold State.hwr; (try dsimp only); (repeat' split) <;> first | rfl | simp)
@[simp] theorem State.hwr_refclkLost (a : Nat) (l : List Nat) : (s.hwr a l).refclkLost = s.refclkLost := by
  first | rfl | (unfold State.hwr; (try dsimp only); (repeat' split) <;> first | rfl | simp)
@[simp] theorem State.hwr_lpLost (a : Nat) (l : List Nat) : (s.hwr a l).lpLost = s.lpLost := by
  first | rfl | (unfold State.hwr; (try dsimp only); (repeat' split) <;> first | rfl | simp)
@[simp] theorem State.hwr_image (a : Nat) (l : List Nat) : (s.hwr a l).image = s.image := by
  first | rfl | (unfold State.hwr; (try dsimp only); (repeat' split) <;> first | rfl | simp)
@[simp] theorem State.hwr_imageSvn (a : Nat) (l : List Nat) : (s.hwr a l).imageSvn = s.imageSvn := by
  first | rfl | (unfold State.hwr; (try dsimp only); (repeat' split) <;> first | rfl | simp)
@[simp] theorem State.hwr_imageDigest (a : Nat) (l : List Nat) : (s.hwr a l).imageDigest = s.imageDigest := by
  first | rfl | (unfold State.hwr; (try dsimp only); (repeat' split) <;> first | rfl | simp)
@[simp] theorem State.hwr_idKey (a : Nat) (l : List Nat) : (s.hwr a l).idKey = s.idKey := by
  first | rfl | (unfold State.hwr; (try dsimp only); (repeat' split) <;> first | rfl | simp)
@[simp] theorem State.hwr_attest (a : Nat) (l : List Nat) : (s.hwr a l).attest = s.attest := by
  first | rfl | (unfold State.hwr; (try dsimp only); (repeat' split) <;> first | rfl | simp)
@[simp] theorem State.hwr_bundle (a : Nat) (l : List Nat) : (s.hwr a l).bundle = s.bundle := by
  first | rfl | (unfold State.hwr; (try dsimp only); (repeat' split) <;> first | rfl | simp)
@[simp] theorem State.hwr_bundleCopy (a : Nat) (l : List Nat) : (s.hwr a l).bundleCopy = s.bundleCopy := by
  first | rfl | (unfold State.hwr; (try dsimp only); (repeat' split) <;> first | rfl | simp)
@[simp] theorem State.hwr_nonce (a : Nat) (l : List Nat) : (s.hwr a l).nonce = s.nonce := by
  first | rfl | (unfold State.hwr; (try dsimp only); (repeat' split) <;> first | rfl | simp)
@[simp] theorem State.hwr_tierSize (a : Nat) (l : List Nat) : (s.hwr a l).tierSize = s.tierSize := by
  first | rfl | (unfold State.hwr; (try dsimp only); (repeat' split) <;> first | rfl | simp)
@[simp] theorem State.hwr_powerUw (a : Nat) (l : List Nat) : (s.hwr a l).powerUw = s.powerUw := by
  first | rfl | (unfold State.hwr; (try dsimp only); (repeat' split) <;> first | rfl | simp)
@[simp] theorem State.hwr_rails (a : Nat) (l : List Nat) : (s.hwr a l).rails = s.rails := by
  first | rfl | (unfold State.hwr; (try dsimp only); (repeat' split) <;> first | rfl | simp)
@[simp] theorem State.hwr_avsFails (a : Nat) (l : List Nat) : (s.hwr a l).avsFails = s.avsFails := by
  first | rfl | (unfold State.hwr; (try dsimp only); (repeat' split) <;> first | rfl | simp)
@[simp] theorem State.hwr_fresh (a : Nat) (l : List Nat) : (s.hwr a l).fresh = s.fresh := by
  first | rfl | (unfold State.hwr; (try dsimp only); (repeat' split) <;> first | rfl | simp)
@[simp] theorem State.hwr_pending (a : Nat) (l : List Nat) : (s.hwr a l).pending = s.pending := by
  first | rfl | (unfold State.hwr; (try dsimp only); (repeat' split) <;> first | rfl | simp)

/-! ### stampHeads -/

@[simp] theorem State.stampHeads_rf  : (s.stampHeads).rf = s.rf := by
  first | rfl | (unfold State.stampHeads; (try dsimp only); (repeat' split) <;> first | rfl | simp)
@[simp] theorem State.stampHeads_eff  : (s.stampHeads).eff = s.eff := by
  first | rfl | (unfold State.stampHeads; (try dsimp only); (repeat' split) <;> first | rfl | simp)
@[simp] theorem State.stampHeads_mem  : (s.stampHeads).mem = s.mem := by
  first | rfl | (unfold State.stampHeads; (try dsimp only); (repeat' split) <;> first | rfl | simp)
@[simp] theorem State.stampHeads_poison  : (s.stampHeads).poison = s.poison := by
  first | rfl | (unfold State.stampHeads; (try dsimp only); (repeat' split) <;> first | rfl | simp)
@[simp] theorem State.stampHeads_okWords  : (s.stampHeads).okWords = s.okWords := by
  first | rfl | (unfold State.stampHeads; (try dsimp only); (repeat' split) <;> first | rfl | simp)
@[simp] theorem State.stampHeads_symErr  : (s.stampHeads).symErr = s.symErr := by
  first | rfl | (unfold State.stampHeads; (try dsimp only); (repeat' split) <;> first | rfl | simp)
@[simp] theorem State.stampHeads_host  : (s.stampHeads).host = s.host := by
  first | rfl | (unfold State.stampHeads; (try dsimp only); (repeat' split) <;> first | rfl | simp)
@[simp] theorem State.stampHeads_fuses  : (s.stampHeads).fuses = s.fuses := by
  first | rfl | (unfold State.stampHeads; (try dsimp only); (repeat' split) <;> first | rfl | simp)
@[simp] theorem State.stampHeads_nvm  : (s.stampHeads).nvm = s.nvm := by
  first | rfl | (unfold State.stampHeads; (try dsimp only); (repeat' split) <;> first | rfl | simp)
@[simp] theorem State.stampHeads_recorder  : (s.stampHeads).recorder = s.recorder := by
  first | rfl | (unfold State.stampHeads; (try dsimp only); (repeat' split) <;> first | rfl | simp)
@[simp] theorem State.stampHeads_job  : (s.stampHeads).job = s.job := by
  first | rfl | (unfold State.stampHeads; (try dsimp only); (repeat' split) <;> first | rfl | simp)
@[simp] theorem State.stampHeads_hif  : (s.stampHeads).hif = s.hif := by
  first | rfl | (unfold State.stampHeads; (try dsimp only); (repeat' split) <;> first | rfl | simp)
@[simp] theorem State.stampHeads_gaths  : (s.stampHeads).gaths = s.gaths := by
  first | rfl | (unfold State.stampHeads; (try dsimp only); (repeat' split) <;> first | rfl | simp)
@[simp] theorem State.stampHeads_yarders  : (s.stampHeads).yarders = s.yarders := by
  first | rfl | (unfold State.stampHeads; (try dsimp only); (repeat' split) <;> first | rfl | simp)
@[simp] theorem State.stampHeads_colls  : (s.stampHeads).colls = s.colls := by
  first | rfl | (unfold State.stampHeads; (try dsimp only); (repeat' split) <;> first | rfl | simp)
@[simp] theorem State.stampHeads_dies  : (s.stampHeads).dies = s.dies := by
  first | rfl | (unfold State.stampHeads; (try dsimp only); (repeat' split) <;> first | rfl | simp)
@[simp] theorem State.stampHeads_signals  : (s.stampHeads).signals = s.signals := by
  first | rfl | (unfold State.stampHeads; (try dsimp only); (repeat' split) <;> first | rfl | simp)
@[simp] theorem State.stampHeads_mtok  : (s.stampHeads).mtok = s.mtok := by
  first | rfl | (unfold State.stampHeads; (try dsimp only); (repeat' split) <;> first | rfl | simp)
@[simp] theorem State.stampHeads_mOvf  : (s.stampHeads).mOvf = s.mOvf := by
  first | rfl | (unfold State.stampHeads; (try dsimp only); (repeat' split) <;> first | rfl | simp)
@[simp] theorem State.stampHeads_tor  : (s.stampHeads).tor = s.tor := by
  first | rfl | (unfold State.stampHeads; (try dsimp only); (repeat' split) <;> first | rfl | simp)
@[simp] theorem State.stampHeads_irl  : (s.stampHeads).irl = s.irl := by
  first | rfl | (unfold State.stampHeads; (try dsimp only); (repeat' split) <;> first | rfl | simp)
@[simp] theorem State.stampHeads_mons  : (s.stampHeads).mons = s.mons := by
  first | rfl | (unfold State.stampHeads; (try dsimp only); (repeat' split) <;> first | rfl | simp)
@[simp] theorem State.stampHeads_monEnds  : (s.stampHeads).monEnds = s.monEnds := by
  first | rfl | (unfold State.stampHeads; (try dsimp only); (repeat' split) <;> first | rfl | simp)
@[simp] theorem State.stampHeads_waits  : (s.stampHeads).waits = s.waits := by
  first | rfl | (unfold State.stampHeads; (try dsimp only); (repeat' split) <;> first | rfl | simp)
@[simp] theorem State.stampHeads_now  : (s.stampHeads).now = s.now := by
  first | rfl | (unfold State.stampHeads; (try dsimp only); (repeat' split) <;> first | rfl | simp)
@[simp] theorem State.stampHeads_perst  : (s.stampHeads).perst = s.perst := by
  first | rfl | (unfold State.stampHeads; (try dsimp only); (repeat' split) <;> first | rfl | simp)
@[simp] theorem State.stampHeads_slot  : (s.stampHeads).slot = s.slot := by
  first | rfl | (unfold State.stampHeads; (try dsimp only); (repeat' split) <;> first | rfl | simp)
@[simp] theorem State.stampHeads_badRamp  : (s.stampHeads).badRamp = s.badRamp := by
  first | rfl | (unfold State.stampHeads; (try dsimp only); (repeat' split) <;> first | rfl | simp)
@[simp] theorem State.stampHeads_rampCure  : (s.stampHeads).rampCure = s.rampCure := by
  first | rfl | (unfold State.stampHeads; (try dsimp only); (repeat' split) <;> first | rfl | simp)
@[simp] theorem State.stampHeads_railUntil  : (s.stampHeads).railUntil = s.railUntil := by
  first | rfl | (unfold State.stampHeads; (try dsimp only); (repeat' split) <;> first | rfl | simp)
@[simp] theorem State.stampHeads_dead  : (s.stampHeads).dead = s.dead := by
  first | rfl | (unfold State.stampHeads; (try dsimp only); (repeat' split) <;> first | rfl | simp)
@[simp] theorem State.stampHeads_tripped  : (s.stampHeads).tripped = s.tripped := by
  first | rfl | (unfold State.stampHeads; (try dsimp only); (repeat' split) <;> first | rfl | simp)
@[simp] theorem State.stampHeads_thermTripN  : (s.stampHeads).thermTripN = s.thermTripN := by
  first | rfl | (unfold State.stampHeads; (try dsimp only); (repeat' split) <;> first | rfl | simp)
@[simp] theorem State.stampHeads_refclkLost  : (s.stampHeads).refclkLost = s.refclkLost := by
  first | rfl | (unfold State.stampHeads; (try dsimp only); (repeat' split) <;> first | rfl | simp)
@[simp] theorem State.stampHeads_lpLost  : (s.stampHeads).lpLost = s.lpLost := by
  first | rfl | (unfold State.stampHeads; (try dsimp only); (repeat' split) <;> first | rfl | simp)
@[simp] theorem State.stampHeads_image  : (s.stampHeads).image = s.image := by
  first | rfl | (unfold State.stampHeads; (try dsimp only); (repeat' split) <;> first | rfl | simp)
@[simp] theorem State.stampHeads_imageSvn  : (s.stampHeads).imageSvn = s.imageSvn := by
  first | rfl | (unfold State.stampHeads; (try dsimp only); (repeat' split) <;> first | rfl | simp)
@[simp] theorem State.stampHeads_imageDigest  : (s.stampHeads).imageDigest = s.imageDigest := by
  first | rfl | (unfold State.stampHeads; (try dsimp only); (repeat' split) <;> first | rfl | simp)
@[simp] theorem State.stampHeads_idKey  : (s.stampHeads).idKey = s.idKey := by
  first | rfl | (unfold State.stampHeads; (try dsimp only); (repeat' split) <;> first | rfl | simp)
@[simp] theorem State.stampHeads_attest  : (s.stampHeads).attest = s.attest := by
  first | rfl | (unfold State.stampHeads; (try dsimp only); (repeat' split) <;> first | rfl | simp)
@[simp] theorem State.stampHeads_bundle  : (s.stampHeads).bundle = s.bundle := by
  first | rfl | (unfold State.stampHeads; (try dsimp only); (repeat' split) <;> first | rfl | simp)
@[simp] theorem State.stampHeads_bundleCopy  : (s.stampHeads).bundleCopy = s.bundleCopy := by
  first | rfl | (unfold State.stampHeads; (try dsimp only); (repeat' split) <;> first | rfl | simp)
@[simp] theorem State.stampHeads_nonce  : (s.stampHeads).nonce = s.nonce := by
  first | rfl | (unfold State.stampHeads; (try dsimp only); (repeat' split) <;> first | rfl | simp)
@[simp] theorem State.stampHeads_tierSize  : (s.stampHeads).tierSize = s.tierSize := by
  first | rfl | (unfold State.stampHeads; (try dsimp only); (repeat' split) <;> first | rfl | simp)
@[simp] theorem State.stampHeads_powerUw  : (s.stampHeads).powerUw = s.powerUw := by
  first | rfl | (unfold State.stampHeads; (try dsimp only); (repeat' split) <;> first | rfl | simp)
@[simp] theorem State.stampHeads_rails  : (s.stampHeads).rails = s.rails := by
  first | rfl | (unfold State.stampHeads; (try dsimp only); (repeat' split) <;> first | rfl | simp)
@[simp] theorem State.stampHeads_avsFails  : (s.stampHeads).avsFails = s.avsFails := by
  first | rfl | (unfold State.stampHeads; (try dsimp only); (repeat' split) <;> first | rfl | simp)
@[simp] theorem State.stampHeads_fresh  : (s.stampHeads).fresh = s.fresh := by
  first | rfl | (unfold State.stampHeads; (try dsimp only); (repeat' split) <;> first | rfl | simp)
@[simp] theorem State.stampHeads_pending  : (s.stampHeads).pending = s.pending := by
  first | rfl | (unfold State.stampHeads; (try dsimp only); (repeat' split) <;> first | rfl | simp)

/-! ### enrol -/

@[simp] theorem State.enrol_rf  : (s.enrol).rf = s.rf := by
  first | rfl | (unfold State.enrol; (try dsimp only); (repeat' split) <;> first | rfl | simp)
@[simp] theorem State.enrol_eff  : (s.enrol).eff = s.eff := by
  first | rfl | (unfold State.enrol; (try dsimp only); (repeat' split) <;> first | rfl | simp)
@[simp] theorem State.enrol_mem  : (s.enrol).mem = s.mem := by
  first | rfl | (unfold State.enrol; (try dsimp only); (repeat' split) <;> first | rfl | simp)
@[simp] theorem State.enrol_poison  : (s.enrol).poison = s.poison := by
  first | rfl | (unfold State.enrol; (try dsimp only); (repeat' split) <;> first | rfl | simp)
@[simp] theorem State.enrol_okWords  : (s.enrol).okWords = s.okWords := by
  first | rfl | (unfold State.enrol; (try dsimp only); (repeat' split) <;> first | rfl | simp)
@[simp] theorem State.enrol_symErr  : (s.enrol).symErr = s.symErr := by
  first | rfl | (unfold State.enrol; (try dsimp only); (repeat' split) <;> first | rfl | simp)
@[simp] theorem State.enrol_host  : (s.enrol).host = s.host := by
  first | rfl | (unfold State.enrol; (try dsimp only); (repeat' split) <;> first | rfl | simp)
@[simp] theorem State.enrol_fuses  : (s.enrol).fuses = s.fuses := by
  first | rfl | (unfold State.enrol; (try dsimp only); (repeat' split) <;> first | rfl | simp)
@[simp] theorem State.enrol_nvm  : (s.enrol).nvm = s.nvm := by
  first | rfl | (unfold State.enrol; (try dsimp only); (repeat' split) <;> first | rfl | simp)
@[simp] theorem State.enrol_recorder  : (s.enrol).recorder = s.recorder := by
  first | rfl | (unfold State.enrol; (try dsimp only); (repeat' split) <;> first | rfl | simp)
@[simp] theorem State.enrol_job  : (s.enrol).job = s.job := by
  first | rfl | (unfold State.enrol; (try dsimp only); (repeat' split) <;> first | rfl | simp)
@[simp] theorem State.enrol_hif  : (s.enrol).hif = s.hif := by
  first | rfl | (unfold State.enrol; (try dsimp only); (repeat' split) <;> first | rfl | simp)
@[simp] theorem State.enrol_gaths  : (s.enrol).gaths = s.gaths := by
  first | rfl | (unfold State.enrol; (try dsimp only); (repeat' split) <;> first | rfl | simp)
@[simp] theorem State.enrol_yarders  : (s.enrol).yarders = s.yarders := by
  first | rfl | (unfold State.enrol; (try dsimp only); (repeat' split) <;> first | rfl | simp)
@[simp] theorem State.enrol_colls  : (s.enrol).colls = s.colls := by
  first | rfl | (unfold State.enrol; (try dsimp only); (repeat' split) <;> first | rfl | simp)
@[simp] theorem State.enrol_dies  : (s.enrol).dies = s.dies := by
  first | rfl | (unfold State.enrol; (try dsimp only); (repeat' split) <;> first | rfl | simp)
@[simp] theorem State.enrol_signals  : (s.enrol).signals = s.signals := by
  first | rfl | (unfold State.enrol; (try dsimp only); (repeat' split) <;> first | rfl | simp)
@[simp] theorem State.enrol_mtok  : (s.enrol).mtok = s.mtok := by
  first | rfl | (unfold State.enrol; (try dsimp only); (repeat' split) <;> first | rfl | simp)
@[simp] theorem State.enrol_mOvf  : (s.enrol).mOvf = s.mOvf := by
  first | rfl | (unfold State.enrol; (try dsimp only); (repeat' split) <;> first | rfl | simp)
@[simp] theorem State.enrol_tor  : (s.enrol).tor = s.tor := by
  first | rfl | (unfold State.enrol; (try dsimp only); (repeat' split) <;> first | rfl | simp)
@[simp] theorem State.enrol_irl  : (s.enrol).irl = s.irl := by
  first | rfl | (unfold State.enrol; (try dsimp only); (repeat' split) <;> first | rfl | simp)
@[simp] theorem State.enrol_mons  : (s.enrol).mons = s.mons := by
  first | rfl | (unfold State.enrol; (try dsimp only); (repeat' split) <;> first | rfl | simp)
@[simp] theorem State.enrol_monEnds  : (s.enrol).monEnds = s.monEnds := by
  first | rfl | (unfold State.enrol; (try dsimp only); (repeat' split) <;> first | rfl | simp)
@[simp] theorem State.enrol_now  : (s.enrol).now = s.now := by
  first | rfl | (unfold State.enrol; (try dsimp only); (repeat' split) <;> first | rfl | simp)
@[simp] theorem State.enrol_perst  : (s.enrol).perst = s.perst := by
  first | rfl | (unfold State.enrol; (try dsimp only); (repeat' split) <;> first | rfl | simp)
@[simp] theorem State.enrol_slot  : (s.enrol).slot = s.slot := by
  first | rfl | (unfold State.enrol; (try dsimp only); (repeat' split) <;> first | rfl | simp)
@[simp] theorem State.enrol_badRamp  : (s.enrol).badRamp = s.badRamp := by
  first | rfl | (unfold State.enrol; (try dsimp only); (repeat' split) <;> first | rfl | simp)
@[simp] theorem State.enrol_rampCure  : (s.enrol).rampCure = s.rampCure := by
  first | rfl | (unfold State.enrol; (try dsimp only); (repeat' split) <;> first | rfl | simp)
@[simp] theorem State.enrol_railUntil  : (s.enrol).railUntil = s.railUntil := by
  first | rfl | (unfold State.enrol; (try dsimp only); (repeat' split) <;> first | rfl | simp)
@[simp] theorem State.enrol_dead  : (s.enrol).dead = s.dead := by
  first | rfl | (unfold State.enrol; (try dsimp only); (repeat' split) <;> first | rfl | simp)
@[simp] theorem State.enrol_tripped  : (s.enrol).tripped = s.tripped := by
  first | rfl | (unfold State.enrol; (try dsimp only); (repeat' split) <;> first | rfl | simp)
@[simp] theorem State.enrol_thermTripN  : (s.enrol).thermTripN = s.thermTripN := by
  first | rfl | (unfold State.enrol; (try dsimp only); (repeat' split) <;> first | rfl | simp)
@[simp] theorem State.enrol_refclkLost  : (s.enrol).refclkLost = s.refclkLost := by
  first | rfl | (unfold State.enrol; (try dsimp only); (repeat' split) <;> first | rfl | simp)
@[simp] theorem State.enrol_lpLost  : (s.enrol).lpLost = s.lpLost := by
  first | rfl | (unfold State.enrol; (try dsimp only); (repeat' split) <;> first | rfl | simp)
@[simp] theorem State.enrol_image  : (s.enrol).image = s.image := by
  first | rfl | (unfold State.enrol; (try dsimp only); (repeat' split) <;> first | rfl | simp)
@[simp] theorem State.enrol_imageSvn  : (s.enrol).imageSvn = s.imageSvn := by
  first | rfl | (unfold State.enrol; (try dsimp only); (repeat' split) <;> first | rfl | simp)
@[simp] theorem State.enrol_imageDigest  : (s.enrol).imageDigest = s.imageDigest := by
  first | rfl | (unfold State.enrol; (try dsimp only); (repeat' split) <;> first | rfl | simp)
@[simp] theorem State.enrol_idKey  : (s.enrol).idKey = s.idKey := by
  first | rfl | (unfold State.enrol; (try dsimp only); (repeat' split) <;> first | rfl | simp)
@[simp] theorem State.enrol_attest  : (s.enrol).attest = s.attest := by
  first | rfl | (unfold State.enrol; (try dsimp only); (repeat' split) <;> first | rfl | simp)
@[simp] theorem State.enrol_bundle  : (s.enrol).bundle = s.bundle := by
  first | rfl | (unfold State.enrol; (try dsimp only); (repeat' split) <;> first | rfl | simp)
@[simp] theorem State.enrol_bundleCopy  : (s.enrol).bundleCopy = s.bundleCopy := by
  first | rfl | (unfold State.enrol; (try dsimp only); (repeat' split) <;> first | rfl | simp)
@[simp] theorem State.enrol_nonce  : (s.enrol).nonce = s.nonce := by
  first | rfl | (unfold State.enrol; (try dsimp only); (repeat' split) <;> first | rfl | simp)
@[simp] theorem State.enrol_tierSize  : (s.enrol).tierSize = s.tierSize := by
  first | rfl | (unfold State.enrol; (try dsimp only); (repeat' split) <;> first | rfl | simp)
@[simp] theorem State.enrol_powerUw  : (s.enrol).powerUw = s.powerUw := by
  first | rfl | (unfold State.enrol; (try dsimp only); (repeat' split) <;> first | rfl | simp)
@[simp] theorem State.enrol_rails  : (s.enrol).rails = s.rails := by
  first | rfl | (unfold State.enrol; (try dsimp only); (repeat' split) <;> first | rfl | simp)
@[simp] theorem State.enrol_avsFails  : (s.enrol).avsFails = s.avsFails := by
  first | rfl | (unfold State.enrol; (try dsimp only); (repeat' split) <;> first | rfl | simp)
@[simp] theorem State.enrol_fresh  : (s.enrol).fresh = s.fresh := by
  first | rfl | (unfold State.enrol; (try dsimp only); (repeat' split) <;> first | rfl | simp)
@[simp] theorem State.enrol_pending  : (s.enrol).pending = s.pending := by
  first | rfl | (unfold State.enrol; (try dsimp only); (repeat' split) <;> first | rfl | simp)

/-! ### takeTokens -/

@[simp] theorem State.takeTokens_eff (b : Bool) (d : Nat) (l : List (Nat × Nat)) : (s.takeTokens b d l).eff = s.eff := by
  unfold State.takeTokens; exact foldl_keeps (·.eff) _ (fun s p => by simp) _ s
@[simp] theorem State.takeTokens_mem (b : Bool) (d : Nat) (l : List (Nat × Nat)) : (s.takeTokens b d l).mem = s.mem := by
  unfold State.takeTokens; exact foldl_keeps (·.mem) _ (fun s p => by simp) _ s
@[simp] theorem State.takeTokens_poison (b : Bool) (d : Nat) (l : List (Nat × Nat)) : (s.takeTokens b d l).poison = s.poison := by
  unfold State.takeTokens; exact foldl_keeps (·.poison) _ (fun s p => by simp) _ s
@[simp] theorem State.takeTokens_okWords (b : Bool) (d : Nat) (l : List (Nat × Nat)) : (s.takeTokens b d l).okWords = s.okWords := by
  unfold State.takeTokens; exact foldl_keeps (·.okWords) _ (fun s p => by simp) _ s
@[simp] theorem State.takeTokens_symErr (b : Bool) (d : Nat) (l : List (Nat × Nat)) : (s.takeTokens b d l).symErr = s.symErr := by
  unfold State.takeTokens; exact foldl_keeps (·.symErr) _ (fun s p => by simp) _ s
@[simp] theorem State.takeTokens_host (b : Bool) (d : Nat) (l : List (Nat × Nat)) : (s.takeTokens b d l).host = s.host := by
  unfold State.takeTokens; exact foldl_keeps (·.host) _ (fun s p => by simp) _ s
@[simp] theorem State.takeTokens_fuses (b : Bool) (d : Nat) (l : List (Nat × Nat)) : (s.takeTokens b d l).fuses = s.fuses := by
  unfold State.takeTokens; exact foldl_keeps (·.fuses) _ (fun s p => by simp) _ s
@[simp] theorem State.takeTokens_nvm (b : Bool) (d : Nat) (l : List (Nat × Nat)) : (s.takeTokens b d l).nvm = s.nvm := by
  unfold State.takeTokens; exact foldl_keeps (·.nvm) _ (fun s p => by simp) _ s
@[simp] theorem State.takeTokens_recorder (b : Bool) (d : Nat) (l : List (Nat × Nat)) : (s.takeTokens b d l).recorder = s.recorder := by
  unfold State.takeTokens; exact foldl_keeps (·.recorder) _ (fun s p => by simp) _ s
@[simp] theorem State.takeTokens_job (b : Bool) (d : Nat) (l : List (Nat × Nat)) : (s.takeTokens b d l).job = s.job := by
  unfold State.takeTokens; exact foldl_keeps (·.job) _ (fun s p => by simp) _ s
@[simp] theorem State.takeTokens_hif (b : Bool) (d : Nat) (l : List (Nat × Nat)) : (s.takeTokens b d l).hif = s.hif := by
  unfold State.takeTokens; exact foldl_keeps (·.hif) _ (fun s p => by simp) _ s
@[simp] theorem State.takeTokens_gaths (b : Bool) (d : Nat) (l : List (Nat × Nat)) : (s.takeTokens b d l).gaths = s.gaths := by
  unfold State.takeTokens; exact foldl_keeps (·.gaths) _ (fun s p => by simp) _ s
@[simp] theorem State.takeTokens_queues (b : Bool) (d : Nat) (l : List (Nat × Nat)) : (s.takeTokens b d l).queues = s.queues := by
  unfold State.takeTokens; exact foldl_keeps (·.queues) _ (fun s p => by simp) _ s
@[simp] theorem State.takeTokens_yarders (b : Bool) (d : Nat) (l : List (Nat × Nat)) : (s.takeTokens b d l).yarders = s.yarders := by
  unfold State.takeTokens; exact foldl_keeps (·.yarders) _ (fun s p => by simp) _ s
@[simp] theorem State.takeTokens_colls (b : Bool) (d : Nat) (l : List (Nat × Nat)) : (s.takeTokens b d l).colls = s.colls := by
  unfold State.takeTokens; exact foldl_keeps (·.colls) _ (fun s p => by simp) _ s
@[simp] theorem State.takeTokens_dies (b : Bool) (d : Nat) (l : List (Nat × Nat)) : (s.takeTokens b d l).dies = s.dies := by
  unfold State.takeTokens; exact foldl_keeps (·.dies) _ (fun s p => by simp) _ s
@[simp] theorem State.takeTokens_signals (b : Bool) (d : Nat) (l : List (Nat × Nat)) : (s.takeTokens b d l).signals = s.signals := by
  unfold State.takeTokens; exact foldl_keeps (·.signals) _ (fun s p => by simp) _ s
@[simp] theorem State.takeTokens_mOvf (b : Bool) (d : Nat) (l : List (Nat × Nat)) : (s.takeTokens b d l).mOvf = s.mOvf := by
  unfold State.takeTokens; exact foldl_keeps (·.mOvf) _ (fun s p => by simp) _ s
@[simp] theorem State.takeTokens_tor (b : Bool) (d : Nat) (l : List (Nat × Nat)) : (s.takeTokens b d l).tor = s.tor := by
  unfold State.takeTokens; exact foldl_keeps (·.tor) _ (fun s p => by simp) _ s
@[simp] theorem State.takeTokens_irl (b : Bool) (d : Nat) (l : List (Nat × Nat)) : (s.takeTokens b d l).irl = s.irl := by
  unfold State.takeTokens; exact foldl_keeps (·.irl) _ (fun s p => by simp) _ s
@[simp] theorem State.takeTokens_mons (b : Bool) (d : Nat) (l : List (Nat × Nat)) : (s.takeTokens b d l).mons = s.mons := by
  unfold State.takeTokens; exact foldl_keeps (·.mons) _ (fun s p => by simp) _ s
@[simp] theorem State.takeTokens_monEnds (b : Bool) (d : Nat) (l : List (Nat × Nat)) : (s.takeTokens b d l).monEnds = s.monEnds := by
  unfold State.takeTokens; exact foldl_keeps (·.monEnds) _ (fun s p => by simp) _ s
@[simp] theorem State.takeTokens_waits (b : Bool) (d : Nat) (l : List (Nat × Nat)) : (s.takeTokens b d l).waits = s.waits := by
  unfold State.takeTokens; exact foldl_keeps (·.waits) _ (fun s p => by simp) _ s
@[simp] theorem State.takeTokens_now (b : Bool) (d : Nat) (l : List (Nat × Nat)) : (s.takeTokens b d l).now = s.now := by
  unfold State.takeTokens; exact foldl_keeps (·.now) _ (fun s p => by simp) _ s
@[simp] theorem State.takeTokens_perst (b : Bool) (d : Nat) (l : List (Nat × Nat)) : (s.takeTokens b d l).perst = s.perst := by
  unfold State.takeTokens; exact foldl_keeps (·.perst) _ (fun s p => by simp) _ s
@[simp] theorem State.takeTokens_slot (b : Bool) (d : Nat) (l : List (Nat × Nat)) : (s.takeTokens b d l).slot = s.slot := by
  unfold State.takeTokens; exact foldl_keeps (·.slot) _ (fun s p => by simp) _ s
@[simp] theorem State.takeTokens_badRamp (b : Bool) (d : Nat) (l : List (Nat × Nat)) : (s.takeTokens b d l).badRamp = s.badRamp := by
  unfold State.takeTokens; exact foldl_keeps (·.badRamp) _ (fun s p => by simp) _ s
@[simp] theorem State.takeTokens_rampCure (b : Bool) (d : Nat) (l : List (Nat × Nat)) : (s.takeTokens b d l).rampCure = s.rampCure := by
  unfold State.takeTokens; exact foldl_keeps (·.rampCure) _ (fun s p => by simp) _ s
@[simp] theorem State.takeTokens_railUntil (b : Bool) (d : Nat) (l : List (Nat × Nat)) : (s.takeTokens b d l).railUntil = s.railUntil := by
  unfold State.takeTokens; exact foldl_keeps (·.railUntil) _ (fun s p => by simp) _ s
@[simp] theorem State.takeTokens_dead (b : Bool) (d : Nat) (l : List (Nat × Nat)) : (s.takeTokens b d l).dead = s.dead := by
  unfold State.takeTokens; exact foldl_keeps (·.dead) _ (fun s p => by simp) _ s
@[simp] theorem State.takeTokens_tripped (b : Bool) (d : Nat) (l : List (Nat × Nat)) : (s.takeTokens b d l).tripped = s.tripped := by
  unfold State.takeTokens; exact foldl_keeps (·.tripped) _ (fun s p => by simp) _ s
@[simp] theorem State.takeTokens_thermTripN (b : Bool) (d : Nat) (l : List (Nat × Nat)) : (s.takeTokens b d l).thermTripN = s.thermTripN := by
  unfold State.takeTokens; exact foldl_keeps (·.thermTripN) _ (fun s p => by simp) _ s
@[simp] theorem State.takeTokens_refclkLost (b : Bool) (d : Nat) (l : List (Nat × Nat)) : (s.takeTokens b d l).refclkLost = s.refclkLost := by
  unfold State.takeTokens; exact foldl_keeps (·.refclkLost) _ (fun s p => by simp) _ s
@[simp] theorem State.takeTokens_lpLost (b : Bool) (d : Nat) (l : List (Nat × Nat)) : (s.takeTokens b d l).lpLost = s.lpLost := by
  unfold State.takeTokens; exact foldl_keeps (·.lpLost) _ (fun s p => by simp) _ s
@[simp] theorem State.takeTokens_image (b : Bool) (d : Nat) (l : List (Nat × Nat)) : (s.takeTokens b d l).image = s.image := by
  unfold State.takeTokens; exact foldl_keeps (·.image) _ (fun s p => by simp) _ s
@[simp] theorem State.takeTokens_imageSvn (b : Bool) (d : Nat) (l : List (Nat × Nat)) : (s.takeTokens b d l).imageSvn = s.imageSvn := by
  unfold State.takeTokens; exact foldl_keeps (·.imageSvn) _ (fun s p => by simp) _ s
@[simp] theorem State.takeTokens_imageDigest (b : Bool) (d : Nat) (l : List (Nat × Nat)) : (s.takeTokens b d l).imageDigest = s.imageDigest := by
  unfold State.takeTokens; exact foldl_keeps (·.imageDigest) _ (fun s p => by simp) _ s
@[simp] theorem State.takeTokens_idKey (b : Bool) (d : Nat) (l : List (Nat × Nat)) : (s.takeTokens b d l).idKey = s.idKey := by
  unfold State.takeTokens; exact foldl_keeps (·.idKey) _ (fun s p => by simp) _ s
@[simp] theorem State.takeTokens_attest (b : Bool) (d : Nat) (l : List (Nat × Nat)) : (s.takeTokens b d l).attest = s.attest := by
  unfold State.takeTokens; exact foldl_keeps (·.attest) _ (fun s p => by simp) _ s
@[simp] theorem State.takeTokens_bundle (b : Bool) (d : Nat) (l : List (Nat × Nat)) : (s.takeTokens b d l).bundle = s.bundle := by
  unfold State.takeTokens; exact foldl_keeps (·.bundle) _ (fun s p => by simp) _ s
@[simp] theorem State.takeTokens_bundleCopy (b : Bool) (d : Nat) (l : List (Nat × Nat)) : (s.takeTokens b d l).bundleCopy = s.bundleCopy := by
  unfold State.takeTokens; exact foldl_keeps (·.bundleCopy) _ (fun s p => by simp) _ s
@[simp] theorem State.takeTokens_nonce (b : Bool) (d : Nat) (l : List (Nat × Nat)) : (s.takeTokens b d l).nonce = s.nonce := by
  unfold State.takeTokens; exact foldl_keeps (·.nonce) _ (fun s p => by simp) _ s
@[simp] theorem State.takeTokens_tierSize (b : Bool) (d : Nat) (l : List (Nat × Nat)) : (s.takeTokens b d l).tierSize = s.tierSize := by
  unfold State.takeTokens; exact foldl_keeps (·.tierSize) _ (fun s p => by simp) _ s
@[simp] theorem State.takeTokens_powerUw (b : Bool) (d : Nat) (l : List (Nat × Nat)) : (s.takeTokens b d l).powerUw = s.powerUw := by
  unfold State.takeTokens; exact foldl_keeps (·.powerUw) _ (fun s p => by simp) _ s
@[simp] theorem State.takeTokens_rails (b : Bool) (d : Nat) (l : List (Nat × Nat)) : (s.takeTokens b d l).rails = s.rails := by
  unfold State.takeTokens; exact foldl_keeps (·.rails) _ (fun s p => by simp) _ s
@[simp] theorem State.takeTokens_avsFails (b : Bool) (d : Nat) (l : List (Nat × Nat)) : (s.takeTokens b d l).avsFails = s.avsFails := by
  unfold State.takeTokens; exact foldl_keeps (·.avsFails) _ (fun s p => by simp) _ s
@[simp] theorem State.takeTokens_fresh (b : Bool) (d : Nat) (l : List (Nat × Nat)) : (s.takeTokens b d l).fresh = s.fresh := by
  unfold State.takeTokens; exact foldl_keeps (·.fresh) _ (fun s p => by simp) _ s
@[simp] theorem State.takeTokens_pending (b : Bool) (d : Nat) (l : List (Nat × Nat)) : (s.takeTokens b d l).pending = s.pending := by
  unfold State.takeTokens; exact foldl_keeps (·.pending) _ (fun s p => by simp) _ s

/-! ### lose -/

@[simp] theorem State.lose_rf (g : Nat) : (s.lose g).rf = s.rf := by
  first | rfl | (unfold State.lose; (try dsimp only); (repeat' split) <;> first | rfl | simp)
@[simp] theorem State.lose_eff (g : Nat) : (s.lose g).eff = s.eff := by
  first | rfl | (unfold State.lose; (try dsimp only); (repeat' split) <;> first | rfl | simp)
@[simp] theorem State.lose_mem (g : Nat) : (s.lose g).mem = s.mem := by
  first | rfl | (unfold State.lose; (try dsimp only); (repeat' split) <;> first | rfl | simp)
@[simp] theorem State.lose_okWords (g : Nat) : (s.lose g).okWords = s.okWords := by
  first | rfl | (unfold State.lose; (try dsimp only); (repeat' split) <;> first | rfl | simp)
@[simp] theorem State.lose_symErr (g : Nat) : (s.lose g).symErr = s.symErr := by
  first | rfl | (unfold State.lose; (try dsimp only); (repeat' split) <;> first | rfl | simp)
@[simp] theorem State.lose_host (g : Nat) : (s.lose g).host = s.host := by
  first | rfl | (unfold State.lose; (try dsimp only); (repeat' split) <;> first | rfl | simp)
@[simp] theorem State.lose_fuses (g : Nat) : (s.lose g).fuses = s.fuses := by
  first | rfl | (unfold State.lose; (try dsimp only); (repeat' split) <;> first | rfl | simp)
@[simp] theorem State.lose_nvm (g : Nat) : (s.lose g).nvm = s.nvm := by
  first | rfl | (unfold State.lose; (try dsimp only); (repeat' split) <;> first | rfl | simp)
@[simp] theorem State.lose_recorder (g : Nat) : (s.lose g).recorder = s.recorder := by
  first | rfl | (unfold State.lose; (try dsimp only); (repeat' split) <;> first | rfl | simp)
@[simp] theorem State.lose_hif (g : Nat) : (s.lose g).hif = s.hif := by
  first | rfl | (unfold State.lose; (try dsimp only); (repeat' split) <;> first | rfl | simp)
@[simp] theorem State.lose_gaths (g : Nat) : (s.lose g).gaths = s.gaths := by
  first | rfl | (unfold State.lose; (try dsimp only); (repeat' split) <;> first | rfl | simp)
@[simp] theorem State.lose_queues (g : Nat) : (s.lose g).queues = s.queues := by
  first | rfl | (unfold State.lose; (try dsimp only); (repeat' split) <;> first | rfl | simp)
@[simp] theorem State.lose_yarders (g : Nat) : (s.lose g).yarders = s.yarders := by
  first | rfl | (unfold State.lose; (try dsimp only); (repeat' split) <;> first | rfl | simp)
@[simp] theorem State.lose_colls (g : Nat) : (s.lose g).colls = s.colls := by
  first | rfl | (unfold State.lose; (try dsimp only); (repeat' split) <;> first | rfl | simp)
@[simp] theorem State.lose_dies (g : Nat) : (s.lose g).dies = s.dies := by
  first | rfl | (unfold State.lose; (try dsimp only); (repeat' split) <;> first | rfl | simp)
@[simp] theorem State.lose_signals (g : Nat) : (s.lose g).signals = s.signals := by
  first | rfl | (unfold State.lose; (try dsimp only); (repeat' split) <;> first | rfl | simp)
@[simp] theorem State.lose_mtok (g : Nat) : (s.lose g).mtok = s.mtok := by
  first | rfl | (unfold State.lose; (try dsimp only); (repeat' split) <;> first | rfl | simp)
@[simp] theorem State.lose_mOvf (g : Nat) : (s.lose g).mOvf = s.mOvf := by
  first | rfl | (unfold State.lose; (try dsimp only); (repeat' split) <;> first | rfl | simp)
@[simp] theorem State.lose_tor (g : Nat) : (s.lose g).tor = s.tor := by
  first | rfl | (unfold State.lose; (try dsimp only); (repeat' split) <;> first | rfl | simp)
@[simp] theorem State.lose_irl (g : Nat) : (s.lose g).irl = s.irl := by
  first | rfl | (unfold State.lose; (try dsimp only); (repeat' split) <;> first | rfl | simp)
@[simp] theorem State.lose_mons (g : Nat) : (s.lose g).mons = s.mons := by
  first | rfl | (unfold State.lose; (try dsimp only); (repeat' split) <;> first | rfl | simp)
@[simp] theorem State.lose_monEnds (g : Nat) : (s.lose g).monEnds = s.monEnds := by
  first | rfl | (unfold State.lose; (try dsimp only); (repeat' split) <;> first | rfl | simp)
@[simp] theorem State.lose_waits (g : Nat) : (s.lose g).waits = s.waits := by
  first | rfl | (unfold State.lose; (try dsimp only); (repeat' split) <;> first | rfl | simp)
@[simp] theorem State.lose_now (g : Nat) : (s.lose g).now = s.now := by
  first | rfl | (unfold State.lose; (try dsimp only); (repeat' split) <;> first | rfl | simp)
@[simp] theorem State.lose_perst (g : Nat) : (s.lose g).perst = s.perst := by
  first | rfl | (unfold State.lose; (try dsimp only); (repeat' split) <;> first | rfl | simp)
@[simp] theorem State.lose_slot (g : Nat) : (s.lose g).slot = s.slot := by
  first | rfl | (unfold State.lose; (try dsimp only); (repeat' split) <;> first | rfl | simp)
@[simp] theorem State.lose_badRamp (g : Nat) : (s.lose g).badRamp = s.badRamp := by
  first | rfl | (unfold State.lose; (try dsimp only); (repeat' split) <;> first | rfl | simp)
@[simp] theorem State.lose_rampCure (g : Nat) : (s.lose g).rampCure = s.rampCure := by
  first | rfl | (unfold State.lose; (try dsimp only); (repeat' split) <;> first | rfl | simp)
@[simp] theorem State.lose_railUntil (g : Nat) : (s.lose g).railUntil = s.railUntil := by
  first | rfl | (unfold State.lose; (try dsimp only); (repeat' split) <;> first | rfl | simp)
@[simp] theorem State.lose_dead (g : Nat) : (s.lose g).dead = s.dead := by
  first | rfl | (unfold State.lose; (try dsimp only); (repeat' split) <;> first | rfl | simp)
@[simp] theorem State.lose_tripped (g : Nat) : (s.lose g).tripped = s.tripped := by
  first | rfl | (unfold State.lose; (try dsimp only); (repeat' split) <;> first | rfl | simp)
@[simp] theorem State.lose_thermTripN (g : Nat) : (s.lose g).thermTripN = s.thermTripN := by
  first | rfl | (unfold State.lose; (try dsimp only); (repeat' split) <;> first | rfl | simp)
@[simp] theorem State.lose_refclkLost (g : Nat) : (s.lose g).refclkLost = s.refclkLost := by
  first | rfl | (unfold State.lose; (try dsimp only); (repeat' split) <;> first | rfl | simp)
@[simp] theorem State.lose_lpLost (g : Nat) : (s.lose g).lpLost = s.lpLost := by
  first | rfl | (unfold State.lose; (try dsimp only); (repeat' split) <;> first | rfl | simp)
@[simp] theorem State.lose_image (g : Nat) : (s.lose g).image = s.image := by
  first | rfl | (unfold State.lose; (try dsimp only); (repeat' split) <;> first | rfl | simp)
@[simp] theorem State.lose_imageSvn (g : Nat) : (s.lose g).imageSvn = s.imageSvn := by
  first | rfl | (unfold State.lose; (try dsimp only); (repeat' split) <;> first | rfl | simp)
@[simp] theorem State.lose_imageDigest (g : Nat) : (s.lose g).imageDigest = s.imageDigest := by
  first | rfl | (unfold State.lose; (try dsimp only); (repeat' split) <;> first | rfl | simp)
@[simp] theorem State.lose_idKey (g : Nat) : (s.lose g).idKey = s.idKey := by
  first | rfl | (unfold State.lose; (try dsimp only); (repeat' split) <;> first | rfl | simp)
@[simp] theorem State.lose_attest (g : Nat) : (s.lose g).attest = s.attest := by
  first | rfl | (unfold State.lose; (try dsimp only); (repeat' split) <;> first | rfl | simp)
@[simp] theorem State.lose_bundle (g : Nat) : (s.lose g).bundle = s.bundle := by
  first | rfl | (unfold State.lose; (try dsimp only); (repeat' split) <;> first | rfl | simp)
@[simp] theorem State.lose_bundleCopy (g : Nat) : (s.lose g).bundleCopy = s.bundleCopy := by
  first | rfl | (unfold State.lose; (try dsimp only); (repeat' split) <;> first | rfl | simp)
@[simp] theorem State.lose_nonce (g : Nat) : (s.lose g).nonce = s.nonce := by
  first | rfl | (unfold State.lose; (try dsimp only); (repeat' split) <;> first | rfl | simp)
@[simp] theorem State.lose_tierSize (g : Nat) : (s.lose g).tierSize = s.tierSize := by
  first | rfl | (unfold State.lose; (try dsimp only); (repeat' split) <;> first | rfl | simp)
@[simp] theorem State.lose_powerUw (g : Nat) : (s.lose g).powerUw = s.powerUw := by
  first | rfl | (unfold State.lose; (try dsimp only); (repeat' split) <;> first | rfl | simp)
@[simp] theorem State.lose_rails (g : Nat) : (s.lose g).rails = s.rails := by
  first | rfl | (unfold State.lose; (try dsimp only); (repeat' split) <;> first | rfl | simp)
@[simp] theorem State.lose_avsFails (g : Nat) : (s.lose g).avsFails = s.avsFails := by
  first | rfl | (unfold State.lose; (try dsimp only); (repeat' split) <;> first | rfl | simp)
@[simp] theorem State.lose_fresh (g : Nat) : (s.lose g).fresh = s.fresh := by
  first | rfl | (unfold State.lose; (try dsimp only); (repeat' split) <;> first | rfl | simp)
@[simp] theorem State.lose_pending (g : Nat) : (s.lose g).pending = s.pending := by
  first | rfl | (unfold State.lose; (try dsimp only); (repeat' split) <;> first | rfl | simp)

/-! ### queueRow -/

@[simp] theorem State.queueRow_rf (d row : Nat) : (s.queueRow d row).rf = s.rf := by
  first | rfl | (unfold State.queueRow; (try dsimp only); (repeat' split) <;> first | rfl | simp)
@[simp] theorem State.queueRow_eff (d row : Nat) : (s.queueRow d row).eff = s.eff := by
  first | rfl | (unfold State.queueRow; (try dsimp only); (repeat' split) <;> first | rfl | simp)
@[simp] theorem State.queueRow_mem (d row : Nat) : (s.queueRow d row).mem = s.mem := by
  first | rfl | (unfold State.queueRow; (try dsimp only); (repeat' split) <;> first | rfl | simp)
@[simp] theorem State.queueRow_poison (d row : Nat) : (s.queueRow d row).poison = s.poison := by
  first | rfl | (unfold State.queueRow; (try dsimp only); (repeat' split) <;> first | rfl | simp)
@[simp] theorem State.queueRow_okWords (d row : Nat) : (s.queueRow d row).okWords = s.okWords := by
  first | rfl | (unfold State.queueRow; (try dsimp only); (repeat' split) <;> first | rfl | simp)
@[simp] theorem State.queueRow_symErr (d row : Nat) : (s.queueRow d row).symErr = s.symErr := by
  first | rfl | (unfold State.queueRow; (try dsimp only); (repeat' split) <;> first | rfl | simp)
@[simp] theorem State.queueRow_host (d row : Nat) : (s.queueRow d row).host = s.host := by
  first | rfl | (unfold State.queueRow; (try dsimp only); (repeat' split) <;> first | rfl | simp)
@[simp] theorem State.queueRow_fuses (d row : Nat) : (s.queueRow d row).fuses = s.fuses := by
  first | rfl | (unfold State.queueRow; (try dsimp only); (repeat' split) <;> first | rfl | simp)
@[simp] theorem State.queueRow_nvm (d row : Nat) : (s.queueRow d row).nvm = s.nvm := by
  first | rfl | (unfold State.queueRow; (try dsimp only); (repeat' split) <;> first | rfl | simp)
@[simp] theorem State.queueRow_recorder (d row : Nat) : (s.queueRow d row).recorder = s.recorder := by
  first | rfl | (unfold State.queueRow; (try dsimp only); (repeat' split) <;> first | rfl | simp)
@[simp] theorem State.queueRow_job (d row : Nat) : (s.queueRow d row).job = s.job := by
  first | rfl | (unfold State.queueRow; (try dsimp only); (repeat' split) <;> first | rfl | simp)
@[simp] theorem State.queueRow_hif (d row : Nat) : (s.queueRow d row).hif = s.hif := by
  first | rfl | (unfold State.queueRow; (try dsimp only); (repeat' split) <;> first | rfl | simp)
@[simp] theorem State.queueRow_gaths (d row : Nat) : (s.queueRow d row).gaths = s.gaths := by
  first | rfl | (unfold State.queueRow; (try dsimp only); (repeat' split) <;> first | rfl | simp)
@[simp] theorem State.queueRow_queues (d row : Nat) : (s.queueRow d row).queues = s.queues := by
  first | rfl | (unfold State.queueRow; (try dsimp only); (repeat' split) <;> first | rfl | simp)
@[simp] theorem State.queueRow_yarders (d row : Nat) : (s.queueRow d row).yarders = s.yarders := by
  first | rfl | (unfold State.queueRow; (try dsimp only); (repeat' split) <;> first | rfl | simp)
@[simp] theorem State.queueRow_colls (d row : Nat) : (s.queueRow d row).colls = s.colls := by
  first | rfl | (unfold State.queueRow; (try dsimp only); (repeat' split) <;> first | rfl | simp)
@[simp] theorem State.queueRow_signals (d row : Nat) : (s.queueRow d row).signals = s.signals := by
  first | rfl | (unfold State.queueRow; (try dsimp only); (repeat' split) <;> first | rfl | simp)
@[simp] theorem State.queueRow_mtok (d row : Nat) : (s.queueRow d row).mtok = s.mtok := by
  first | rfl | (unfold State.queueRow; (try dsimp only); (repeat' split) <;> first | rfl | simp)
@[simp] theorem State.queueRow_mOvf (d row : Nat) : (s.queueRow d row).mOvf = s.mOvf := by
  first | rfl | (unfold State.queueRow; (try dsimp only); (repeat' split) <;> first | rfl | simp)
@[simp] theorem State.queueRow_tor (d row : Nat) : (s.queueRow d row).tor = s.tor := by
  first | rfl | (unfold State.queueRow; (try dsimp only); (repeat' split) <;> first | rfl | simp)
@[simp] theorem State.queueRow_irl (d row : Nat) : (s.queueRow d row).irl = s.irl := by
  first | rfl | (unfold State.queueRow; (try dsimp only); (repeat' split) <;> first | rfl | simp)
@[simp] theorem State.queueRow_mons (d row : Nat) : (s.queueRow d row).mons = s.mons := by
  first | rfl | (unfold State.queueRow; (try dsimp only); (repeat' split) <;> first | rfl | simp)
@[simp] theorem State.queueRow_monEnds (d row : Nat) : (s.queueRow d row).monEnds = s.monEnds := by
  first | rfl | (unfold State.queueRow; (try dsimp only); (repeat' split) <;> first | rfl | simp)
@[simp] theorem State.queueRow_waits (d row : Nat) : (s.queueRow d row).waits = s.waits := by
  first | rfl | (unfold State.queueRow; (try dsimp only); (repeat' split) <;> first | rfl | simp)
@[simp] theorem State.queueRow_now (d row : Nat) : (s.queueRow d row).now = s.now := by
  first | rfl | (unfold State.queueRow; (try dsimp only); (repeat' split) <;> first | rfl | simp)
@[simp] theorem State.queueRow_perst (d row : Nat) : (s.queueRow d row).perst = s.perst := by
  first | rfl | (unfold State.queueRow; (try dsimp only); (repeat' split) <;> first | rfl | simp)
@[simp] theorem State.queueRow_slot (d row : Nat) : (s.queueRow d row).slot = s.slot := by
  first | rfl | (unfold State.queueRow; (try dsimp only); (repeat' split) <;> first | rfl | simp)
@[simp] theorem State.queueRow_badRamp (d row : Nat) : (s.queueRow d row).badRamp = s.badRamp := by
  first | rfl | (unfold State.queueRow; (try dsimp only); (repeat' split) <;> first | rfl | simp)
@[simp] theorem State.queueRow_rampCure (d row : Nat) : (s.queueRow d row).rampCure = s.rampCure := by
  first | rfl | (unfold State.queueRow; (try dsimp only); (repeat' split) <;> first | rfl | simp)
@[simp] theorem State.queueRow_railUntil (d row : Nat) : (s.queueRow d row).railUntil = s.railUntil := by
  first | rfl | (unfold State.queueRow; (try dsimp only); (repeat' split) <;> first | rfl | simp)
@[simp] theorem State.queueRow_dead (d row : Nat) : (s.queueRow d row).dead = s.dead := by
  first | rfl | (unfold State.queueRow; (try dsimp only); (repeat' split) <;> first | rfl | simp)
@[simp] theorem State.queueRow_tripped (d row : Nat) : (s.queueRow d row).tripped = s.tripped := by
  first | rfl | (unfold State.queueRow; (try dsimp only); (repeat' split) <;> first | rfl | simp)
@[simp] theorem State.queueRow_thermTripN (d row : Nat) : (s.queueRow d row).thermTripN = s.thermTripN := by
  first | rfl | (unfold State.queueRow; (try dsimp only); (repeat' split) <;> first | rfl | simp)
@[simp] theorem State.queueRow_refclkLost (d row : Nat) : (s.queueRow d row).refclkLost = s.refclkLost := by
  first | rfl | (unfold State.queueRow; (try dsimp only); (repeat' split) <;> first | rfl | simp)
@[simp] theorem State.queueRow_lpLost (d row : Nat) : (s.queueRow d row).lpLost = s.lpLost := by
  first | rfl | (unfold State.queueRow; (try dsimp only); (repeat' split) <;> first | rfl | simp)
@[simp] theorem State.queueRow_image (d row : Nat) : (s.queueRow d row).image = s.image := by
  first | rfl | (unfold State.queueRow; (try dsimp only); (repeat' split) <;> first | rfl | simp)
@[simp] theorem State.queueRow_imageSvn (d row : Nat) : (s.queueRow d row).imageSvn = s.imageSvn := by
  first | rfl | (unfold State.queueRow; (try dsimp only); (repeat' split) <;> first | rfl | simp)
@[simp] theorem State.queueRow_imageDigest (d row : Nat) : (s.queueRow d row).imageDigest = s.imageDigest := by
  first | rfl | (unfold State.queueRow; (try dsimp only); (repeat' split) <;> first | rfl | simp)
@[simp] theorem State.queueRow_idKey (d row : Nat) : (s.queueRow d row).idKey = s.idKey := by
  first | rfl | (unfold State.queueRow; (try dsimp only); (repeat' split) <;> first | rfl | simp)
@[simp] theorem State.queueRow_attest (d row : Nat) : (s.queueRow d row).attest = s.attest := by
  first | rfl | (unfold State.queueRow; (try dsimp only); (repeat' split) <;> first | rfl | simp)
@[simp] theorem State.queueRow_bundle (d row : Nat) : (s.queueRow d row).bundle = s.bundle := by
  first | rfl | (unfold State.queueRow; (try dsimp only); (repeat' split) <;> first | rfl | simp)
@[simp] theorem State.queueRow_bundleCopy (d row : Nat) : (s.queueRow d row).bundleCopy = s.bundleCopy := by
  first | rfl | (unfold State.queueRow; (try dsimp only); (repeat' split) <;> first | rfl | simp)
@[simp] theorem State.queueRow_nonce (d row : Nat) : (s.queueRow d row).nonce = s.nonce := by
  first | rfl | (unfold State.queueRow; (try dsimp only); (repeat' split) <;> first | rfl | simp)
@[simp] theorem State.queueRow_tierSize (d row : Nat) : (s.queueRow d row).tierSize = s.tierSize := by
  first | rfl | (unfold State.queueRow; (try dsimp only); (repeat' split) <;> first | rfl | simp)
@[simp] theorem State.queueRow_powerUw (d row : Nat) : (s.queueRow d row).powerUw = s.powerUw := by
  first | rfl | (unfold State.queueRow; (try dsimp only); (repeat' split) <;> first | rfl | simp)
@[simp] theorem State.queueRow_rails (d row : Nat) : (s.queueRow d row).rails = s.rails := by
  first | rfl | (unfold State.queueRow; (try dsimp only); (repeat' split) <;> first | rfl | simp)
@[simp] theorem State.queueRow_avsFails (d row : Nat) : (s.queueRow d row).avsFails = s.avsFails := by
  first | rfl | (unfold State.queueRow; (try dsimp only); (repeat' split) <;> first | rfl | simp)
@[simp] theorem State.queueRow_fresh (d row : Nat) : (s.queueRow d row).fresh = s.fresh := by
  first | rfl | (unfold State.queueRow; (try dsimp only); (repeat' split) <;> first | rfl | simp)
@[simp] theorem State.queueRow_pending (d row : Nat) : (s.queueRow d row).pending = s.pending := by
  first | rfl | (unfold State.queueRow; (try dsimp only); (repeat' split) <;> first | rfl | simp)

/-! ### uncorrectable -/

@[simp] theorem State.uncorrectable_eff (a : Nat) : (s.uncorrectable a).eff = s.eff := by
  first | rfl | (unfold State.uncorrectable; (try dsimp only); (repeat' split) <;> first | rfl | simp)
@[simp] theorem State.uncorrectable_mem (a : Nat) : (s.uncorrectable a).mem = s.mem := by
  first | rfl | (unfold State.uncorrectable; (try dsimp only); (repeat' split) <;> first | rfl | simp)
@[simp] theorem State.uncorrectable_okWords (a : Nat) : (s.uncorrectable a).okWords = s.okWords := by
  first | rfl | (unfold State.uncorrectable; (try dsimp only); (repeat' split) <;> first | rfl | simp)
@[simp] theorem State.uncorrectable_symErr (a : Nat) : (s.uncorrectable a).symErr = s.symErr := by
  first | rfl | (unfold State.uncorrectable; (try dsimp only); (repeat' split) <;> first | rfl | simp)
@[simp] theorem State.uncorrectable_host (a : Nat) : (s.uncorrectable a).host = s.host := by
  first | rfl | (unfold State.uncorrectable; (try dsimp only); (repeat' split) <;> first | rfl | simp)
@[simp] theorem State.uncorrectable_fuses (a : Nat) : (s.uncorrectable a).fuses = s.fuses := by
  first | rfl | (unfold State.uncorrectable; (try dsimp only); (repeat' split) <;> first | rfl | simp)
@[simp] theorem State.uncorrectable_nvm (a : Nat) : (s.uncorrectable a).nvm = s.nvm := by
  first | rfl | (unfold State.uncorrectable; (try dsimp only); (repeat' split) <;> first | rfl | simp)
@[simp] theorem State.uncorrectable_gaths (a : Nat) : (s.uncorrectable a).gaths = s.gaths := by
  first | rfl | (unfold State.uncorrectable; (try dsimp only); (repeat' split) <;> first | rfl | simp)
@[simp] theorem State.uncorrectable_queues (a : Nat) : (s.uncorrectable a).queues = s.queues := by
  first | rfl | (unfold State.uncorrectable; (try dsimp only); (repeat' split) <;> first | rfl | simp)
@[simp] theorem State.uncorrectable_yarders (a : Nat) : (s.uncorrectable a).yarders = s.yarders := by
  first | rfl | (unfold State.uncorrectable; (try dsimp only); (repeat' split) <;> first | rfl | simp)
@[simp] theorem State.uncorrectable_colls (a : Nat) : (s.uncorrectable a).colls = s.colls := by
  first | rfl | (unfold State.uncorrectable; (try dsimp only); (repeat' split) <;> first | rfl | simp)
@[simp] theorem State.uncorrectable_signals (a : Nat) : (s.uncorrectable a).signals = s.signals := by
  first | rfl | (unfold State.uncorrectable; (try dsimp only); (repeat' split) <;> first | rfl | simp)
@[simp] theorem State.uncorrectable_mtok (a : Nat) : (s.uncorrectable a).mtok = s.mtok := by
  first | rfl | (unfold State.uncorrectable; (try dsimp only); (repeat' split) <;> first | rfl | simp)
@[simp] theorem State.uncorrectable_mOvf (a : Nat) : (s.uncorrectable a).mOvf = s.mOvf := by
  first | rfl | (unfold State.uncorrectable; (try dsimp only); (repeat' split) <;> first | rfl | simp)
@[simp] theorem State.uncorrectable_tor (a : Nat) : (s.uncorrectable a).tor = s.tor := by
  first | rfl | (unfold State.uncorrectable; (try dsimp only); (repeat' split) <;> first | rfl | simp)
@[simp] theorem State.uncorrectable_irl (a : Nat) : (s.uncorrectable a).irl = s.irl := by
  first | rfl | (unfold State.uncorrectable; (try dsimp only); (repeat' split) <;> first | rfl | simp)
@[simp] theorem State.uncorrectable_mons (a : Nat) : (s.uncorrectable a).mons = s.mons := by
  first | rfl | (unfold State.uncorrectable; (try dsimp only); (repeat' split) <;> first | rfl | simp)
@[simp] theorem State.uncorrectable_monEnds (a : Nat) : (s.uncorrectable a).monEnds = s.monEnds := by
  first | rfl | (unfold State.uncorrectable; (try dsimp only); (repeat' split) <;> first | rfl | simp)
@[simp] theorem State.uncorrectable_waits (a : Nat) : (s.uncorrectable a).waits = s.waits := by
  first | rfl | (unfold State.uncorrectable; (try dsimp only); (repeat' split) <;> first | rfl | simp)
@[simp] theorem State.uncorrectable_now (a : Nat) : (s.uncorrectable a).now = s.now := by
  first | rfl | (unfold State.uncorrectable; (try dsimp only); (repeat' split) <;> first | rfl | simp)
@[simp] theorem State.uncorrectable_perst (a : Nat) : (s.uncorrectable a).perst = s.perst := by
  first | rfl | (unfold State.uncorrectable; (try dsimp only); (repeat' split) <;> first | rfl | simp)
@[simp] theorem State.uncorrectable_slot (a : Nat) : (s.uncorrectable a).slot = s.slot := by
  first | rfl | (unfold State.uncorrectable; (try dsimp only); (repeat' split) <;> first | rfl | simp)
@[simp] theorem State.uncorrectable_badRamp (a : Nat) : (s.uncorrectable a).badRamp = s.badRamp := by
  first | rfl | (unfold State.uncorrectable; (try dsimp only); (repeat' split) <;> first | rfl | simp)
@[simp] theorem State.uncorrectable_rampCure (a : Nat) : (s.uncorrectable a).rampCure = s.rampCure := by
  first | rfl | (unfold State.uncorrectable; (try dsimp only); (repeat' split) <;> first | rfl | simp)
@[simp] theorem State.uncorrectable_railUntil (a : Nat) : (s.uncorrectable a).railUntil = s.railUntil := by
  first | rfl | (unfold State.uncorrectable; (try dsimp only); (repeat' split) <;> first | rfl | simp)
@[simp] theorem State.uncorrectable_dead (a : Nat) : (s.uncorrectable a).dead = s.dead := by
  first | rfl | (unfold State.uncorrectable; (try dsimp only); (repeat' split) <;> first | rfl | simp)
@[simp] theorem State.uncorrectable_tripped (a : Nat) : (s.uncorrectable a).tripped = s.tripped := by
  first | rfl | (unfold State.uncorrectable; (try dsimp only); (repeat' split) <;> first | rfl | simp)
@[simp] theorem State.uncorrectable_thermTripN (a : Nat) : (s.uncorrectable a).thermTripN = s.thermTripN := by
  first | rfl | (unfold State.uncorrectable; (try dsimp only); (repeat' split) <;> first | rfl | simp)
@[simp] theorem State.uncorrectable_refclkLost (a : Nat) : (s.uncorrectable a).refclkLost = s.refclkLost := by
  first | rfl | (unfold State.uncorrectable; (try dsimp only); (repeat' split) <;> first | rfl | simp)
@[simp] theorem State.uncorrectable_lpLost (a : Nat) : (s.uncorrectable a).lpLost = s.lpLost := by
  first | rfl | (unfold State.uncorrectable; (try dsimp only); (repeat' split) <;> first | rfl | simp)
@[simp] theorem State.uncorrectable_image (a : Nat) : (s.uncorrectable a).image = s.image := by
  first | rfl | (unfold State.uncorrectable; (try dsimp only); (repeat' split) <;> first | rfl | simp)
@[simp] theorem State.uncorrectable_imageSvn (a : Nat) : (s.uncorrectable a).imageSvn = s.imageSvn := by
  first | rfl | (unfold State.uncorrectable; (try dsimp only); (repeat' split) <;> first | rfl | simp)
@[simp] theorem State.uncorrectable_imageDigest (a : Nat) : (s.uncorrectable a).imageDigest = s.imageDigest := by
  first | rfl | (unfold State.uncorrectable; (try dsimp only); (repeat' split) <;> first | rfl | simp)
@[simp] theorem State.uncorrectable_idKey (a : Nat) : (s.uncorrectable a).idKey = s.idKey := by
  first | rfl | (unfold State.uncorrectable; (try dsimp only); (repeat' split) <;> first | rfl | simp)
@[simp] theorem State.uncorrectable_attest (a : Nat) : (s.uncorrectable a).attest = s.attest := by
  first | rfl | (unfold State.uncorrectable; (try dsimp only); (repeat' split) <;> first | rfl | simp)
@[simp] theorem State.uncorrectable_bundle (a : Nat) : (s.uncorrectable a).bundle = s.bundle := by
  first | rfl | (unfold State.uncorrectable; (try dsimp only); (repeat' split) <;> first | rfl | simp)
@[simp] theorem State.uncorrectable_bundleCopy (a : Nat) : (s.uncorrectable a).bundleCopy = s.bundleCopy := by
  first | rfl | (unfold State.uncorrectable; (try dsimp only); (repeat' split) <;> first | rfl | simp)
@[simp] theorem State.uncorrectable_nonce (a : Nat) : (s.uncorrectable a).nonce = s.nonce := by
  first | rfl | (unfold State.uncorrectable; (try dsimp only); (repeat' split) <;> first | rfl | simp)
@[simp] theorem State.uncorrectable_tierSize (a : Nat) : (s.uncorrectable a).tierSize = s.tierSize := by
  first | rfl | (unfold State.uncorrectable; (try dsimp only); (repeat' split) <;> first | rfl | simp)
@[simp] theorem State.uncorrectable_powerUw (a : Nat) : (s.uncorrectable a).powerUw = s.powerUw := by
  first | rfl | (unfold State.uncorrectable; (try dsimp only); (repeat' split) <;> first | rfl | simp)
@[simp] theorem State.uncorrectable_rails (a : Nat) : (s.uncorrectable a).rails = s.rails := by
  first | rfl | (unfold State.uncorrectable; (try dsimp only); (repeat' split) <;> first | rfl | simp)
@[simp] theorem State.uncorrectable_avsFails (a : Nat) : (s.uncorrectable a).avsFails = s.avsFails := by
  first | rfl | (unfold State.uncorrectable; (try dsimp only); (repeat' split) <;> first | rfl | simp)
@[simp] theorem State.uncorrectable_fresh (a : Nat) : (s.uncorrectable a).fresh = s.fresh := by
  first | rfl | (unfold State.uncorrectable; (try dsimp only); (repeat' split) <;> first | rfl | simp)
@[simp] theorem State.uncorrectable_pending (a : Nat) : (s.uncorrectable a).pending = s.pending := by
  first | rfl | (unfold State.uncorrectable; (try dsimp only); (repeat' split) <;> first | rfl | simp)

/-! ### countedPart -/

@[simp] theorem State.countedPart_eff (a n g : Nat) : (s.countedPart a n g).eff = s.eff := by
  first | rfl | (unfold State.countedPart; (try dsimp only); (repeat' split) <;> first | rfl | simp)
@[simp] theorem State.countedPart_mem (a n g : Nat) : (s.countedPart a n g).mem = s.mem := by
  first | rfl | (unfold State.countedPart; (try dsimp only); (repeat' split) <;> first | rfl | simp)
@[simp] theorem State.countedPart_poison (a n g : Nat) : (s.countedPart a n g).poison = s.poison := by
  first | rfl | (unfold State.countedPart; (try dsimp only); (repeat' split) <;> first | rfl | simp)
@[simp] theorem State.countedPart_okWords (a n g : Nat) : (s.countedPart a n g).okWords = s.okWords := by
  first | rfl | (unfold State.countedPart; (try dsimp only); (repeat' split) <;> first | rfl | simp)
@[simp] theorem State.countedPart_symErr (a n g : Nat) : (s.countedPart a n g).symErr = s.symErr := by
  first | rfl | (unfold State.countedPart; (try dsimp only); (repeat' split) <;> first | rfl | simp)
@[simp] theorem State.countedPart_host (a n g : Nat) : (s.countedPart a n g).host = s.host := by
  first | rfl | (unfold State.countedPart; (try dsimp only); (repeat' split) <;> first | rfl | simp)
@[simp] theorem State.countedPart_fuses (a n g : Nat) : (s.countedPart a n g).fuses = s.fuses := by
  first | rfl | (unfold State.countedPart; (try dsimp only); (repeat' split) <;> first | rfl | simp)
@[simp] theorem State.countedPart_nvm (a n g : Nat) : (s.countedPart a n g).nvm = s.nvm := by
  first | rfl | (unfold State.countedPart; (try dsimp only); (repeat' split) <;> first | rfl | simp)
@[simp] theorem State.countedPart_recorder (a n g : Nat) : (s.countedPart a n g).recorder = s.recorder := by
  first | rfl | (unfold State.countedPart; (try dsimp only); (repeat' split) <;> first | rfl | simp)
@[simp] theorem State.countedPart_job (a n g : Nat) : (s.countedPart a n g).job = s.job := by
  first | rfl | (unfold State.countedPart; (try dsimp only); (repeat' split) <;> first | rfl | simp)
@[simp] theorem State.countedPart_hif (a n g : Nat) : (s.countedPart a n g).hif = s.hif := by
  first | rfl | (unfold State.countedPart; (try dsimp only); (repeat' split) <;> first | rfl | simp)
@[simp] theorem State.countedPart_gaths (a n g : Nat) : (s.countedPart a n g).gaths = s.gaths := by
  first | rfl | (unfold State.countedPart; (try dsimp only); (repeat' split) <;> first | rfl | simp)
@[simp] theorem State.countedPart_queues (a n g : Nat) : (s.countedPart a n g).queues = s.queues := by
  first | rfl | (unfold State.countedPart; (try dsimp only); (repeat' split) <;> first | rfl | simp)
@[simp] theorem State.countedPart_yarders (a n g : Nat) : (s.countedPart a n g).yarders = s.yarders := by
  first | rfl | (unfold State.countedPart; (try dsimp only); (repeat' split) <;> first | rfl | simp)
@[simp] theorem State.countedPart_colls (a n g : Nat) : (s.countedPart a n g).colls = s.colls := by
  first | rfl | (unfold State.countedPart; (try dsimp only); (repeat' split) <;> first | rfl | simp)
@[simp] theorem State.countedPart_dies (a n g : Nat) : (s.countedPart a n g).dies = s.dies := by
  first | rfl | (unfold State.countedPart; (try dsimp only); (repeat' split) <;> first | rfl | simp)
@[simp] theorem State.countedPart_signals (a n g : Nat) : (s.countedPart a n g).signals = s.signals := by
  first | rfl | (unfold State.countedPart; (try dsimp only); (repeat' split) <;> first | rfl | simp)
@[simp] theorem State.countedPart_mtok (a n g : Nat) : (s.countedPart a n g).mtok = s.mtok := by
  first | rfl | (unfold State.countedPart; (try dsimp only); (repeat' split) <;> first | rfl | simp)
@[simp] theorem State.countedPart_mOvf (a n g : Nat) : (s.countedPart a n g).mOvf = s.mOvf := by
  first | rfl | (unfold State.countedPart; (try dsimp only); (repeat' split) <;> first | rfl | simp)
@[simp] theorem State.countedPart_tor (a n g : Nat) : (s.countedPart a n g).tor = s.tor := by
  first | rfl | (unfold State.countedPart; (try dsimp only); (repeat' split) <;> first | rfl | simp)
@[simp] theorem State.countedPart_irl (a n g : Nat) : (s.countedPart a n g).irl = s.irl := by
  first | rfl | (unfold State.countedPart; (try dsimp only); (repeat' split) <;> first | rfl | simp)
@[simp] theorem State.countedPart_mons (a n g : Nat) : (s.countedPart a n g).mons = s.mons := by
  first | rfl | (unfold State.countedPart; (try dsimp only); (repeat' split) <;> first | rfl | simp)
@[simp] theorem State.countedPart_monEnds (a n g : Nat) : (s.countedPart a n g).monEnds = s.monEnds := by
  first | rfl | (unfold State.countedPart; (try dsimp only); (repeat' split) <;> first | rfl | simp)
@[simp] theorem State.countedPart_waits (a n g : Nat) : (s.countedPart a n g).waits = s.waits := by
  first | rfl | (unfold State.countedPart; (try dsimp only); (repeat' split) <;> first | rfl | simp)
@[simp] theorem State.countedPart_now (a n g : Nat) : (s.countedPart a n g).now = s.now := by
  first | rfl | (unfold State.countedPart; (try dsimp only); (repeat' split) <;> first | rfl | simp)
@[simp] theorem State.countedPart_perst (a n g : Nat) : (s.countedPart a n g).perst = s.perst := by
  first | rfl | (unfold State.countedPart; (try dsimp only); (repeat' split) <;> first | rfl | simp)
@[simp] theorem State.countedPart_slot (a n g : Nat) : (s.countedPart a n g).slot = s.slot := by
  first | rfl | (unfold State.countedPart; (try dsimp only); (repeat' split) <;> first | rfl | simp)
@[simp] theorem State.countedPart_badRamp (a n g : Nat) : (s.countedPart a n g).badRamp = s.badRamp := by
  first | rfl | (unfold State.countedPart; (try dsimp only); (repeat' split) <;> first | rfl | simp)
@[simp] theorem State.countedPart_rampCure (a n g : Nat) : (s.countedPart a n g).rampCure = s.rampCure := by
  first | rfl | (unfold State.countedPart; (try dsimp only); (repeat' split) <;> first | rfl | simp)
@[simp] theorem State.countedPart_railUntil (a n g : Nat) : (s.countedPart a n g).railUntil = s.railUntil := by
  first | rfl | (unfold State.countedPart; (try dsimp only); (repeat' split) <;> first | rfl | simp)
@[simp] theorem State.countedPart_dead (a n g : Nat) : (s.countedPart a n g).dead = s.dead := by
  first | rfl | (unfold State.countedPart; (try dsimp only); (repeat' split) <;> first | rfl | simp)
@[simp] theorem State.countedPart_tripped (a n g : Nat) : (s.countedPart a n g).tripped = s.tripped := by
  first | rfl | (unfold State.countedPart; (try dsimp only); (repeat' split) <;> first | rfl | simp)
@[simp] theorem State.countedPart_thermTripN (a n g : Nat) : (s.countedPart a n g).thermTripN = s.thermTripN := by
  first | rfl | (unfold State.countedPart; (try dsimp only); (repeat' split) <;> first | rfl | simp)
@[simp] theorem State.countedPart_refclkLost (a n g : Nat) : (s.countedPart a n g).refclkLost = s.refclkLost := by
  first | rfl | (unfold State.countedPart; (try dsimp only); (repeat' split) <;> first | rfl | simp)
@[simp] theorem State.countedPart_lpLost (a n g : Nat) : (s.countedPart a n g).lpLost = s.lpLost := by
  first | rfl | (unfold State.countedPart; (try dsimp only); (repeat' split) <;> first | rfl | simp)
@[simp] theorem State.countedPart_image (a n g : Nat) : (s.countedPart a n g).image = s.image := by
  first | rfl | (unfold State.countedPart; (try dsimp only); (repeat' split) <;> first | rfl | simp)
@[simp] theorem State.countedPart_imageSvn (a n g : Nat) : (s.countedPart a n g).imageSvn = s.imageSvn := by
  first | rfl | (unfold State.countedPart; (try dsimp only); (repeat' split) <;> first | rfl | simp)
@[simp] theorem State.countedPart_imageDigest (a n g : Nat) : (s.countedPart a n g).imageDigest = s.imageDigest := by
  first | rfl | (unfold State.countedPart; (try dsimp only); (repeat' split) <;> first | rfl | simp)
@[simp] theorem State.countedPart_idKey (a n g : Nat) : (s.countedPart a n g).idKey = s.idKey := by
  first | rfl | (unfold State.countedPart; (try dsimp only); (repeat' split) <;> first | rfl | simp)
@[simp] theorem State.countedPart_attest (a n g : Nat) : (s.countedPart a n g).attest = s.attest := by
  first | rfl | (unfold State.countedPart; (try dsimp only); (repeat' split) <;> first | rfl | simp)
@[simp] theorem State.countedPart_bundle (a n g : Nat) : (s.countedPart a n g).bundle = s.bundle := by
  first | rfl | (unfold State.countedPart; (try dsimp only); (repeat' split) <;> first | rfl | simp)
@[simp] theorem State.countedPart_bundleCopy (a n g : Nat) : (s.countedPart a n g).bundleCopy = s.bundleCopy := by
  first | rfl | (unfold State.countedPart; (try dsimp only); (repeat' split) <;> first | rfl | simp)
@[simp] theorem State.countedPart_nonce (a n g : Nat) : (s.countedPart a n g).nonce = s.nonce := by
  first | rfl | (unfold State.countedPart; (try dsimp only); (repeat' split) <;> first | rfl | simp)
@[simp] theorem State.countedPart_tierSize (a n g : Nat) : (s.countedPart a n g).tierSize = s.tierSize := by
  first | rfl | (unfold State.countedPart; (try dsimp only); (repeat' split) <;> first | rfl | simp)
@[simp] theorem State.countedPart_powerUw (a n g : Nat) : (s.countedPart a n g).powerUw = s.powerUw := by
  first | rfl | (unfold State.countedPart; (try dsimp only); (repeat' split) <;> first | rfl | simp)
@[simp] theorem State.countedPart_rails (a n g : Nat) : (s.countedPart a n g).rails = s.rails := by
  first | rfl | (unfold State.countedPart; (try dsimp only); (repeat' split) <;> first | rfl | simp)
@[simp] theorem State.countedPart_avsFails (a n g : Nat) : (s.countedPart a n g).avsFails = s.avsFails := by
  first | rfl | (unfold State.countedPart; (try dsimp only); (repeat' split) <;> first | rfl | simp)
@[simp] theorem State.countedPart_fresh (a n g : Nat) : (s.countedPart a n g).fresh = s.fresh := by
  first | rfl | (unfold State.countedPart; (try dsimp only); (repeat' split) <;> first | rfl | simp)
@[simp] theorem State.countedPart_pending (a n g : Nat) : (s.countedPart a n g).pending = s.pending := by
  first | rfl | (unfold State.countedPart; (try dsimp only); (repeat' split) <;> first | rfl | simp)

/-! ### countedEnds -/

@[simp] theorem State.countedEnds_eff (a n : Nat) : (s.countedEnds a n).eff = s.eff := by
  first | rfl | (unfold State.countedEnds; (try dsimp only); (repeat' split) <;> first | rfl | simp)
@[simp] theorem State.countedEnds_mem (a n : Nat) : (s.countedEnds a n).mem = s.mem := by
  first | rfl | (unfold State.countedEnds; (try dsimp only); (repeat' split) <;> first | rfl | simp)
@[simp] theorem State.countedEnds_poison (a n : Nat) : (s.countedEnds a n).poison = s.poison := by
  first | rfl | (unfold State.countedEnds; (try dsimp only); (repeat' split) <;> first | rfl | simp)
@[simp] theorem State.countedEnds_okWords (a n : Nat) : (s.countedEnds a n).okWords = s.okWords := by
  first | rfl | (unfold State.countedEnds; (try dsimp only); (repeat' split) <;> first | rfl | simp)
@[simp] theorem State.countedEnds_symErr (a n : Nat) : (s.countedEnds a n).symErr = s.symErr := by
  first | rfl | (unfold State.countedEnds; (try dsimp only); (repeat' split) <;> first | rfl | simp)
@[simp] theorem State.countedEnds_host (a n : Nat) : (s.countedEnds a n).host = s.host := by
  first | rfl | (unfold State.countedEnds; (try dsimp only); (repeat' split) <;> first | rfl | simp)
@[simp] theorem State.countedEnds_fuses (a n : Nat) : (s.countedEnds a n).fuses = s.fuses := by
  first | rfl | (unfold State.countedEnds; (try dsimp only); (repeat' split) <;> first | rfl | simp)
@[simp] theorem State.countedEnds_nvm (a n : Nat) : (s.countedEnds a n).nvm = s.nvm := by
  first | rfl | (unfold State.countedEnds; (try dsimp only); (repeat' split) <;> first | rfl | simp)
@[simp] theorem State.countedEnds_recorder (a n : Nat) : (s.countedEnds a n).recorder = s.recorder := by
  first | rfl | (unfold State.countedEnds; (try dsimp only); (repeat' split) <;> first | rfl | simp)
@[simp] theorem State.countedEnds_job (a n : Nat) : (s.countedEnds a n).job = s.job := by
  first | rfl | (unfold State.countedEnds; (try dsimp only); (repeat' split) <;> first | rfl | simp)
@[simp] theorem State.countedEnds_hif (a n : Nat) : (s.countedEnds a n).hif = s.hif := by
  first | rfl | (unfold State.countedEnds; (try dsimp only); (repeat' split) <;> first | rfl | simp)
@[simp] theorem State.countedEnds_gaths (a n : Nat) : (s.countedEnds a n).gaths = s.gaths := by
  first | rfl | (unfold State.countedEnds; (try dsimp only); (repeat' split) <;> first | rfl | simp)
@[simp] theorem State.countedEnds_queues (a n : Nat) : (s.countedEnds a n).queues = s.queues := by
  first | rfl | (unfold State.countedEnds; (try dsimp only); (repeat' split) <;> first | rfl | simp)
@[simp] theorem State.countedEnds_yarders (a n : Nat) : (s.countedEnds a n).yarders = s.yarders := by
  first | rfl | (unfold State.countedEnds; (try dsimp only); (repeat' split) <;> first | rfl | simp)
@[simp] theorem State.countedEnds_colls (a n : Nat) : (s.countedEnds a n).colls = s.colls := by
  first | rfl | (unfold State.countedEnds; (try dsimp only); (repeat' split) <;> first | rfl | simp)
@[simp] theorem State.countedEnds_dies (a n : Nat) : (s.countedEnds a n).dies = s.dies := by
  first | rfl | (unfold State.countedEnds; (try dsimp only); (repeat' split) <;> first | rfl | simp)
@[simp] theorem State.countedEnds_signals (a n : Nat) : (s.countedEnds a n).signals = s.signals := by
  first | rfl | (unfold State.countedEnds; (try dsimp only); (repeat' split) <;> first | rfl | simp)
@[simp] theorem State.countedEnds_mtok (a n : Nat) : (s.countedEnds a n).mtok = s.mtok := by
  first | rfl | (unfold State.countedEnds; (try dsimp only); (repeat' split) <;> first | rfl | simp)
@[simp] theorem State.countedEnds_mOvf (a n : Nat) : (s.countedEnds a n).mOvf = s.mOvf := by
  first | rfl | (unfold State.countedEnds; (try dsimp only); (repeat' split) <;> first | rfl | simp)
@[simp] theorem State.countedEnds_tor (a n : Nat) : (s.countedEnds a n).tor = s.tor := by
  first | rfl | (unfold State.countedEnds; (try dsimp only); (repeat' split) <;> first | rfl | simp)
@[simp] theorem State.countedEnds_irl (a n : Nat) : (s.countedEnds a n).irl = s.irl := by
  first | rfl | (unfold State.countedEnds; (try dsimp only); (repeat' split) <;> first | rfl | simp)
@[simp] theorem State.countedEnds_mons (a n : Nat) : (s.countedEnds a n).mons = s.mons := by
  first | rfl | (unfold State.countedEnds; (try dsimp only); (repeat' split) <;> first | rfl | simp)
@[simp] theorem State.countedEnds_monEnds (a n : Nat) : (s.countedEnds a n).monEnds = s.monEnds := by
  first | rfl | (unfold State.countedEnds; (try dsimp only); (repeat' split) <;> first | rfl | simp)
@[simp] theorem State.countedEnds_waits (a n : Nat) : (s.countedEnds a n).waits = s.waits := by
  first | rfl | (unfold State.countedEnds; (try dsimp only); (repeat' split) <;> first | rfl | simp)
@[simp] theorem State.countedEnds_now (a n : Nat) : (s.countedEnds a n).now = s.now := by
  first | rfl | (unfold State.countedEnds; (try dsimp only); (repeat' split) <;> first | rfl | simp)
@[simp] theorem State.countedEnds_perst (a n : Nat) : (s.countedEnds a n).perst = s.perst := by
  first | rfl | (unfold State.countedEnds; (try dsimp only); (repeat' split) <;> first | rfl | simp)
@[simp] theorem State.countedEnds_slot (a n : Nat) : (s.countedEnds a n).slot = s.slot := by
  first | rfl | (unfold State.countedEnds; (try dsimp only); (repeat' split) <;> first | rfl | simp)
@[simp] theorem State.countedEnds_badRamp (a n : Nat) : (s.countedEnds a n).badRamp = s.badRamp := by
  first | rfl | (unfold State.countedEnds; (try dsimp only); (repeat' split) <;> first | rfl | simp)
@[simp] theorem State.countedEnds_rampCure (a n : Nat) : (s.countedEnds a n).rampCure = s.rampCure := by
  first | rfl | (unfold State.countedEnds; (try dsimp only); (repeat' split) <;> first | rfl | simp)
@[simp] theorem State.countedEnds_railUntil (a n : Nat) : (s.countedEnds a n).railUntil = s.railUntil := by
  first | rfl | (unfold State.countedEnds; (try dsimp only); (repeat' split) <;> first | rfl | simp)
@[simp] theorem State.countedEnds_dead (a n : Nat) : (s.countedEnds a n).dead = s.dead := by
  first | rfl | (unfold State.countedEnds; (try dsimp only); (repeat' split) <;> first | rfl | simp)
@[simp] theorem State.countedEnds_tripped (a n : Nat) : (s.countedEnds a n).tripped = s.tripped := by
  first | rfl | (unfold State.countedEnds; (try dsimp only); (repeat' split) <;> first | rfl | simp)
@[simp] theorem State.countedEnds_thermTripN (a n : Nat) : (s.countedEnds a n).thermTripN = s.thermTripN := by
  first | rfl | (unfold State.countedEnds; (try dsimp only); (repeat' split) <;> first | rfl | simp)
@[simp] theorem State.countedEnds_refclkLost (a n : Nat) : (s.countedEnds a n).refclkLost = s.refclkLost := by
  first | rfl | (unfold State.countedEnds; (try dsimp only); (repeat' split) <;> first | rfl | simp)
@[simp] theorem State.countedEnds_lpLost (a n : Nat) : (s.countedEnds a n).lpLost = s.lpLost := by
  first | rfl | (unfold State.countedEnds; (try dsimp only); (repeat' split) <;> first | rfl | simp)
@[simp] theorem State.countedEnds_image (a n : Nat) : (s.countedEnds a n).image = s.image := by
  first | rfl | (unfold State.countedEnds; (try dsimp only); (repeat' split) <;> first | rfl | simp)
@[simp] theorem State.countedEnds_imageSvn (a n : Nat) : (s.countedEnds a n).imageSvn = s.imageSvn := by
  first | rfl | (unfold State.countedEnds; (try dsimp only); (repeat' split) <;> first | rfl | simp)
@[simp] theorem State.countedEnds_imageDigest (a n : Nat) : (s.countedEnds a n).imageDigest = s.imageDigest := by
  first | rfl | (unfold State.countedEnds; (try dsimp only); (repeat' split) <;> first | rfl | simp)
@[simp] theorem State.countedEnds_idKey (a n : Nat) : (s.countedEnds a n).idKey = s.idKey := by
  first | rfl | (unfold State.countedEnds; (try dsimp only); (repeat' split) <;> first | rfl | simp)
@[simp] theorem State.countedEnds_attest (a n : Nat) : (s.countedEnds a n).attest = s.attest := by
  first | rfl | (unfold State.countedEnds; (try dsimp only); (repeat' split) <;> first | rfl | simp)
@[simp] theorem State.countedEnds_bundle (a n : Nat) : (s.countedEnds a n).bundle = s.bundle := by
  first | rfl | (unfold State.countedEnds; (try dsimp only); (repeat' split) <;> first | rfl | simp)
@[simp] theorem State.countedEnds_bundleCopy (a n : Nat) : (s.countedEnds a n).bundleCopy = s.bundleCopy := by
  first | rfl | (unfold State.countedEnds; (try dsimp only); (repeat' split) <;> first | rfl | simp)
@[simp] theorem State.countedEnds_nonce (a n : Nat) : (s.countedEnds a n).nonce = s.nonce := by
  first | rfl | (unfold State.countedEnds; (try dsimp only); (repeat' split) <;> first | rfl | simp)
@[simp] theorem State.countedEnds_tierSize (a n : Nat) : (s.countedEnds a n).tierSize = s.tierSize := by
  first | rfl | (unfold State.countedEnds; (try dsimp only); (repeat' split) <;> first | rfl | simp)
@[simp] theorem State.countedEnds_powerUw (a n : Nat) : (s.countedEnds a n).powerUw = s.powerUw := by
  first | rfl | (unfold State.countedEnds; (try dsimp only); (repeat' split) <;> first | rfl | simp)
@[simp] theorem State.countedEnds_rails (a n : Nat) : (s.countedEnds a n).rails = s.rails := by
  first | rfl | (unfold State.countedEnds; (try dsimp only); (repeat' split) <;> first | rfl | simp)
@[simp] theorem State.countedEnds_avsFails (a n : Nat) : (s.countedEnds a n).avsFails = s.avsFails := by
  first | rfl | (unfold State.countedEnds; (try dsimp only); (repeat' split) <;> first | rfl | simp)
@[simp] theorem State.countedEnds_fresh (a n : Nat) : (s.countedEnds a n).fresh = s.fresh := by
  first | rfl | (unfold State.countedEnds; (try dsimp only); (repeat' split) <;> first | rfl | simp)
@[simp] theorem State.countedEnds_pending (a n : Nat) : (s.countedEnds a n).pending = s.pending := by
  first | rfl | (unfold State.countedEnds; (try dsimp only); (repeat' split) <;> first | rfl | simp)

/-! ### store -/

@[simp] theorem State.store_eff (a : Nat) (l : List Nat) : (s.store a l).eff = s.eff := by
  unfold State.store; dsimp only; simp only [State.wrL_eff, State.invalidate_eff]; rw [foldl_keeps (·.eff) _ (fun s p => by simp) _ _]; simp
@[simp] theorem State.store_host (a : Nat) (l : List Nat) : (s.store a l).host = s.host := by
  unfold State.store; dsimp only; simp only [State.wrL_host, State.invalidate_host]; rw [foldl_keeps (·.host) _ (fun s p => by simp) _ _]; simp
@[simp] theorem State.store_fuses (a : Nat) (l : List Nat) : (s.store a l).fuses = s.fuses := by
  unfold State.store; dsimp only; simp only [State.wrL_fuses, State.invalidate_fuses]; rw [foldl_keeps (·.fuses) _ (fun s p => by simp) _ _]; simp
@[simp] theorem State.store_nvm (a : Nat) (l : List Nat) : (s.store a l).nvm = s.nvm := by
  unfold State.store; dsimp only; simp only [State.wrL_nvm, State.invalidate_nvm]; rw [foldl_keeps (·.nvm) _ (fun s p => by simp) _ _]; simp
@[simp] theorem State.store_recorder (a : Nat) (l : List Nat) : (s.store a l).recorder = s.recorder := by
  unfold State.store; dsimp only; simp only [State.wrL_recorder, State.invalidate_recorder]; rw [foldl_keeps (·.recorder) _ (fun s p => by simp) _ _]; simp
@[simp] theorem State.store_job (a : Nat) (l : List Nat) : (s.store a l).job = s.job := by
  unfold State.store; dsimp only; simp only [State.wrL_job, State.invalidate_job]; rw [foldl_keeps (·.job) _ (fun s p => by simp) _ _]; simp
@[simp] theorem State.store_hif (a : Nat) (l : List Nat) : (s.store a l).hif = s.hif := by
  unfold State.store; dsimp only; simp only [State.wrL_hif, State.invalidate_hif]; rw [foldl_keeps (·.hif) _ (fun s p => by simp) _ _]; simp
@[simp] theorem State.store_gaths (a : Nat) (l : List Nat) : (s.store a l).gaths = s.gaths := by
  unfold State.store; dsimp only; simp only [State.wrL_gaths, State.invalidate_gaths]; rw [foldl_keeps (·.gaths) _ (fun s p => by simp) _ _]; simp
@[simp] theorem State.store_queues (a : Nat) (l : List Nat) : (s.store a l).queues = s.queues := by
  unfold State.store; dsimp only; simp only [State.wrL_queues, State.invalidate_queues]; rw [foldl_keeps (·.queues) _ (fun s p => by simp) _ _]; simp
@[simp] theorem State.store_yarders (a : Nat) (l : List Nat) : (s.store a l).yarders = s.yarders := by
  unfold State.store; dsimp only; simp only [State.wrL_yarders, State.invalidate_yarders]; rw [foldl_keeps (·.yarders) _ (fun s p => by simp) _ _]; simp
@[simp] theorem State.store_colls (a : Nat) (l : List Nat) : (s.store a l).colls = s.colls := by
  unfold State.store; dsimp only; simp only [State.wrL_colls, State.invalidate_colls]; rw [foldl_keeps (·.colls) _ (fun s p => by simp) _ _]; simp
@[simp] theorem State.store_signals (a : Nat) (l : List Nat) : (s.store a l).signals = s.signals := by
  unfold State.store; dsimp only; simp only [State.wrL_signals, State.invalidate_signals]; rw [foldl_keeps (·.signals) _ (fun s p => by simp) _ _]; simp
@[simp] theorem State.store_mtok (a : Nat) (l : List Nat) : (s.store a l).mtok = s.mtok := by
  unfold State.store; dsimp only; simp only [State.wrL_mtok, State.invalidate_mtok]; rw [foldl_keeps (·.mtok) _ (fun s p => by simp) _ _]; simp
@[simp] theorem State.store_mOvf (a : Nat) (l : List Nat) : (s.store a l).mOvf = s.mOvf := by
  unfold State.store; dsimp only; simp only [State.wrL_mOvf, State.invalidate_mOvf]; rw [foldl_keeps (·.mOvf) _ (fun s p => by simp) _ _]; simp
@[simp] theorem State.store_tor (a : Nat) (l : List Nat) : (s.store a l).tor = s.tor := by
  unfold State.store; dsimp only; simp only [State.wrL_tor, State.invalidate_tor]; rw [foldl_keeps (·.tor) _ (fun s p => by simp) _ _]; simp
@[simp] theorem State.store_irl (a : Nat) (l : List Nat) : (s.store a l).irl = s.irl := by
  unfold State.store; dsimp only; simp only [State.wrL_irl, State.invalidate_irl]; rw [foldl_keeps (·.irl) _ (fun s p => by simp) _ _]; simp
@[simp] theorem State.store_mons (a : Nat) (l : List Nat) : (s.store a l).mons = s.mons := by
  unfold State.store; dsimp only; simp only [State.wrL_mons, State.invalidate_mons]; rw [foldl_keeps (·.mons) _ (fun s p => by simp) _ _]; simp
@[simp] theorem State.store_monEnds (a : Nat) (l : List Nat) : (s.store a l).monEnds = s.monEnds := by
  unfold State.store; dsimp only; simp only [State.wrL_monEnds, State.invalidate_monEnds]; rw [foldl_keeps (·.monEnds) _ (fun s p => by simp) _ _]; simp
@[simp] theorem State.store_waits (a : Nat) (l : List Nat) : (s.store a l).waits = s.waits := by
  unfold State.store; dsimp only; simp only [State.wrL_waits, State.invalidate_waits]; rw [foldl_keeps (·.waits) _ (fun s p => by simp) _ _]; simp
@[simp] theorem State.store_now (a : Nat) (l : List Nat) : (s.store a l).now = s.now := by
  unfold State.store; dsimp only; simp only [State.wrL_now, State.invalidate_now]; rw [foldl_keeps (·.now) _ (fun s p => by simp) _ _]; simp
@[simp] theorem State.store_perst (a : Nat) (l : List Nat) : (s.store a l).perst = s.perst := by
  unfold State.store; dsimp only; simp only [State.wrL_perst, State.invalidate_perst]; rw [foldl_keeps (·.perst) _ (fun s p => by simp) _ _]; simp
@[simp] theorem State.store_slot (a : Nat) (l : List Nat) : (s.store a l).slot = s.slot := by
  unfold State.store; dsimp only; simp only [State.wrL_slot, State.invalidate_slot]; rw [foldl_keeps (·.slot) _ (fun s p => by simp) _ _]; simp
@[simp] theorem State.store_badRamp (a : Nat) (l : List Nat) : (s.store a l).badRamp = s.badRamp := by
  unfold State.store; dsimp only; simp only [State.wrL_badRamp, State.invalidate_badRamp]; rw [foldl_keeps (·.badRamp) _ (fun s p => by simp) _ _]; simp
@[simp] theorem State.store_rampCure (a : Nat) (l : List Nat) : (s.store a l).rampCure = s.rampCure := by
  unfold State.store; dsimp only; simp only [State.wrL_rampCure, State.invalidate_rampCure]; rw [foldl_keeps (·.rampCure) _ (fun s p => by simp) _ _]; simp
@[simp] theorem State.store_railUntil (a : Nat) (l : List Nat) : (s.store a l).railUntil = s.railUntil := by
  unfold State.store; dsimp only; simp only [State.wrL_railUntil, State.invalidate_railUntil]; rw [foldl_keeps (·.railUntil) _ (fun s p => by simp) _ _]; simp
@[simp] theorem State.store_dead (a : Nat) (l : List Nat) : (s.store a l).dead = s.dead := by
  unfold State.store; dsimp only; simp only [State.wrL_dead, State.invalidate_dead]; rw [foldl_keeps (·.dead) _ (fun s p => by simp) _ _]; simp
@[simp] theorem State.store_tripped (a : Nat) (l : List Nat) : (s.store a l).tripped = s.tripped := by
  unfold State.store; dsimp only; simp only [State.wrL_tripped, State.invalidate_tripped]; rw [foldl_keeps (·.tripped) _ (fun s p => by simp) _ _]; simp
@[simp] theorem State.store_thermTripN (a : Nat) (l : List Nat) : (s.store a l).thermTripN = s.thermTripN := by
  unfold State.store; dsimp only; simp only [State.wrL_thermTripN, State.invalidate_thermTripN]; rw [foldl_keeps (·.thermTripN) _ (fun s p => by simp) _ _]; simp
@[simp] theorem State.store_refclkLost (a : Nat) (l : List Nat) : (s.store a l).refclkLost = s.refclkLost := by
  unfold State.store; dsimp only; simp only [State.wrL_refclkLost, State.invalidate_refclkLost]; rw [foldl_keeps (·.refclkLost) _ (fun s p => by simp) _ _]; simp
@[simp] theorem State.store_lpLost (a : Nat) (l : List Nat) : (s.store a l).lpLost = s.lpLost := by
  unfold State.store; dsimp only; simp only [State.wrL_lpLost, State.invalidate_lpLost]; rw [foldl_keeps (·.lpLost) _ (fun s p => by simp) _ _]; simp
@[simp] theorem State.store_image (a : Nat) (l : List Nat) : (s.store a l).image = s.image := by
  unfold State.store; dsimp only; simp only [State.wrL_image, State.invalidate_image]; rw [foldl_keeps (·.image) _ (fun s p => by simp) _ _]; simp
@[simp] theorem State.store_imageSvn (a : Nat) (l : List Nat) : (s.store a l).imageSvn = s.imageSvn := by
  unfold State.store; dsimp only; simp only [State.wrL_imageSvn, State.invalidate_imageSvn]; rw [foldl_keeps (·.imageSvn) _ (fun s p => by simp) _ _]; simp
@[simp] theorem State.store_imageDigest (a : Nat) (l : List Nat) : (s.store a l).imageDigest = s.imageDigest := by
  unfold State.store; dsimp only; simp only [State.wrL_imageDigest, State.invalidate_imageDigest]; rw [foldl_keeps (·.imageDigest) _ (fun s p => by simp) _ _]; simp
@[simp] theorem State.store_idKey (a : Nat) (l : List Nat) : (s.store a l).idKey = s.idKey := by
  unfold State.store; dsimp only; simp only [State.wrL_idKey, State.invalidate_idKey]; rw [foldl_keeps (·.idKey) _ (fun s p => by simp) _ _]; simp
@[simp] theorem State.store_attest (a : Nat) (l : List Nat) : (s.store a l).attest = s.attest := by
  unfold State.store; dsimp only; simp only [State.wrL_attest, State.invalidate_attest]; rw [foldl_keeps (·.attest) _ (fun s p => by simp) _ _]; simp
@[simp] theorem State.store_bundle (a : Nat) (l : List Nat) : (s.store a l).bundle = s.bundle := by
  unfold State.store; dsimp only; simp only [State.wrL_bundle, State.invalidate_bundle]; rw [foldl_keeps (·.bundle) _ (fun s p => by simp) _ _]; simp
@[simp] theorem State.store_bundleCopy (a : Nat) (l : List Nat) : (s.store a l).bundleCopy = s.bundleCopy := by
  unfold State.store; dsimp only; simp only [State.wrL_bundleCopy, State.invalidate_bundleCopy]; rw [foldl_keeps (·.bundleCopy) _ (fun s p => by simp) _ _]; simp
@[simp] theorem State.store_nonce (a : Nat) (l : List Nat) : (s.store a l).nonce = s.nonce := by
  unfold State.store; dsimp only; simp only [State.wrL_nonce, State.invalidate_nonce]; rw [foldl_keeps (·.nonce) _ (fun s p => by simp) _ _]; simp
@[simp] theorem State.store_tierSize (a : Nat) (l : List Nat) : (s.store a l).tierSize = s.tierSize := by
  unfold State.store; dsimp only; simp only [State.wrL_tierSize, State.invalidate_tierSize]; rw [foldl_keeps (·.tierSize) _ (fun s p => by simp) _ _]; simp
@[simp] theorem State.store_powerUw (a : Nat) (l : List Nat) : (s.store a l).powerUw = s.powerUw := by
  unfold State.store; dsimp only; simp only [State.wrL_powerUw, State.invalidate_powerUw]; rw [foldl_keeps (·.powerUw) _ (fun s p => by simp) _ _]; simp
@[simp] theorem State.store_rails (a : Nat) (l : List Nat) : (s.store a l).rails = s.rails := by
  unfold State.store; dsimp only; simp only [State.wrL_rails, State.invalidate_rails]; rw [foldl_keeps (·.rails) _ (fun s p => by simp) _ _]; simp
@[simp] theorem State.store_avsFails (a : Nat) (l : List Nat) : (s.store a l).avsFails = s.avsFails := by
  unfold State.store; dsimp only; simp only [State.wrL_avsFails, State.invalidate_avsFails]; rw [foldl_keeps (·.avsFails) _ (fun s p => by simp) _ _]; simp
@[simp] theorem State.store_fresh (a : Nat) (l : List Nat) : (s.store a l).fresh = s.fresh := by
  unfold State.store; dsimp only; simp only [State.wrL_fresh, State.invalidate_fresh]; rw [foldl_keeps (·.fresh) _ (fun s p => by simp) _ _]; simp
@[simp] theorem State.store_pending (a : Nat) (l : List Nat) : (s.store a l).pending = s.pending := by
  unfold State.store; dsimp only; simp only [State.wrL_pending, State.invalidate_pending]; rw [foldl_keeps (·.pending) _ (fun s p => by simp) _ _]; simp

/-! ### wrPart -/

@[simp] theorem State.wrPart_eff (a : Nat) (l : List Nat) : ((s.wrPart a l).1).eff = s.eff := by
  unfold State.wrPart; (try dsimp only); (repeat' split) <;> simp
@[simp] theorem State.wrPart_host (a : Nat) (l : List Nat) : ((s.wrPart a l).1).host = s.host := by
  unfold State.wrPart; (try dsimp only); (repeat' split) <;> simp
@[simp] theorem State.wrPart_fuses (a : Nat) (l : List Nat) : ((s.wrPart a l).1).fuses = s.fuses := by
  unfold State.wrPart; (try dsimp only); (repeat' split) <;> simp
@[simp] theorem State.wrPart_nvm (a : Nat) (l : List Nat) : ((s.wrPart a l).1).nvm = s.nvm := by
  unfold State.wrPart; (try dsimp only); (repeat' split) <;> simp
@[simp] theorem State.wrPart_gaths (a : Nat) (l : List Nat) : ((s.wrPart a l).1).gaths = s.gaths := by
  unfold State.wrPart; (try dsimp only); (repeat' split) <;> simp
@[simp] theorem State.wrPart_queues (a : Nat) (l : List Nat) : ((s.wrPart a l).1).queues = s.queues := by
  unfold State.wrPart; (try dsimp only); (repeat' split) <;> simp
@[simp] theorem State.wrPart_yarders (a : Nat) (l : List Nat) : ((s.wrPart a l).1).yarders = s.yarders := by
  unfold State.wrPart; (try dsimp only); (repeat' split) <;> simp
@[simp] theorem State.wrPart_colls (a : Nat) (l : List Nat) : ((s.wrPart a l).1).colls = s.colls := by
  unfold State.wrPart; (try dsimp only); (repeat' split) <;> simp
@[simp] theorem State.wrPart_signals (a : Nat) (l : List Nat) : ((s.wrPart a l).1).signals = s.signals := by
  unfold State.wrPart; (try dsimp only); (repeat' split) <;> simp
@[simp] theorem State.wrPart_mtok (a : Nat) (l : List Nat) : ((s.wrPart a l).1).mtok = s.mtok := by
  unfold State.wrPart; (try dsimp only); (repeat' split) <;> simp
@[simp] theorem State.wrPart_mOvf (a : Nat) (l : List Nat) : ((s.wrPart a l).1).mOvf = s.mOvf := by
  unfold State.wrPart; (try dsimp only); (repeat' split) <;> simp
@[simp] theorem State.wrPart_tor (a : Nat) (l : List Nat) : ((s.wrPart a l).1).tor = s.tor := by
  unfold State.wrPart; (try dsimp only); (repeat' split) <;> simp
@[simp] theorem State.wrPart_irl (a : Nat) (l : List Nat) : ((s.wrPart a l).1).irl = s.irl := by
  unfold State.wrPart; (try dsimp only); (repeat' split) <;> simp
@[simp] theorem State.wrPart_mons (a : Nat) (l : List Nat) : ((s.wrPart a l).1).mons = s.mons := by
  unfold State.wrPart; (try dsimp only); (repeat' split) <;> simp
@[simp] theorem State.wrPart_monEnds (a : Nat) (l : List Nat) : ((s.wrPart a l).1).monEnds = s.monEnds := by
  unfold State.wrPart; (try dsimp only); (repeat' split) <;> simp
@[simp] theorem State.wrPart_waits (a : Nat) (l : List Nat) : ((s.wrPart a l).1).waits = s.waits := by
  unfold State.wrPart; (try dsimp only); (repeat' split) <;> simp
@[simp] theorem State.wrPart_now (a : Nat) (l : List Nat) : ((s.wrPart a l).1).now = s.now := by
  unfold State.wrPart; (try dsimp only); (repeat' split) <;> simp
@[simp] theorem State.wrPart_perst (a : Nat) (l : List Nat) : ((s.wrPart a l).1).perst = s.perst := by
  unfold State.wrPart; (try dsimp only); (repeat' split) <;> simp
@[simp] theorem State.wrPart_slot (a : Nat) (l : List Nat) : ((s.wrPart a l).1).slot = s.slot := by
  unfold State.wrPart; (try dsimp only); (repeat' split) <;> simp
@[simp] theorem State.wrPart_badRamp (a : Nat) (l : List Nat) : ((s.wrPart a l).1).badRamp = s.badRamp := by
  unfold State.wrPart; (try dsimp only); (repeat' split) <;> simp
@[simp] theorem State.wrPart_rampCure (a : Nat) (l : List Nat) : ((s.wrPart a l).1).rampCure = s.rampCure := by
  unfold State.wrPart; (try dsimp only); (repeat' split) <;> simp
@[simp] theorem State.wrPart_railUntil (a : Nat) (l : List Nat) : ((s.wrPart a l).1).railUntil = s.railUntil := by
  unfold State.wrPart; (try dsimp only); (repeat' split) <;> simp
@[simp] theorem State.wrPart_dead (a : Nat) (l : List Nat) : ((s.wrPart a l).1).dead = s.dead := by
  unfold State.wrPart; (try dsimp only); (repeat' split) <;> simp
@[simp] theorem State.wrPart_tripped (a : Nat) (l : List Nat) : ((s.wrPart a l).1).tripped = s.tripped := by
  unfold State.wrPart; (try dsimp only); (repeat' split) <;> simp
@[simp] theorem State.wrPart_thermTripN (a : Nat) (l : List Nat) : ((s.wrPart a l).1).thermTripN = s.thermTripN := by
  unfold State.wrPart; (try dsimp only); (repeat' split) <;> simp
@[simp] theorem State.wrPart_refclkLost (a : Nat) (l : List Nat) : ((s.wrPart a l).1).refclkLost = s.refclkLost := by
  unfold State.wrPart; (try dsimp only); (repeat' split) <;> simp
@[simp] theorem State.wrPart_lpLost (a : Nat) (l : List Nat) : ((s.wrPart a l).1).lpLost = s.lpLost := by
  unfold State.wrPart; (try dsimp only); (repeat' split) <;> simp
@[simp] theorem State.wrPart_image (a : Nat) (l : List Nat) : ((s.wrPart a l).1).image = s.image := by
  unfold State.wrPart; (try dsimp only); (repeat' split) <;> simp
@[simp] theorem State.wrPart_imageSvn (a : Nat) (l : List Nat) : ((s.wrPart a l).1).imageSvn = s.imageSvn := by
  unfold State.wrPart; (try dsimp only); (repeat' split) <;> simp
@[simp] theorem State.wrPart_imageDigest (a : Nat) (l : List Nat) : ((s.wrPart a l).1).imageDigest = s.imageDigest := by
  unfold State.wrPart; (try dsimp only); (repeat' split) <;> simp
@[simp] theorem State.wrPart_idKey (a : Nat) (l : List Nat) : ((s.wrPart a l).1).idKey = s.idKey := by
  unfold State.wrPart; (try dsimp only); (repeat' split) <;> simp
@[simp] theorem State.wrPart_attest (a : Nat) (l : List Nat) : ((s.wrPart a l).1).attest = s.attest := by
  unfold State.wrPart; (try dsimp only); (repeat' split) <;> simp
@[simp] theorem State.wrPart_bundle (a : Nat) (l : List Nat) : ((s.wrPart a l).1).bundle = s.bundle := by
  unfold State.wrPart; (try dsimp only); (repeat' split) <;> simp
@[simp] theorem State.wrPart_bundleCopy (a : Nat) (l : List Nat) : ((s.wrPart a l).1).bundleCopy = s.bundleCopy := by
  unfold State.wrPart; (try dsimp only); (repeat' split) <;> simp
@[simp] theorem State.wrPart_nonce (a : Nat) (l : List Nat) : ((s.wrPart a l).1).nonce = s.nonce := by
  unfold State.wrPart; (try dsimp only); (repeat' split) <;> simp
@[simp] theorem State.wrPart_tierSize (a : Nat) (l : List Nat) : ((s.wrPart a l).1).tierSize = s.tierSize := by
  unfold State.wrPart; (try dsimp only); (repeat' split) <;> simp
@[simp] theorem State.wrPart_powerUw (a : Nat) (l : List Nat) : ((s.wrPart a l).1).powerUw = s.powerUw := by
  unfold State.wrPart; (try dsimp only); (repeat' split) <;> simp
@[simp] theorem State.wrPart_rails (a : Nat) (l : List Nat) : ((s.wrPart a l).1).rails = s.rails := by
  unfold State.wrPart; (try dsimp only); (repeat' split) <;> simp
@[simp] theorem State.wrPart_avsFails (a : Nat) (l : List Nat) : ((s.wrPart a l).1).avsFails = s.avsFails := by
  unfold State.wrPart; (try dsimp only); (repeat' split) <;> simp
@[simp] theorem State.wrPart_fresh (a : Nat) (l : List Nat) : ((s.wrPart a l).1).fresh = s.fresh := by
  unfold State.wrPart; (try dsimp only); (repeat' split) <;> simp
@[simp] theorem State.wrPart_pending (a : Nat) (l : List Nat) : ((s.wrPart a l).1).pending = s.pending := by
  unfold State.wrPart; (try dsimp only); (repeat' split) <;> simp

/-! ### putRecord -/

@[simp] theorem State.putRecord_eff (a v : Nat) : ((s.putRecord a v).1).eff = s.eff := by
  unfold State.putRecord; (try dsimp only); (repeat' split) <;> simp
@[simp] theorem State.putRecord_host (a v : Nat) : ((s.putRecord a v).1).host = s.host := by
  unfold State.putRecord; (try dsimp only); (repeat' split) <;> simp
@[simp] theorem State.putRecord_fuses (a v : Nat) : ((s.putRecord a v).1).fuses = s.fuses := by
  unfold State.putRecord; (try dsimp only); (repeat' split) <;> simp
@[simp] theorem State.putRecord_nvm (a v : Nat) : ((s.putRecord a v).1).nvm = s.nvm := by
  unfold State.putRecord; (try dsimp only); (repeat' split) <;> simp
@[simp] theorem State.putRecord_gaths (a v : Nat) : ((s.putRecord a v).1).gaths = s.gaths := by
  unfold State.putRecord; (try dsimp only); (repeat' split) <;> simp
@[simp] theorem State.putRecord_queues (a v : Nat) : ((s.putRecord a v).1).queues = s.queues := by
  unfold State.putRecord; (try dsimp only); (repeat' split) <;> simp
@[simp] theorem State.putRecord_yarders (a v : Nat) : ((s.putRecord a v).1).yarders = s.yarders := by
  unfold State.putRecord; (try dsimp only); (repeat' split) <;> simp
@[simp] theorem State.putRecord_colls (a v : Nat) : ((s.putRecord a v).1).colls = s.colls := by
  unfold State.putRecord; (try dsimp only); (repeat' split) <;> simp
@[simp] theorem State.putRecord_signals (a v : Nat) : ((s.putRecord a v).1).signals = s.signals := by
  unfold State.putRecord; (try dsimp only); (repeat' split) <;> simp
@[simp] theorem State.putRecord_mtok (a v : Nat) : ((s.putRecord a v).1).mtok = s.mtok := by
  unfold State.putRecord; (try dsimp only); (repeat' split) <;> simp
@[simp] theorem State.putRecord_mOvf (a v : Nat) : ((s.putRecord a v).1).mOvf = s.mOvf := by
  unfold State.putRecord; (try dsimp only); (repeat' split) <;> simp
@[simp] theorem State.putRecord_tor (a v : Nat) : ((s.putRecord a v).1).tor = s.tor := by
  unfold State.putRecord; (try dsimp only); (repeat' split) <;> simp
@[simp] theorem State.putRecord_irl (a v : Nat) : ((s.putRecord a v).1).irl = s.irl := by
  unfold State.putRecord; (try dsimp only); (repeat' split) <;> simp
@[simp] theorem State.putRecord_mons (a v : Nat) : ((s.putRecord a v).1).mons = s.mons := by
  unfold State.putRecord; (try dsimp only); (repeat' split) <;> simp
@[simp] theorem State.putRecord_monEnds (a v : Nat) : ((s.putRecord a v).1).monEnds = s.monEnds := by
  unfold State.putRecord; (try dsimp only); (repeat' split) <;> simp
@[simp] theorem State.putRecord_waits (a v : Nat) : ((s.putRecord a v).1).waits = s.waits := by
  unfold State.putRecord; (try dsimp only); (repeat' split) <;> simp
@[simp] theorem State.putRecord_now (a v : Nat) : ((s.putRecord a v).1).now = s.now := by
  unfold State.putRecord; (try dsimp only); (repeat' split) <;> simp
@[simp] theorem State.putRecord_perst (a v : Nat) : ((s.putRecord a v).1).perst = s.perst := by
  unfold State.putRecord; (try dsimp only); (repeat' split) <;> simp
@[simp] theorem State.putRecord_slot (a v : Nat) : ((s.putRecord a v).1).slot = s.slot := by
  unfold State.putRecord; (try dsimp only); (repeat' split) <;> simp
@[simp] theorem State.putRecord_badRamp (a v : Nat) : ((s.putRecord a v).1).badRamp = s.badRamp := by
  unfold State.putRecord; (try dsimp only); (repeat' split) <;> simp
@[simp] theorem State.putRecord_rampCure (a v : Nat) : ((s.putRecord a v).1).rampCure = s.rampCure := by
  unfold State.putRecord; (try dsimp only); (repeat' split) <;> simp
@[simp] theorem State.putRecord_railUntil (a v : Nat) : ((s.putRecord a v).1).railUntil = s.railUntil := by
  unfold State.putRecord; (try dsimp only); (repeat' split) <;> simp
@[simp] theorem State.putRecord_dead (a v : Nat) : ((s.putRecord a v).1).dead = s.dead := by
  unfold State.putRecord; (try dsimp only); (repeat' split) <;> simp
@[simp] theorem State.putRecord_tripped (a v : Nat) : ((s.putRecord a v).1).tripped = s.tripped := by
  unfold State.putRecord; (try dsimp only); (repeat' split) <;> simp
@[simp] theorem State.putRecord_thermTripN (a v : Nat) : ((s.putRecord a v).1).thermTripN = s.thermTripN := by
  unfold State.putRecord; (try dsimp only); (repeat' split) <;> simp
@[simp] theorem State.putRecord_refclkLost (a v : Nat) : ((s.putRecord a v).1).refclkLost = s.refclkLost := by
  unfold State.putRecord; (try dsimp only); (repeat' split) <;> simp
@[simp] theorem State.putRecord_lpLost (a v : Nat) : ((s.putRecord a v).1).lpLost = s.lpLost := by
  unfold State.putRecord; (try dsimp only); (repeat' split) <;> simp
@[simp] theorem State.putRecord_image (a v : Nat) : ((s.putRecord a v).1).image = s.image := by
  unfold State.putRecord; (try dsimp only); (repeat' split) <;> simp
@[simp] theorem State.putRecord_imageSvn (a v : Nat) : ((s.putRecord a v).1).imageSvn = s.imageSvn := by
  unfold State.putRecord; (try dsimp only); (repeat' split) <;> simp
@[simp] theorem State.putRecord_imageDigest (a v : Nat) : ((s.putRecord a v).1).imageDigest = s.imageDigest := by
  unfold State.putRecord; (try dsimp only); (repeat' split) <;> simp
@[simp] theorem State.putRecord_idKey (a v : Nat) : ((s.putRecord a v).1).idKey = s.idKey := by
  unfold State.putRecord; (try dsimp only); (repeat' split) <;> simp
@[simp] theorem State.putRecord_attest (a v : Nat) : ((s.putRecord a v).1).attest = s.attest := by
  unfold State.putRecord; (try dsimp only); (repeat' split) <;> simp
@[simp] theorem State.putRecord_bundle (a v : Nat) : ((s.putRecord a v).1).bundle = s.bundle := by
  unfold State.putRecord; (try dsimp only); (repeat' split) <;> simp
@[simp] theorem State.putRecord_bundleCopy (a v : Nat) : ((s.putRecord a v).1).bundleCopy = s.bundleCopy := by
  unfold State.putRecord; (try dsimp only); (repeat' split) <;> simp
@[simp] theorem State.putRecord_nonce (a v : Nat) : ((s.putRecord a v).1).nonce = s.nonce := by
  unfold State.putRecord; (try dsimp only); (repeat' split) <;> simp
@[simp] theorem State.putRecord_tierSize (a v : Nat) : ((s.putRecord a v).1).tierSize = s.tierSize := by
  unfold State.putRecord; (try dsimp only); (repeat' split) <;> simp
@[simp] theorem State.putRecord_powerUw (a v : Nat) : ((s.putRecord a v).1).powerUw = s.powerUw := by
  unfold State.putRecord; (try dsimp only); (repeat' split) <;> simp
@[simp] theorem State.putRecord_rails (a v : Nat) : ((s.putRecord a v).1).rails = s.rails := by
  unfold State.putRecord; (try dsimp only); (repeat' split) <;> simp
@[simp] theorem State.putRecord_avsFails (a v : Nat) : ((s.putRecord a v).1).avsFails = s.avsFails := by
  unfold State.putRecord; (try dsimp only); (repeat' split) <;> simp
@[simp] theorem State.putRecord_fresh (a v : Nat) : ((s.putRecord a v).1).fresh = s.fresh := by
  unfold State.putRecord; (try dsimp only); (repeat' split) <;> simp
@[simp] theorem State.putRecord_pending (a v : Nat) : ((s.putRecord a v).1).pending = s.pending := by
  unfold State.putRecord; (try dsimp only); (repeat' split) <;> simp

/-! ### wrRecord -/

@[simp] theorem State.wrRecord_eff (a v : Nat) : (s.wrRecord a v).eff = s.eff := by
  first | rfl | (unfold State.wrRecord; (try dsimp only); (repeat' split) <;> first | rfl | simp)
@[simp] theorem State.wrRecord_host (a v : Nat) : (s.wrRecord a v).host = s.host := by
  first | rfl | (unfold State.wrRecord; (try dsimp only); (repeat' split) <;> first | rfl | simp)
@[simp] theorem State.wrRecord_fuses (a v : Nat) : (s.wrRecord a v).fuses = s.fuses := by
  first | rfl | (unfold State.wrRecord; (try dsimp only); (repeat' split) <;> first | rfl | simp)
@[simp] theorem State.wrRecord_nvm (a v : Nat) : (s.wrRecord a v).nvm = s.nvm := by
  first | rfl | (unfold State.wrRecord; (try dsimp only); (repeat' split) <;> first | rfl | simp)
@[simp] theorem State.wrRecord_gaths (a v : Nat) : (s.wrRecord a v).gaths = s.gaths := by
  first | rfl | (unfold State.wrRecord; (try dsimp only); (repeat' split) <;> first | rfl | simp)
@[simp] theorem State.wrRecord_queues (a v : Nat) : (s.wrRecord a v).queues = s.queues := by
  first | rfl | (unfold State.wrRecord; (try dsimp only); (repeat' split) <;> first | rfl | simp)
@[simp] theorem State.wrRecord_yarders (a v : Nat) : (s.wrRecord a v).yarders = s.yarders := by
  first | rfl | (unfold State.wrRecord; (try dsimp only); (repeat' split) <;> first | rfl | simp)
@[simp] theorem State.wrRecord_colls (a v : Nat) : (s.wrRecord a v).colls = s.colls := by
  first | rfl | (unfold State.wrRecord; (try dsimp only); (repeat' split) <;> first | rfl | simp)
@[simp] theorem State.wrRecord_signals (a v : Nat) : (s.wrRecord a v).signals = s.signals := by
  first | rfl | (unfold State.wrRecord; (try dsimp only); (repeat' split) <;> first | rfl | simp)
@[simp] theorem State.wrRecord_mtok (a v : Nat) : (s.wrRecord a v).mtok = s.mtok := by
  first | rfl | (unfold State.wrRecord; (try dsimp only); (repeat' split) <;> first | rfl | simp)
@[simp] theorem State.wrRecord_mOvf (a v : Nat) : (s.wrRecord a v).mOvf = s.mOvf := by
  first | rfl | (unfold State.wrRecord; (try dsimp only); (repeat' split) <;> first | rfl | simp)
@[simp] theorem State.wrRecord_tor (a v : Nat) : (s.wrRecord a v).tor = s.tor := by
  first | rfl | (unfold State.wrRecord; (try dsimp only); (repeat' split) <;> first | rfl | simp)
@[simp] theorem State.wrRecord_irl (a v : Nat) : (s.wrRecord a v).irl = s.irl := by
  first | rfl | (unfold State.wrRecord; (try dsimp only); (repeat' split) <;> first | rfl | simp)
@[simp] theorem State.wrRecord_mons (a v : Nat) : (s.wrRecord a v).mons = s.mons := by
  first | rfl | (unfold State.wrRecord; (try dsimp only); (repeat' split) <;> first | rfl | simp)
@[simp] theorem State.wrRecord_monEnds (a v : Nat) : (s.wrRecord a v).monEnds = s.monEnds := by
  first | rfl | (unfold State.wrRecord; (try dsimp only); (repeat' split) <;> first | rfl | simp)
@[simp] theorem State.wrRecord_waits (a v : Nat) : (s.wrRecord a v).waits = s.waits := by
  first | rfl | (unfold State.wrRecord; (try dsimp only); (repeat' split) <;> first | rfl | simp)
@[simp] theorem State.wrRecord_now (a v : Nat) : (s.wrRecord a v).now = s.now := by
  first | rfl | (unfold State.wrRecord; (try dsimp only); (repeat' split) <;> first | rfl | simp)
@[simp] theorem State.wrRecord_perst (a v : Nat) : (s.wrRecord a v).perst = s.perst := by
  first | rfl | (unfold State.wrRecord; (try dsimp only); (repeat' split) <;> first | rfl | simp)
@[simp] theorem State.wrRecord_slot (a v : Nat) : (s.wrRecord a v).slot = s.slot := by
  first | rfl | (unfold State.wrRecord; (try dsimp only); (repeat' split) <;> first | rfl | simp)
@[simp] theorem State.wrRecord_badRamp (a v : Nat) : (s.wrRecord a v).badRamp = s.badRamp := by
  first | rfl | (unfold State.wrRecord; (try dsimp only); (repeat' split) <;> first | rfl | simp)
@[simp] theorem State.wrRecord_rampCure (a v : Nat) : (s.wrRecord a v).rampCure = s.rampCure := by
  first | rfl | (unfold State.wrRecord; (try dsimp only); (repeat' split) <;> first | rfl | simp)
@[simp] theorem State.wrRecord_railUntil (a v : Nat) : (s.wrRecord a v).railUntil = s.railUntil := by
  first | rfl | (unfold State.wrRecord; (try dsimp only); (repeat' split) <;> first | rfl | simp)
@[simp] theorem State.wrRecord_dead (a v : Nat) : (s.wrRecord a v).dead = s.dead := by
  first | rfl | (unfold State.wrRecord; (try dsimp only); (repeat' split) <;> first | rfl | simp)
@[simp] theorem State.wrRecord_tripped (a v : Nat) : (s.wrRecord a v).tripped = s.tripped := by
  first | rfl | (unfold State.wrRecord; (try dsimp only); (repeat' split) <;> first | rfl | simp)
@[simp] theorem State.wrRecord_thermTripN (a v : Nat) : (s.wrRecord a v).thermTripN = s.thermTripN := by
  first | rfl | (unfold State.wrRecord; (try dsimp only); (repeat' split) <;> first | rfl | simp)
@[simp] theorem State.wrRecord_refclkLost (a v : Nat) : (s.wrRecord a v).refclkLost = s.refclkLost := by
  first | rfl | (unfold State.wrRecord; (try dsimp only); (repeat' split) <;> first | rfl | simp)
@[simp] theorem State.wrRecord_lpLost (a v : Nat) : (s.wrRecord a v).lpLost = s.lpLost := by
  first | rfl | (unfold State.wrRecord; (try dsimp only); (repeat' split) <;> first | rfl | simp)
@[simp] theorem State.wrRecord_image (a v : Nat) : (s.wrRecord a v).image = s.image := by
  first | rfl | (unfold State.wrRecord; (try dsimp only); (repeat' split) <;> first | rfl | simp)
@[simp] theorem State.wrRecord_imageSvn (a v : Nat) : (s.wrRecord a v).imageSvn = s.imageSvn := by
  first | rfl | (unfold State.wrRecord; (try dsimp only); (repeat' split) <;> first | rfl | simp)
@[simp] theorem State.wrRecord_imageDigest (a v : Nat) : (s.wrRecord a v).imageDigest = s.imageDigest := by
  first | rfl | (unfold State.wrRecord; (try dsimp only); (repeat' split) <;> first | rfl | simp)
@[simp] theorem State.wrRecord_idKey (a v : Nat) : (s.wrRecord a v).idKey = s.idKey := by
  first | rfl | (unfold State.wrRecord; (try dsimp only); (repeat' split) <;> first | rfl | simp)
@[simp] theorem State.wrRecord_attest (a v : Nat) : (s.wrRecord a v).attest = s.attest := by
  first | rfl | (unfold State.wrRecord; (try dsimp only); (repeat' split) <;> first | rfl | simp)
@[simp] theorem State.wrRecord_bundle (a v : Nat) : (s.wrRecord a v).bundle = s.bundle := by
  first | rfl | (unfold State.wrRecord; (try dsimp only); (repeat' split) <;> first | rfl | simp)
@[simp] theorem State.wrRecord_bundleCopy (a v : Nat) : (s.wrRecord a v).bundleCopy = s.bundleCopy := by
  first | rfl | (unfold State.wrRecord; (try dsimp only); (repeat' split) <;> first | rfl | simp)
@[simp] theorem State.wrRecord_nonce (a v : Nat) : (s.wrRecord a v).nonce = s.nonce := by
  first | rfl | (unfold State.wrRecord; (try dsimp only); (repeat' split) <;> first | rfl | simp)
@[simp] theorem State.wrRecord_tierSize (a v : Nat) : (s.wrRecord a v).tierSize = s.tierSize := by
  first | rfl | (unfold State.wrRecord; (try dsimp only); (repeat' split) <;> first | rfl | simp)
@[simp] theorem State.wrRecord_powerUw (a v : Nat) : (s.wrRecord a v).powerUw = s.powerUw := by
  first | rfl | (unfold State.wrRecord; (try dsimp only); (repeat' split) <;> first | rfl | simp)
@[simp] theorem State.wrRecord_rails (a v : Nat) : (s.wrRecord a v).rails = s.rails := by
  first | rfl | (unfold State.wrRecord; (try dsimp only); (repeat' split) <;> first | rfl | simp)
@[simp] theorem State.wrRecord_avsFails (a v : Nat) : (s.wrRecord a v).avsFails = s.avsFails := by
  first | rfl | (unfold State.wrRecord; (try dsimp only); (repeat' split) <;> first | rfl | simp)
@[simp] theorem State.wrRecord_fresh (a v : Nat) : (s.wrRecord a v).fresh = s.fresh := by
  first | rfl | (unfold State.wrRecord; (try dsimp only); (repeat' split) <;> first | rfl | simp)
@[simp] theorem State.wrRecord_pending (a v : Nat) : (s.wrRecord a v).pending = s.pending := by
  first | rfl | (unfold State.wrRecord; (try dsimp only); (repeat' split) <;> first | rfl | simp)

/-! ### endRun -/

@[simp] theorem State.endRun_eff (r : ListRun) (status engine err record arg : Nat) : (s.endRun r status engine err record arg).eff = s.eff := by
  first | rfl | (unfold State.endRun; (try dsimp only); (repeat' split) <;> first | rfl | simp)
@[simp] theorem State.endRun_host (r : ListRun) (status engine err record arg : Nat) : (s.endRun r status engine err record arg).host = s.host := by
  first | rfl | (unfold State.endRun; (try dsimp only); (repeat' split) <;> first | rfl | simp)
@[simp] theorem State.endRun_fuses (r : ListRun) (status engine err record arg : Nat) : (s.endRun r status engine err record arg).fuses = s.fuses := by
  first | rfl | (unfold State.endRun; (try dsimp only); (repeat' split) <;> first | rfl | simp)
@[simp] theorem State.endRun_nvm (r : ListRun) (status engine err record arg : Nat) : (s.endRun r status engine err record arg).nvm = s.nvm := by
  first | rfl | (unfold State.endRun; (try dsimp only); (repeat' split) <;> first | rfl | simp)
@[simp] theorem State.endRun_gaths (r : ListRun) (status engine err record arg : Nat) : (s.endRun r status engine err record arg).gaths = s.gaths := by
  first | rfl | (unfold State.endRun; (try dsimp only); (repeat' split) <;> first | rfl | simp)
@[simp] theorem State.endRun_queues (r : ListRun) (status engine err record arg : Nat) : (s.endRun r status engine err record arg).queues = s.queues := by
  first | rfl | (unfold State.endRun; (try dsimp only); (repeat' split) <;> first | rfl | simp)
@[simp] theorem State.endRun_yarders (r : ListRun) (status engine err record arg : Nat) : (s.endRun r status engine err record arg).yarders = s.yarders := by
  first | rfl | (unfold State.endRun; (try dsimp only); (repeat' split) <;> first | rfl | simp)
@[simp] theorem State.endRun_colls (r : ListRun) (status engine err record arg : Nat) : (s.endRun r status engine err record arg).colls = s.colls := by
  first | rfl | (unfold State.endRun; (try dsimp only); (repeat' split) <;> first | rfl | simp)
@[simp] theorem State.endRun_signals (r : ListRun) (status engine err record arg : Nat) : (s.endRun r status engine err record arg).signals = s.signals := by
  first | rfl | (unfold State.endRun; (try dsimp only); (repeat' split) <;> first | rfl | simp)
@[simp] theorem State.endRun_mtok (r : ListRun) (status engine err record arg : Nat) : (s.endRun r status engine err record arg).mtok = s.mtok := by
  first | rfl | (unfold State.endRun; (try dsimp only); (repeat' split) <;> first | rfl | simp)
@[simp] theorem State.endRun_mOvf (r : ListRun) (status engine err record arg : Nat) : (s.endRun r status engine err record arg).mOvf = s.mOvf := by
  first | rfl | (unfold State.endRun; (try dsimp only); (repeat' split) <;> first | rfl | simp)
@[simp] theorem State.endRun_tor (r : ListRun) (status engine err record arg : Nat) : (s.endRun r status engine err record arg).tor = s.tor := by
  first | rfl | (unfold State.endRun; (try dsimp only); (repeat' split) <;> first | rfl | simp)
@[simp] theorem State.endRun_irl (r : ListRun) (status engine err record arg : Nat) : (s.endRun r status engine err record arg).irl = s.irl := by
  first | rfl | (unfold State.endRun; (try dsimp only); (repeat' split) <;> first | rfl | simp)
@[simp] theorem State.endRun_mons (r : ListRun) (status engine err record arg : Nat) : (s.endRun r status engine err record arg).mons = s.mons := by
  first | rfl | (unfold State.endRun; (try dsimp only); (repeat' split) <;> first | rfl | simp)
@[simp] theorem State.endRun_monEnds (r : ListRun) (status engine err record arg : Nat) : (s.endRun r status engine err record arg).monEnds = s.monEnds := by
  first | rfl | (unfold State.endRun; (try dsimp only); (repeat' split) <;> first | rfl | simp)
@[simp] theorem State.endRun_waits (r : ListRun) (status engine err record arg : Nat) : (s.endRun r status engine err record arg).waits = s.waits := by
  first | rfl | (unfold State.endRun; (try dsimp only); (repeat' split) <;> first | rfl | simp)
@[simp] theorem State.endRun_now (r : ListRun) (status engine err record arg : Nat) : (s.endRun r status engine err record arg).now = s.now := by
  first | rfl | (unfold State.endRun; (try dsimp only); (repeat' split) <;> first | rfl | simp)
@[simp] theorem State.endRun_perst (r : ListRun) (status engine err record arg : Nat) : (s.endRun r status engine err record arg).perst = s.perst := by
  first | rfl | (unfold State.endRun; (try dsimp only); (repeat' split) <;> first | rfl | simp)
@[simp] theorem State.endRun_slot (r : ListRun) (status engine err record arg : Nat) : (s.endRun r status engine err record arg).slot = s.slot := by
  first | rfl | (unfold State.endRun; (try dsimp only); (repeat' split) <;> first | rfl | simp)
@[simp] theorem State.endRun_badRamp (r : ListRun) (status engine err record arg : Nat) : (s.endRun r status engine err record arg).badRamp = s.badRamp := by
  first | rfl | (unfold State.endRun; (try dsimp only); (repeat' split) <;> first | rfl | simp)
@[simp] theorem State.endRun_rampCure (r : ListRun) (status engine err record arg : Nat) : (s.endRun r status engine err record arg).rampCure = s.rampCure := by
  first | rfl | (unfold State.endRun; (try dsimp only); (repeat' split) <;> first | rfl | simp)
@[simp] theorem State.endRun_railUntil (r : ListRun) (status engine err record arg : Nat) : (s.endRun r status engine err record arg).railUntil = s.railUntil := by
  first | rfl | (unfold State.endRun; (try dsimp only); (repeat' split) <;> first | rfl | simp)
@[simp] theorem State.endRun_dead (r : ListRun) (status engine err record arg : Nat) : (s.endRun r status engine err record arg).dead = s.dead := by
  first | rfl | (unfold State.endRun; (try dsimp only); (repeat' split) <;> first | rfl | simp)
@[simp] theorem State.endRun_tripped (r : ListRun) (status engine err record arg : Nat) : (s.endRun r status engine err record arg).tripped = s.tripped := by
  first | rfl | (unfold State.endRun; (try dsimp only); (repeat' split) <;> first | rfl | simp)
@[simp] theorem State.endRun_thermTripN (r : ListRun) (status engine err record arg : Nat) : (s.endRun r status engine err record arg).thermTripN = s.thermTripN := by
  first | rfl | (unfold State.endRun; (try dsimp only); (repeat' split) <;> first | rfl | simp)
@[simp] theorem State.endRun_refclkLost (r : ListRun) (status engine err record arg : Nat) : (s.endRun r status engine err record arg).refclkLost = s.refclkLost := by
  first | rfl | (unfold State.endRun; (try dsimp only); (repeat' split) <;> first | rfl | simp)
@[simp] theorem State.endRun_lpLost (r : ListRun) (status engine err record arg : Nat) : (s.endRun r status engine err record arg).lpLost = s.lpLost := by
  first | rfl | (unfold State.endRun; (try dsimp only); (repeat' split) <;> first | rfl | simp)
@[simp] theorem State.endRun_image (r : ListRun) (status engine err record arg : Nat) : (s.endRun r status engine err record arg).image = s.image := by
  first | rfl | (unfold State.endRun; (try dsimp only); (repeat' split) <;> first | rfl | simp)
@[simp] theorem State.endRun_imageSvn (r : ListRun) (status engine err record arg : Nat) : (s.endRun r status engine err record arg).imageSvn = s.imageSvn := by
  first | rfl | (unfold State.endRun; (try dsimp only); (repeat' split) <;> first | rfl | simp)
@[simp] theorem State.endRun_imageDigest (r : ListRun) (status engine err record arg : Nat) : (s.endRun r status engine err record arg).imageDigest = s.imageDigest := by
  first | rfl | (unfold State.endRun; (try dsimp only); (repeat' split) <;> first | rfl | simp)
@[simp] theorem State.endRun_idKey (r : ListRun) (status engine err record arg : Nat) : (s.endRun r status engine err record arg).idKey = s.idKey := by
  first | rfl | (unfold State.endRun; (try dsimp only); (repeat' split) <;> first | rfl | simp)
@[simp] theorem State.endRun_attest (r : ListRun) (status engine err record arg : Nat) : (s.endRun r status engine err record arg).attest = s.attest := by
  first | rfl | (unfold State.endRun; (try dsimp only); (repeat' split) <;> first | rfl | simp)
@[simp] theorem State.endRun_bundle (r : ListRun) (status engine err record arg : Nat) : (s.endRun r status engine err record arg).bundle = s.bundle := by
  first | rfl | (unfold State.endRun; (try dsimp only); (repeat' split) <;> first | rfl | simp)
@[simp] theorem State.endRun_bundleCopy (r : ListRun) (status engine err record arg : Nat) : (s.endRun r status engine err record arg).bundleCopy = s.bundleCopy := by
  first | rfl | (unfold State.endRun; (try dsimp only); (repeat' split) <;> first | rfl | simp)
@[simp] theorem State.endRun_nonce (r : ListRun) (status engine err record arg : Nat) : (s.endRun r status engine err record arg).nonce = s.nonce := by
  first | rfl | (unfold State.endRun; (try dsimp only); (repeat' split) <;> first | rfl | simp)
@[simp] theorem State.endRun_tierSize (r : ListRun) (status engine err record arg : Nat) : (s.endRun r status engine err record arg).tierSize = s.tierSize := by
  first | rfl | (unfold State.endRun; (try dsimp only); (repeat' split) <;> first | rfl | simp)
@[simp] theorem State.endRun_powerUw (r : ListRun) (status engine err record arg : Nat) : (s.endRun r status engine err record arg).powerUw = s.powerUw := by
  first | rfl | (unfold State.endRun; (try dsimp only); (repeat' split) <;> first | rfl | simp)
@[simp] theorem State.endRun_rails (r : ListRun) (status engine err record arg : Nat) : (s.endRun r status engine err record arg).rails = s.rails := by
  first | rfl | (unfold State.endRun; (try dsimp only); (repeat' split) <;> first | rfl | simp)
@[simp] theorem State.endRun_avsFails (r : ListRun) (status engine err record arg : Nat) : (s.endRun r status engine err record arg).avsFails = s.avsFails := by
  first | rfl | (unfold State.endRun; (try dsimp only); (repeat' split) <;> first | rfl | simp)
@[simp] theorem State.endRun_fresh (r : ListRun) (status engine err record arg : Nat) : (s.endRun r status engine err record arg).fresh = s.fresh := by
  first | rfl | (unfold State.endRun; (try dsimp only); (repeat' split) <;> first | rfl | simp)
@[simp] theorem State.endRun_pending (r : ListRun) (status engine err record arg : Nat) : (s.endRun r status engine err record arg).pending = s.pending := by
  first | rfl | (unfold State.endRun; (try dsimp only); (repeat' split) <;> first | rfl | simp)

/-! ### setRuns -/

@[simp] theorem State.setRuns_rf (b : Bool) (rs : List ListRun) : (s.setRuns b rs).rf = s.rf := by
  first | rfl | (unfold State.setRuns; (try dsimp only); (repeat' split) <;> first | rfl | simp)
@[simp] theorem State.setRuns_eff (b : Bool) (rs : List ListRun) : (s.setRuns b rs).eff = s.eff := by
  first | rfl | (unfold State.setRuns; (try dsimp only); (repeat' split) <;> first | rfl | simp)
@[simp] theorem State.setRuns_mem (b : Bool) (rs : List ListRun) : (s.setRuns b rs).mem = s.mem := by
  first | rfl | (unfold State.setRuns; (try dsimp only); (repeat' split) <;> first | rfl | simp)
@[simp] theorem State.setRuns_poison (b : Bool) (rs : List ListRun) : (s.setRuns b rs).poison = s.poison := by
  first | rfl | (unfold State.setRuns; (try dsimp only); (repeat' split) <;> first | rfl | simp)
@[simp] theorem State.setRuns_okWords (b : Bool) (rs : List ListRun) : (s.setRuns b rs).okWords = s.okWords := by
  first | rfl | (unfold State.setRuns; (try dsimp only); (repeat' split) <;> first | rfl | simp)
@[simp] theorem State.setRuns_symErr (b : Bool) (rs : List ListRun) : (s.setRuns b rs).symErr = s.symErr := by
  first | rfl | (unfold State.setRuns; (try dsimp only); (repeat' split) <;> first | rfl | simp)
@[simp] theorem State.setRuns_host (b : Bool) (rs : List ListRun) : (s.setRuns b rs).host = s.host := by
  first | rfl | (unfold State.setRuns; (try dsimp only); (repeat' split) <;> first | rfl | simp)
@[simp] theorem State.setRuns_fuses (b : Bool) (rs : List ListRun) : (s.setRuns b rs).fuses = s.fuses := by
  first | rfl | (unfold State.setRuns; (try dsimp only); (repeat' split) <;> first | rfl | simp)
@[simp] theorem State.setRuns_nvm (b : Bool) (rs : List ListRun) : (s.setRuns b rs).nvm = s.nvm := by
  first | rfl | (unfold State.setRuns; (try dsimp only); (repeat' split) <;> first | rfl | simp)
@[simp] theorem State.setRuns_recorder (b : Bool) (rs : List ListRun) : (s.setRuns b rs).recorder = s.recorder := by
  first | rfl | (unfold State.setRuns; (try dsimp only); (repeat' split) <;> first | rfl | simp)
@[simp] theorem State.setRuns_hif (b : Bool) (rs : List ListRun) : (s.setRuns b rs).hif = s.hif := by
  first | rfl | (unfold State.setRuns; (try dsimp only); (repeat' split) <;> first | rfl | simp)
@[simp] theorem State.setRuns_gaths (b : Bool) (rs : List ListRun) : (s.setRuns b rs).gaths = s.gaths := by
  first | rfl | (unfold State.setRuns; (try dsimp only); (repeat' split) <;> first | rfl | simp)
@[simp] theorem State.setRuns_queues (b : Bool) (rs : List ListRun) : (s.setRuns b rs).queues = s.queues := by
  first | rfl | (unfold State.setRuns; (try dsimp only); (repeat' split) <;> first | rfl | simp)
@[simp] theorem State.setRuns_yarders (b : Bool) (rs : List ListRun) : (s.setRuns b rs).yarders = s.yarders := by
  first | rfl | (unfold State.setRuns; (try dsimp only); (repeat' split) <;> first | rfl | simp)
@[simp] theorem State.setRuns_colls (b : Bool) (rs : List ListRun) : (s.setRuns b rs).colls = s.colls := by
  first | rfl | (unfold State.setRuns; (try dsimp only); (repeat' split) <;> first | rfl | simp)
@[simp] theorem State.setRuns_dies (b : Bool) (rs : List ListRun) : (s.setRuns b rs).dies = s.dies := by
  first | rfl | (unfold State.setRuns; (try dsimp only); (repeat' split) <;> first | rfl | simp)
@[simp] theorem State.setRuns_signals (b : Bool) (rs : List ListRun) : (s.setRuns b rs).signals = s.signals := by
  first | rfl | (unfold State.setRuns; (try dsimp only); (repeat' split) <;> first | rfl | simp)
@[simp] theorem State.setRuns_mtok (b : Bool) (rs : List ListRun) : (s.setRuns b rs).mtok = s.mtok := by
  first | rfl | (unfold State.setRuns; (try dsimp only); (repeat' split) <;> first | rfl | simp)
@[simp] theorem State.setRuns_mOvf (b : Bool) (rs : List ListRun) : (s.setRuns b rs).mOvf = s.mOvf := by
  first | rfl | (unfold State.setRuns; (try dsimp only); (repeat' split) <;> first | rfl | simp)
@[simp] theorem State.setRuns_tor (b : Bool) (rs : List ListRun) : (s.setRuns b rs).tor = s.tor := by
  first | rfl | (unfold State.setRuns; (try dsimp only); (repeat' split) <;> first | rfl | simp)
@[simp] theorem State.setRuns_irl (b : Bool) (rs : List ListRun) : (s.setRuns b rs).irl = s.irl := by
  first | rfl | (unfold State.setRuns; (try dsimp only); (repeat' split) <;> first | rfl | simp)
@[simp] theorem State.setRuns_mons (b : Bool) (rs : List ListRun) : (s.setRuns b rs).mons = s.mons := by
  first | rfl | (unfold State.setRuns; (try dsimp only); (repeat' split) <;> first | rfl | simp)
@[simp] theorem State.setRuns_monEnds (b : Bool) (rs : List ListRun) : (s.setRuns b rs).monEnds = s.monEnds := by
  first | rfl | (unfold State.setRuns; (try dsimp only); (repeat' split) <;> first | rfl | simp)
@[simp] theorem State.setRuns_waits (b : Bool) (rs : List ListRun) : (s.setRuns b rs).waits = s.waits := by
  first | rfl | (unfold State.setRuns; (try dsimp only); (repeat' split) <;> first | rfl | simp)
@[simp] theorem State.setRuns_now (b : Bool) (rs : List ListRun) : (s.setRuns b rs).now = s.now := by
  first | rfl | (unfold State.setRuns; (try dsimp only); (repeat' split) <;> first | rfl | simp)
@[simp] theorem State.setRuns_perst (b : Bool) (rs : List ListRun) : (s.setRuns b rs).perst = s.perst := by
  first | rfl | (unfold State.setRuns; (try dsimp only); (repeat' split) <;> first | rfl | simp)
@[simp] theorem State.setRuns_slot (b : Bool) (rs : List ListRun) : (s.setRuns b rs).slot = s.slot := by
  first | rfl | (unfold State.setRuns; (try dsimp only); (repeat' split) <;> first | rfl | simp)
@[simp] theorem State.setRuns_badRamp (b : Bool) (rs : List ListRun) : (s.setRuns b rs).badRamp = s.badRamp := by
  first | rfl | (unfold State.setRuns; (try dsimp only); (repeat' split) <;> first | rfl | simp)
@[simp] theorem State.setRuns_rampCure (b : Bool) (rs : List ListRun) : (s.setRuns b rs).rampCure = s.rampCure := by
  first | rfl | (unfold State.setRuns; (try dsimp only); (repeat' split) <;> first | rfl | simp)
@[simp] theorem State.setRuns_railUntil (b : Bool) (rs : List ListRun) : (s.setRuns b rs).railUntil = s.railUntil := by
  first | rfl | (unfold State.setRuns; (try dsimp only); (repeat' split) <;> first | rfl | simp)
@[simp] theorem State.setRuns_dead (b : Bool) (rs : List ListRun) : (s.setRuns b rs).dead = s.dead := by
  first | rfl | (unfold State.setRuns; (try dsimp only); (repeat' split) <;> first | rfl | simp)
@[simp] theorem State.setRuns_tripped (b : Bool) (rs : List ListRun) : (s.setRuns b rs).tripped = s.tripped := by
  first | rfl | (unfold State.setRuns; (try dsimp only); (repeat' split) <;> first | rfl | simp)
@[simp] theorem State.setRuns_thermTripN (b : Bool) (rs : List ListRun) : (s.setRuns b rs).thermTripN = s.thermTripN := by
  first | rfl | (unfold State.setRuns; (try dsimp only); (repeat' split) <;> first | rfl | simp)
@[simp] theorem State.setRuns_refclkLost (b : Bool) (rs : List ListRun) : (s.setRuns b rs).refclkLost = s.refclkLost := by
  first | rfl | (unfold State.setRuns; (try dsimp only); (repeat' split) <;> first | rfl | simp)
@[simp] theorem State.setRuns_lpLost (b : Bool) (rs : List ListRun) : (s.setRuns b rs).lpLost = s.lpLost := by
  first | rfl | (unfold State.setRuns; (try dsimp only); (repeat' split) <;> first | rfl | simp)
@[simp] theorem State.setRuns_image (b : Bool) (rs : List ListRun) : (s.setRuns b rs).image = s.image := by
  first | rfl | (unfold State.setRuns; (try dsimp only); (repeat' split) <;> first | rfl | simp)
@[simp] theorem State.setRuns_imageSvn (b : Bool) (rs : List ListRun) : (s.setRuns b rs).imageSvn = s.imageSvn := by
  first | rfl | (unfold State.setRuns; (try dsimp only); (repeat' split) <;> first | rfl | simp)
@[simp] theorem State.setRuns_imageDigest (b : Bool) (rs : List ListRun) : (s.setRuns b rs).imageDigest = s.imageDigest := by
  first | rfl | (unfold State.setRuns; (try dsimp only); (repeat' split) <;> first | rfl | simp)
@[simp] theorem State.setRuns_idKey (b : Bool) (rs : List ListRun) : (s.setRuns b rs).idKey = s.idKey := by
  first | rfl | (unfold State.setRuns; (try dsimp only); (repeat' split) <;> first | rfl | simp)
@[simp] theorem State.setRuns_attest (b : Bool) (rs : List ListRun) : (s.setRuns b rs).attest = s.attest := by
  first | rfl | (unfold State.setRuns; (try dsimp only); (repeat' split) <;> first | rfl | simp)
@[simp] theorem State.setRuns_bundle (b : Bool) (rs : List ListRun) : (s.setRuns b rs).bundle = s.bundle := by
  first | rfl | (unfold State.setRuns; (try dsimp only); (repeat' split) <;> first | rfl | simp)
@[simp] theorem State.setRuns_bundleCopy (b : Bool) (rs : List ListRun) : (s.setRuns b rs).bundleCopy = s.bundleCopy := by
  first | rfl | (unfold State.setRuns; (try dsimp only); (repeat' split) <;> first | rfl | simp)
@[simp] theorem State.setRuns_nonce (b : Bool) (rs : List ListRun) : (s.setRuns b rs).nonce = s.nonce := by
  first | rfl | (unfold State.setRuns; (try dsimp only); (repeat' split) <;> first | rfl | simp)
@[simp] theorem State.setRuns_tierSize (b : Bool) (rs : List ListRun) : (s.setRuns b rs).tierSize = s.tierSize := by
  first | rfl | (unfold State.setRuns; (try dsimp only); (repeat' split) <;> first | rfl | simp)
@[simp] theorem State.setRuns_powerUw (b : Bool) (rs : List ListRun) : (s.setRuns b rs).powerUw = s.powerUw := by
  first | rfl | (unfold State.setRuns; (try dsimp only); (repeat' split) <;> first | rfl | simp)
@[simp] theorem State.setRuns_rails (b : Bool) (rs : List ListRun) : (s.setRuns b rs).rails = s.rails := by
  first | rfl | (unfold State.setRuns; (try dsimp only); (repeat' split) <;> first | rfl | simp)
@[simp] theorem State.setRuns_avsFails (b : Bool) (rs : List ListRun) : (s.setRuns b rs).avsFails = s.avsFails := by
  first | rfl | (unfold State.setRuns; (try dsimp only); (repeat' split) <;> first | rfl | simp)
@[simp] theorem State.setRuns_fresh (b : Bool) (rs : List ListRun) : (s.setRuns b rs).fresh = s.fresh := by
  first | rfl | (unfold State.setRuns; (try dsimp only); (repeat' split) <;> first | rfl | simp)
@[simp] theorem State.setRuns_pending (b : Bool) (rs : List ListRun) : (s.setRuns b rs).pending = s.pending := by
  first | rfl | (unfold State.setRuns; (try dsimp only); (repeat' split) <;> first | rfl | simp)

/-! ### mapRuns -/

@[simp] theorem State.mapRuns_rf (b : Bool) (p : ListRun → Bool) (f : ListRun → ListRun) : (s.mapRuns b p f).rf = s.rf := by
  first | rfl | (unfold State.mapRuns; (try dsimp only); (repeat' split) <;> first | rfl | simp)
@[simp] theorem State.mapRuns_eff (b : Bool) (p : ListRun → Bool) (f : ListRun → ListRun) : (s.mapRuns b p f).eff = s.eff := by
  first | rfl | (unfold State.mapRuns; (try dsimp only); (repeat' split) <;> first | rfl | simp)
@[simp] theorem State.mapRuns_mem (b : Bool) (p : ListRun → Bool) (f : ListRun → ListRun) : (s.mapRuns b p f).mem = s.mem := by
  first | rfl | (unfold State.mapRuns; (try dsimp only); (repeat' split) <;> first | rfl | simp)
@[simp] theorem State.mapRuns_poison (b : Bool) (p : ListRun → Bool) (f : ListRun → ListRun) : (s.mapRuns b p f).poison = s.poison := by
  first | rfl | (unfold State.mapRuns; (try dsimp only); (repeat' split) <;> first | rfl | simp)
@[simp] theorem State.mapRuns_okWords (b : Bool) (p : ListRun → Bool) (f : ListRun → ListRun) : (s.mapRuns b p f).okWords = s.okWords := by
  first | rfl | (unfold State.mapRuns; (try dsimp only); (repeat' split) <;> first | rfl | simp)
@[simp] theorem State.mapRuns_symErr (b : Bool) (p : ListRun → Bool) (f : ListRun → ListRun) : (s.mapRuns b p f).symErr = s.symErr := by
  first | rfl | (unfold State.mapRuns; (try dsimp only); (repeat' split) <;> first | rfl | simp)
@[simp] theorem State.mapRuns_host (b : Bool) (p : ListRun → Bool) (f : ListRun → ListRun) : (s.mapRuns b p f).host = s.host := by
  first | rfl | (unfold State.mapRuns; (try dsimp only); (repeat' split) <;> first | rfl | simp)
@[simp] theorem State.mapRuns_fuses (b : Bool) (p : ListRun → Bool) (f : ListRun → ListRun) : (s.mapRuns b p f).fuses = s.fuses := by
  first | rfl | (unfold State.mapRuns; (try dsimp only); (repeat' split) <;> first | rfl | simp)
@[simp] theorem State.mapRuns_nvm (b : Bool) (p : ListRun → Bool) (f : ListRun → ListRun) : (s.mapRuns b p f).nvm = s.nvm := by
  first | rfl | (unfold State.mapRuns; (try dsimp only); (repeat' split) <;> first | rfl | simp)
@[simp] theorem State.mapRuns_recorder (b : Bool) (p : ListRun → Bool) (f : ListRun → ListRun) : (s.mapRuns b p f).recorder = s.recorder := by
  first | rfl | (unfold State.mapRuns; (try dsimp only); (repeat' split) <;> first | rfl | simp)
@[simp] theorem State.mapRuns_hif (b : Bool) (p : ListRun → Bool) (f : ListRun → ListRun) : (s.mapRuns b p f).hif = s.hif := by
  first | rfl | (unfold State.mapRuns; (try dsimp only); (repeat' split) <;> first | rfl | simp)
@[simp] theorem State.mapRuns_gaths (b : Bool) (p : ListRun → Bool) (f : ListRun → ListRun) : (s.mapRuns b p f).gaths = s.gaths := by
  first | rfl | (unfold State.mapRuns; (try dsimp only); (repeat' split) <;> first | rfl | simp)
@[simp] theorem State.mapRuns_queues (b : Bool) (p : ListRun → Bool) (f : ListRun → ListRun) : (s.mapRuns b p f).queues = s.queues := by
  first | rfl | (unfold State.mapRuns; (try dsimp only); (repeat' split) <;> first | rfl | simp)
@[simp] theorem State.mapRuns_yarders (b : Bool) (p : ListRun → Bool) (f : ListRun → ListRun) : (s.mapRuns b p f).yarders = s.yarders := by
  first | rfl | (unfold State.mapRuns; (try dsimp only); (repeat' split) <;> first | rfl | simp)
@[simp] theorem State.mapRuns_colls (b : Bool) (p : ListRun → Bool) (f : ListRun → ListRun) : (s.mapRuns b p f).colls = s.colls := by
  first | rfl | (unfold State.mapRuns; (try dsimp only); (repeat' split) <;> first | rfl | simp)
@[simp] theorem State.mapRuns_dies (b : Bool) (p : ListRun → Bool) (f : ListRun → ListRun) : (s.mapRuns b p f).dies = s.dies := by
  first | rfl | (unfold State.mapRuns; (try dsimp only); (repeat' split) <;> first | rfl | simp)
@[simp] theorem State.mapRuns_signals (b : Bool) (p : ListRun → Bool) (f : ListRun → ListRun) : (s.mapRuns b p f).signals = s.signals := by
  first | rfl | (unfold State.mapRuns; (try dsimp only); (repeat' split) <;> first | rfl | simp)
@[simp] theorem State.mapRuns_mtok (b : Bool) (p : ListRun → Bool) (f : ListRun → ListRun) : (s.mapRuns b p f).mtok = s.mtok := by
  first | rfl | (unfold State.mapRuns; (try dsimp only); (repeat' split) <;> first | rfl | simp)
@[simp] theorem State.mapRuns_mOvf (b : Bool) (p : ListRun → Bool) (f : ListRun → ListRun) : (s.mapRuns b p f).mOvf = s.mOvf := by
  first | rfl | (unfold State.mapRuns; (try dsimp only); (repeat' split) <;> first | rfl | simp)
@[simp] theorem State.mapRuns_tor (b : Bool) (p : ListRun → Bool) (f : ListRun → ListRun) : (s.mapRuns b p f).tor = s.tor := by
  first | rfl | (unfold State.mapRuns; (try dsimp only); (repeat' split) <;> first | rfl | simp)
@[simp] theorem State.mapRuns_irl (b : Bool) (p : ListRun → Bool) (f : ListRun → ListRun) : (s.mapRuns b p f).irl = s.irl := by
  first | rfl | (unfold State.mapRuns; (try dsimp only); (repeat' split) <;> first | rfl | simp)
@[simp] theorem State.mapRuns_mons (b : Bool) (p : ListRun → Bool) (f : ListRun → ListRun) : (s.mapRuns b p f).mons = s.mons := by
  first | rfl | (unfold State.mapRuns; (try dsimp only); (repeat' split) <;> first | rfl | simp)
@[simp] theorem State.mapRuns_monEnds (b : Bool) (p : ListRun → Bool) (f : ListRun → ListRun) : (s.mapRuns b p f).monEnds = s.monEnds := by
  first | rfl | (unfold State.mapRuns; (try dsimp only); (repeat' split) <;> first | rfl | simp)
@[simp] theorem State.mapRuns_waits (b : Bool) (p : ListRun → Bool) (f : ListRun → ListRun) : (s.mapRuns b p f).waits = s.waits := by
  first | rfl | (unfold State.mapRuns; (try dsimp only); (repeat' split) <;> first | rfl | simp)
@[simp] theorem State.mapRuns_now (b : Bool) (p : ListRun → Bool) (f : ListRun → ListRun) : (s.mapRuns b p f).now = s.now := by
  first | rfl | (unfold State.mapRuns; (try dsimp only); (repeat' split) <;> first | rfl | simp)
@[simp] theorem State.mapRuns_perst (b : Bool) (p : ListRun → Bool) (f : ListRun → ListRun) : (s.mapRuns b p f).perst = s.perst := by
  first | rfl | (unfold State.mapRuns; (try dsimp only); (repeat' split) <;> first | rfl | simp)
@[simp] theorem State.mapRuns_slot (b : Bool) (p : ListRun → Bool) (f : ListRun → ListRun) : (s.mapRuns b p f).slot = s.slot := by
  first | rfl | (unfold State.mapRuns; (try dsimp only); (repeat' split) <;> first | rfl | simp)
@[simp] theorem State.mapRuns_badRamp (b : Bool) (p : ListRun → Bool) (f : ListRun → ListRun) : (s.mapRuns b p f).badRamp = s.badRamp := by
  first | rfl | (unfold State.mapRuns; (try dsimp only); (repeat' split) <;> first | rfl | simp)
@[simp] theorem State.mapRuns_rampCure (b : Bool) (p : ListRun → Bool) (f : ListRun → ListRun) : (s.mapRuns b p f).rampCure = s.rampCure := by
  first | rfl | (unfold State.mapRuns; (try dsimp only); (repeat' split) <;> first | rfl | simp)
@[simp] theorem State.mapRuns_railUntil (b : Bool) (p : ListRun → Bool) (f : ListRun → ListRun) : (s.mapRuns b p f).railUntil = s.railUntil := by
  first | rfl | (unfold State.mapRuns; (try dsimp only); (repeat' split) <;> first | rfl | simp)
@[simp] theorem State.mapRuns_dead (b : Bool) (p : ListRun → Bool) (f : ListRun → ListRun) : (s.mapRuns b p f).dead = s.dead := by
  first | rfl | (unfold State.mapRuns; (try dsimp only); (repeat' split) <;> first | rfl | simp)
@[simp] theorem State.mapRuns_tripped (b : Bool) (p : ListRun → Bool) (f : ListRun → ListRun) : (s.mapRuns b p f).tripped = s.tripped := by
  first | rfl | (unfold State.mapRuns; (try dsimp only); (repeat' split) <;> first | rfl | simp)
@[simp] theorem State.mapRuns_thermTripN (b : Bool) (p : ListRun → Bool) (f : ListRun → ListRun) : (s.mapRuns b p f).thermTripN = s.thermTripN := by
  first | rfl | (unfold State.mapRuns; (try dsimp only); (repeat' split) <;> first | rfl | simp)
@[simp] theorem State.mapRuns_refclkLost (b : Bool) (p : ListRun → Bool) (f : ListRun → ListRun) : (s.mapRuns b p f).refclkLost = s.refclkLost := by
  first | rfl | (unfold State.mapRuns; (try dsimp only); (repeat' split) <;> first | rfl | simp)
@[simp] theorem State.mapRuns_lpLost (b : Bool) (p : ListRun → Bool) (f : ListRun → ListRun) : (s.mapRuns b p f).lpLost = s.lpLost := by
  first | rfl | (unfold State.mapRuns; (try dsimp only); (repeat' split) <;> first | rfl | simp)
@[simp] theorem State.mapRuns_image (b : Bool) (p : ListRun → Bool) (f : ListRun → ListRun) : (s.mapRuns b p f).image = s.image := by
  first | rfl | (unfold State.mapRuns; (try dsimp only); (repeat' split) <;> first | rfl | simp)
@[simp] theorem State.mapRuns_imageSvn (b : Bool) (p : ListRun → Bool) (f : ListRun → ListRun) : (s.mapRuns b p f).imageSvn = s.imageSvn := by
  first | rfl | (unfold State.mapRuns; (try dsimp only); (repeat' split) <;> first | rfl | simp)
@[simp] theorem State.mapRuns_imageDigest (b : Bool) (p : ListRun → Bool) (f : ListRun → ListRun) : (s.mapRuns b p f).imageDigest = s.imageDigest := by
  first | rfl | (unfold State.mapRuns; (try dsimp only); (repeat' split) <;> first | rfl | simp)
@[simp] theorem State.mapRuns_idKey (b : Bool) (p : ListRun → Bool) (f : ListRun → ListRun) : (s.mapRuns b p f).idKey = s.idKey := by
  first | rfl | (unfold State.mapRuns; (try dsimp only); (repeat' split) <;> first | rfl | simp)
@[simp] theorem State.mapRuns_attest (b : Bool) (p : ListRun → Bool) (f : ListRun → ListRun) : (s.mapRuns b p f).attest = s.attest := by
  first | rfl | (unfold State.mapRuns; (try dsimp only); (repeat' split) <;> first | rfl | simp)
@[simp] theorem State.mapRuns_bundle (b : Bool) (p : ListRun → Bool) (f : ListRun → ListRun) : (s.mapRuns b p f).bundle = s.bundle := by
  first | rfl | (unfold State.mapRuns; (try dsimp only); (repeat' split) <;> first | rfl | simp)
@[simp] theorem State.mapRuns_bundleCopy (b : Bool) (p : ListRun → Bool) (f : ListRun → ListRun) : (s.mapRuns b p f).bundleCopy = s.bundleCopy := by
  first | rfl | (unfold State.mapRuns; (try dsimp only); (repeat' split) <;> first | rfl | simp)
@[simp] theorem State.mapRuns_nonce (b : Bool) (p : ListRun → Bool) (f : ListRun → ListRun) : (s.mapRuns b p f).nonce = s.nonce := by
  first | rfl | (unfold State.mapRuns; (try dsimp only); (repeat' split) <;> first | rfl | simp)
@[simp] theorem State.mapRuns_tierSize (b : Bool) (p : ListRun → Bool) (f : ListRun → ListRun) : (s.mapRuns b p f).tierSize = s.tierSize := by
  first | rfl | (unfold State.mapRuns; (try dsimp only); (repeat' split) <;> first | rfl | simp)
@[simp] theorem State.mapRuns_powerUw (b : Bool) (p : ListRun → Bool) (f : ListRun → ListRun) : (s.mapRuns b p f).powerUw = s.powerUw := by
  first | rfl | (unfold State.mapRuns; (try dsimp only); (repeat' split) <;> first | rfl | simp)
@[simp] theorem State.mapRuns_rails (b : Bool) (p : ListRun → Bool) (f : ListRun → ListRun) : (s.mapRuns b p f).rails = s.rails := by
  first | rfl | (unfold State.mapRuns; (try dsimp only); (repeat' split) <;> first | rfl | simp)
@[simp] theorem State.mapRuns_avsFails (b : Bool) (p : ListRun → Bool) (f : ListRun → ListRun) : (s.mapRuns b p f).avsFails = s.avsFails := by
  first | rfl | (unfold State.mapRuns; (try dsimp only); (repeat' split) <;> first | rfl | simp)
@[simp] theorem State.mapRuns_fresh (b : Bool) (p : ListRun → Bool) (f : ListRun → ListRun) : (s.mapRuns b p f).fresh = s.fresh := by
  first | rfl | (unfold State.mapRuns; (try dsimp only); (repeat' split) <;> first | rfl | simp)
@[simp] theorem State.mapRuns_pending (b : Bool) (p : ListRun → Bool) (f : ListRun → ListRun) : (s.mapRuns b p f).pending = s.pending := by
  first | rfl | (unfold State.mapRuns; (try dsimp only); (repeat' split) <;> first | rfl | simp)

/-! ### listComplete -/

@[simp] theorem State.listComplete_eff (b : Bool) (r : ListRun) : (s.listComplete b r).eff = s.eff := by
  first | rfl | (unfold State.listComplete; (try dsimp only); (repeat' split) <;> first | rfl | simp)
@[simp] theorem State.listComplete_host (b : Bool) (r : ListRun) : (s.listComplete b r).host = s.host := by
  first | rfl | (unfold State.listComplete; (try dsimp only); (repeat' split) <;> first | rfl | simp)
@[simp] theorem State.listComplete_fuses (b : Bool) (r : ListRun) : (s.listComplete b r).fuses = s.fuses := by
  first | rfl | (unfold State.listComplete; (try dsimp only); (repeat' split) <;> first | rfl | simp)
@[simp] theorem State.listComplete_nvm (b : Bool) (r : ListRun) : (s.listComplete b r).nvm = s.nvm := by
  first | rfl | (unfold State.listComplete; (try dsimp only); (repeat' split) <;> first | rfl | simp)
@[simp] theorem State.listComplete_gaths (b : Bool) (r : ListRun) : (s.listComplete b r).gaths = s.gaths := by
  first | rfl | (unfold State.listComplete; (try dsimp only); (repeat' split) <;> first | rfl | simp)
@[simp] theorem State.listComplete_queues (b : Bool) (r : ListRun) : (s.listComplete b r).queues = s.queues := by
  first | rfl | (unfold State.listComplete; (try dsimp only); (repeat' split) <;> first | rfl | simp)
@[simp] theorem State.listComplete_yarders (b : Bool) (r : ListRun) : (s.listComplete b r).yarders = s.yarders := by
  first | rfl | (unfold State.listComplete; (try dsimp only); (repeat' split) <;> first | rfl | simp)
@[simp] theorem State.listComplete_colls (b : Bool) (r : ListRun) : (s.listComplete b r).colls = s.colls := by
  first | rfl | (unfold State.listComplete; (try dsimp only); (repeat' split) <;> first | rfl | simp)
@[simp] theorem State.listComplete_signals (b : Bool) (r : ListRun) : (s.listComplete b r).signals = s.signals := by
  first | rfl | (unfold State.listComplete; (try dsimp only); (repeat' split) <;> first | rfl | simp)
@[simp] theorem State.listComplete_mtok (b : Bool) (r : ListRun) : (s.listComplete b r).mtok = s.mtok := by
  first | rfl | (unfold State.listComplete; (try dsimp only); (repeat' split) <;> first | rfl | simp)
@[simp] theorem State.listComplete_mOvf (b : Bool) (r : ListRun) : (s.listComplete b r).mOvf = s.mOvf := by
  first | rfl | (unfold State.listComplete; (try dsimp only); (repeat' split) <;> first | rfl | simp)
@[simp] theorem State.listComplete_tor (b : Bool) (r : ListRun) : (s.listComplete b r).tor = s.tor := by
  first | rfl | (unfold State.listComplete; (try dsimp only); (repeat' split) <;> first | rfl | simp)
@[simp] theorem State.listComplete_irl (b : Bool) (r : ListRun) : (s.listComplete b r).irl = s.irl := by
  first | rfl | (unfold State.listComplete; (try dsimp only); (repeat' split) <;> first | rfl | simp)
@[simp] theorem State.listComplete_mons (b : Bool) (r : ListRun) : (s.listComplete b r).mons = s.mons := by
  first | rfl | (unfold State.listComplete; (try dsimp only); (repeat' split) <;> first | rfl | simp)
@[simp] theorem State.listComplete_monEnds (b : Bool) (r : ListRun) : (s.listComplete b r).monEnds = s.monEnds := by
  first | rfl | (unfold State.listComplete; (try dsimp only); (repeat' split) <;> first | rfl | simp)
@[simp] theorem State.listComplete_waits (b : Bool) (r : ListRun) : (s.listComplete b r).waits = s.waits := by
  first | rfl | (unfold State.listComplete; (try dsimp only); (repeat' split) <;> first | rfl | simp)
@[simp] theorem State.listComplete_now (b : Bool) (r : ListRun) : (s.listComplete b r).now = s.now := by
  first | rfl | (unfold State.listComplete; (try dsimp only); (repeat' split) <;> first | rfl | simp)
@[simp] theorem State.listComplete_perst (b : Bool) (r : ListRun) : (s.listComplete b r).perst = s.perst := by
  first | rfl | (unfold State.listComplete; (try dsimp only); (repeat' split) <;> first | rfl | simp)
@[simp] theorem State.listComplete_slot (b : Bool) (r : ListRun) : (s.listComplete b r).slot = s.slot := by
  first | rfl | (unfold State.listComplete; (try dsimp only); (repeat' split) <;> first | rfl | simp)
@[simp] theorem State.listComplete_badRamp (b : Bool) (r : ListRun) : (s.listComplete b r).badRamp = s.badRamp := by
  first | rfl | (unfold State.listComplete; (try dsimp only); (repeat' split) <;> first | rfl | simp)
@[simp] theorem State.listComplete_rampCure (b : Bool) (r : ListRun) : (s.listComplete b r).rampCure = s.rampCure := by
  first | rfl | (unfold State.listComplete; (try dsimp only); (repeat' split) <;> first | rfl | simp)
@[simp] theorem State.listComplete_railUntil (b : Bool) (r : ListRun) : (s.listComplete b r).railUntil = s.railUntil := by
  first | rfl | (unfold State.listComplete; (try dsimp only); (repeat' split) <;> first | rfl | simp)
@[simp] theorem State.listComplete_dead (b : Bool) (r : ListRun) : (s.listComplete b r).dead = s.dead := by
  first | rfl | (unfold State.listComplete; (try dsimp only); (repeat' split) <;> first | rfl | simp)
@[simp] theorem State.listComplete_tripped (b : Bool) (r : ListRun) : (s.listComplete b r).tripped = s.tripped := by
  first | rfl | (unfold State.listComplete; (try dsimp only); (repeat' split) <;> first | rfl | simp)
@[simp] theorem State.listComplete_thermTripN (b : Bool) (r : ListRun) : (s.listComplete b r).thermTripN = s.thermTripN := by
  first | rfl | (unfold State.listComplete; (try dsimp only); (repeat' split) <;> first | rfl | simp)
@[simp] theorem State.listComplete_refclkLost (b : Bool) (r : ListRun) : (s.listComplete b r).refclkLost = s.refclkLost := by
  first | rfl | (unfold State.listComplete; (try dsimp only); (repeat' split) <;> first | rfl | simp)
@[simp] theorem State.listComplete_lpLost (b : Bool) (r : ListRun) : (s.listComplete b r).lpLost = s.lpLost := by
  first | rfl | (unfold State.listComplete; (try dsimp only); (repeat' split) <;> first | rfl | simp)
@[simp] theorem State.listComplete_image (b : Bool) (r : ListRun) : (s.listComplete b r).image = s.image := by
  first | rfl | (unfold State.listComplete; (try dsimp only); (repeat' split) <;> first | rfl | simp)
@[simp] theorem State.listComplete_imageSvn (b : Bool) (r : ListRun) : (s.listComplete b r).imageSvn = s.imageSvn := by
  first | rfl | (unfold State.listComplete; (try dsimp only); (repeat' split) <;> first | rfl | simp)
@[simp] theorem State.listComplete_imageDigest (b : Bool) (r : ListRun) : (s.listComplete b r).imageDigest = s.imageDigest := by
  first | rfl | (unfold State.listComplete; (try dsimp only); (repeat' split) <;> first | rfl | simp)
@[simp] theorem State.listComplete_idKey (b : Bool) (r : ListRun) : (s.listComplete b r).idKey = s.idKey := by
  first | rfl | (unfold State.listComplete; (try dsimp only); (repeat' split) <;> first | rfl | simp)
@[simp] theorem State.listComplete_attest (b : Bool) (r : ListRun) : (s.listComplete b r).attest = s.attest := by
  first | rfl | (unfold State.listComplete; (try dsimp only); (repeat' split) <;> first | rfl | simp)
@[simp] theorem State.listComplete_bundle (b : Bool) (r : ListRun) : (s.listComplete b r).bundle = s.bundle := by
  first | rfl | (unfold State.listComplete; (try dsimp only); (repeat' split) <;> first | rfl | simp)
@[simp] theorem State.listComplete_bundleCopy (b : Bool) (r : ListRun) : (s.listComplete b r).bundleCopy = s.bundleCopy := by
  first | rfl | (unfold State.listComplete; (try dsimp only); (repeat' split) <;> first | rfl | simp)
@[simp] theorem State.listComplete_nonce (b : Bool) (r : ListRun) : (s.listComplete b r).nonce = s.nonce := by
  first | rfl | (unfold State.listComplete; (try dsimp only); (repeat' split) <;> first | rfl | simp)
@[simp] theorem State.listComplete_tierSize (b : Bool) (r : ListRun) : (s.listComplete b r).tierSize = s.tierSize := by
  first | rfl | (unfold State.listComplete; (try dsimp only); (repeat' split) <;> first | rfl | simp)
@[simp] theorem State.listComplete_powerUw (b : Bool) (r : ListRun) : (s.listComplete b r).powerUw = s.powerUw := by
  first | rfl | (unfold State.listComplete; (try dsimp only); (repeat' split) <;> first | rfl | simp)
@[simp] theorem State.listComplete_rails (b : Bool) (r : ListRun) : (s.listComplete b r).rails = s.rails := by
  first | rfl | (unfold State.listComplete; (try dsimp only); (repeat' split) <;> first | rfl | simp)
@[simp] theorem State.listComplete_avsFails (b : Bool) (r : ListRun) : (s.listComplete b r).avsFails = s.avsFails := by
  first | rfl | (unfold State.listComplete; (try dsimp only); (repeat' split) <;> first | rfl | simp)
@[simp] theorem State.listComplete_fresh (b : Bool) (r : ListRun) : (s.listComplete b r).fresh = s.fresh := by
  first | rfl | (unfold State.listComplete; (try dsimp only); (repeat' split) <;> first | rfl | simp)
@[simp] theorem State.listComplete_pending (b : Bool) (r : ListRun) : (s.listComplete b r).pending = s.pending := by
  first | rfl | (unfold State.listComplete; (try dsimp only); (repeat' split) <;> first | rfl | simp)

/-! ### sendSignals -/

@[simp] theorem State.sendSignals_eff (b : Bool) (a : Nat) (l : List (Nat × Nat × Nat)) : (s.sendSignals b a l).eff = s.eff := by
  unfold State.sendSignals; exact foldl_keeps (·.eff) _ (fun s p => by simp) _ s
@[simp] theorem State.sendSignals_mem (b : Bool) (a : Nat) (l : List (Nat × Nat × Nat)) : (s.sendSignals b a l).mem = s.mem := by
  unfold State.sendSignals; exact foldl_keeps (·.mem) _ (fun s p => by simp) _ s
@[simp] theorem State.sendSignals_poison (b : Bool) (a : Nat) (l : List (Nat × Nat × Nat)) : (s.sendSignals b a l).poison = s.poison := by
  unfold State.sendSignals; exact foldl_keeps (·.poison) _ (fun s p => by simp) _ s
@[simp] theorem State.sendSignals_okWords (b : Bool) (a : Nat) (l : List (Nat × Nat × Nat)) : (s.sendSignals b a l).okWords = s.okWords := by
  unfold State.sendSignals; exact foldl_keeps (·.okWords) _ (fun s p => by simp) _ s
@[simp] theorem State.sendSignals_symErr (b : Bool) (a : Nat) (l : List (Nat × Nat × Nat)) : (s.sendSignals b a l).symErr = s.symErr := by
  unfold State.sendSignals; exact foldl_keeps (·.symErr) _ (fun s p => by simp) _ s
@[simp] theorem State.sendSignals_host (b : Bool) (a : Nat) (l : List (Nat × Nat × Nat)) : (s.sendSignals b a l).host = s.host := by
  unfold State.sendSignals; exact foldl_keeps (·.host) _ (fun s p => by simp) _ s
@[simp] theorem State.sendSignals_fuses (b : Bool) (a : Nat) (l : List (Nat × Nat × Nat)) : (s.sendSignals b a l).fuses = s.fuses := by
  unfold State.sendSignals; exact foldl_keeps (·.fuses) _ (fun s p => by simp) _ s
@[simp] theorem State.sendSignals_nvm (b : Bool) (a : Nat) (l : List (Nat × Nat × Nat)) : (s.sendSignals b a l).nvm = s.nvm := by
  unfold State.sendSignals; exact foldl_keeps (·.nvm) _ (fun s p => by simp) _ s
@[simp] theorem State.sendSignals_job (b : Bool) (a : Nat) (l : List (Nat × Nat × Nat)) : (s.sendSignals b a l).job = s.job := by
  unfold State.sendSignals; exact foldl_keeps (·.job) _ (fun s p => by simp) _ s
@[simp] theorem State.sendSignals_gaths (b : Bool) (a : Nat) (l : List (Nat × Nat × Nat)) : (s.sendSignals b a l).gaths = s.gaths := by
  unfold State.sendSignals; exact foldl_keeps (·.gaths) _ (fun s p => by simp) _ s
@[simp] theorem State.sendSignals_queues (b : Bool) (a : Nat) (l : List (Nat × Nat × Nat)) : (s.sendSignals b a l).queues = s.queues := by
  unfold State.sendSignals; exact foldl_keeps (·.queues) _ (fun s p => by simp) _ s
@[simp] theorem State.sendSignals_yarders (b : Bool) (a : Nat) (l : List (Nat × Nat × Nat)) : (s.sendSignals b a l).yarders = s.yarders := by
  unfold State.sendSignals; exact foldl_keeps (·.yarders) _ (fun s p => by simp) _ s
@[simp] theorem State.sendSignals_colls (b : Bool) (a : Nat) (l : List (Nat × Nat × Nat)) : (s.sendSignals b a l).colls = s.colls := by
  unfold State.sendSignals; exact foldl_keeps (·.colls) _ (fun s p => by simp) _ s
@[simp] theorem State.sendSignals_dies (b : Bool) (a : Nat) (l : List (Nat × Nat × Nat)) : (s.sendSignals b a l).dies = s.dies := by
  unfold State.sendSignals; exact foldl_keeps (·.dies) _ (fun s p => by simp) _ s
@[simp] theorem State.sendSignals_signals (b : Bool) (a : Nat) (l : List (Nat × Nat × Nat)) : (s.sendSignals b a l).signals = s.signals := by
  unfold State.sendSignals; exact foldl_keeps (·.signals) _ (fun s p => by simp) _ s
@[simp] theorem State.sendSignals_tor (b : Bool) (a : Nat) (l : List (Nat × Nat × Nat)) : (s.sendSignals b a l).tor = s.tor := by
  unfold State.sendSignals; exact foldl_keeps (·.tor) _ (fun s p => by simp) _ s
@[simp] theorem State.sendSignals_irl (b : Bool) (a : Nat) (l : List (Nat × Nat × Nat)) : (s.sendSignals b a l).irl = s.irl := by
  unfold State.sendSignals; exact foldl_keeps (·.irl) _ (fun s p => by simp) _ s
@[simp] theorem State.sendSignals_mons (b : Bool) (a : Nat) (l : List (Nat × Nat × Nat)) : (s.sendSignals b a l).mons = s.mons := by
  unfold State.sendSignals; exact foldl_keeps (·.mons) _ (fun s p => by simp) _ s
@[simp] theorem State.sendSignals_monEnds (b : Bool) (a : Nat) (l : List (Nat × Nat × Nat)) : (s.sendSignals b a l).monEnds = s.monEnds := by
  unfold State.sendSignals; exact foldl_keeps (·.monEnds) _ (fun s p => by simp) _ s
@[simp] theorem State.sendSignals_waits (b : Bool) (a : Nat) (l : List (Nat × Nat × Nat)) : (s.sendSignals b a l).waits = s.waits := by
  unfold State.sendSignals; exact foldl_keeps (·.waits) _ (fun s p => by simp) _ s
@[simp] theorem State.sendSignals_now (b : Bool) (a : Nat) (l : List (Nat × Nat × Nat)) : (s.sendSignals b a l).now = s.now := by
  unfold State.sendSignals; exact foldl_keeps (·.now) _ (fun s p => by simp) _ s
@[simp] theorem State.sendSignals_perst (b : Bool) (a : Nat) (l : List (Nat × Nat × Nat)) : (s.sendSignals b a l).perst = s.perst := by
  unfold State.sendSignals; exact foldl_keeps (·.perst) _ (fun s p => by simp) _ s
@[simp] theorem State.sendSignals_slot (b : Bool) (a : Nat) (l : List (Nat × Nat × Nat)) : (s.sendSignals b a l).slot = s.slot := by
  unfold State.sendSignals; exact foldl_keeps (·.slot) _ (fun s p => by simp) _ s
@[simp] theorem State.sendSignals_badRamp (b : Bool) (a : Nat) (l : List (Nat × Nat × Nat)) : (s.sendSignals b a l).badRamp = s.badRamp := by
  unfold State.sendSignals; exact foldl_keeps (·.badRamp) _ (fun s p => by simp) _ s
@[simp] theorem State.sendSignals_rampCure (b : Bool) (a : Nat) (l : List (Nat × Nat × Nat)) : (s.sendSignals b a l).rampCure = s.rampCure := by
  unfold State.sendSignals; exact foldl_keeps (·.rampCure) _ (fun s p => by simp) _ s
@[simp] theorem State.sendSignals_railUntil (b : Bool) (a : Nat) (l : List (Nat × Nat × Nat)) : (s.sendSignals b a l).railUntil = s.railUntil := by
  unfold State.sendSignals; exact foldl_keeps (·.railUntil) _ (fun s p => by simp) _ s
@[simp] theorem State.sendSignals_dead (b : Bool) (a : Nat) (l : List (Nat × Nat × Nat)) : (s.sendSignals b a l).dead = s.dead := by
  unfold State.sendSignals; exact foldl_keeps (·.dead) _ (fun s p => by simp) _ s
@[simp] theorem State.sendSignals_tripped (b : Bool) (a : Nat) (l : List (Nat × Nat × Nat)) : (s.sendSignals b a l).tripped = s.tripped := by
  unfold State.sendSignals; exact foldl_keeps (·.tripped) _ (fun s p => by simp) _ s
@[simp] theorem State.sendSignals_thermTripN (b : Bool) (a : Nat) (l : List (Nat × Nat × Nat)) : (s.sendSignals b a l).thermTripN = s.thermTripN := by
  unfold State.sendSignals; exact foldl_keeps (·.thermTripN) _ (fun s p => by simp) _ s
@[simp] theorem State.sendSignals_refclkLost (b : Bool) (a : Nat) (l : List (Nat × Nat × Nat)) : (s.sendSignals b a l).refclkLost = s.refclkLost := by
  unfold State.sendSignals; exact foldl_keeps (·.refclkLost) _ (fun s p => by simp) _ s
@[simp] theorem State.sendSignals_lpLost (b : Bool) (a : Nat) (l : List (Nat × Nat × Nat)) : (s.sendSignals b a l).lpLost = s.lpLost := by
  unfold State.sendSignals; exact foldl_keeps (·.lpLost) _ (fun s p => by simp) _ s
@[simp] theorem State.sendSignals_image (b : Bool) (a : Nat) (l : List (Nat × Nat × Nat)) : (s.sendSignals b a l).image = s.image := by
  unfold State.sendSignals; exact foldl_keeps (·.image) _ (fun s p => by simp) _ s
@[simp] theorem State.sendSignals_imageSvn (b : Bool) (a : Nat) (l : List (Nat × Nat × Nat)) : (s.sendSignals b a l).imageSvn = s.imageSvn := by
  unfold State.sendSignals; exact foldl_keeps (·.imageSvn) _ (fun s p => by simp) _ s
@[simp] theorem State.sendSignals_imageDigest (b : Bool) (a : Nat) (l : List (Nat × Nat × Nat)) : (s.sendSignals b a l).imageDigest = s.imageDigest := by
  unfold State.sendSignals; exact foldl_keeps (·.imageDigest) _ (fun s p => by simp) _ s
@[simp] theorem State.sendSignals_idKey (b : Bool) (a : Nat) (l : List (Nat × Nat × Nat)) : (s.sendSignals b a l).idKey = s.idKey := by
  unfold State.sendSignals; exact foldl_keeps (·.idKey) _ (fun s p => by simp) _ s
@[simp] theorem State.sendSignals_attest (b : Bool) (a : Nat) (l : List (Nat × Nat × Nat)) : (s.sendSignals b a l).attest = s.attest := by
  unfold State.sendSignals; exact foldl_keeps (·.attest) _ (fun s p => by simp) _ s
@[simp] theorem State.sendSignals_bundle (b : Bool) (a : Nat) (l : List (Nat × Nat × Nat)) : (s.sendSignals b a l).bundle = s.bundle := by
  unfold State.sendSignals; exact foldl_keeps (·.bundle) _ (fun s p => by simp) _ s
@[simp] theorem State.sendSignals_bundleCopy (b : Bool) (a : Nat) (l : List (Nat × Nat × Nat)) : (s.sendSignals b a l).bundleCopy = s.bundleCopy := by
  unfold State.sendSignals; exact foldl_keeps (·.bundleCopy) _ (fun s p => by simp) _ s
@[simp] theorem State.sendSignals_nonce (b : Bool) (a : Nat) (l : List (Nat × Nat × Nat)) : (s.sendSignals b a l).nonce = s.nonce := by
  unfold State.sendSignals; exact foldl_keeps (·.nonce) _ (fun s p => by simp) _ s
@[simp] theorem State.sendSignals_tierSize (b : Bool) (a : Nat) (l : List (Nat × Nat × Nat)) : (s.sendSignals b a l).tierSize = s.tierSize := by
  unfold State.sendSignals; exact foldl_keeps (·.tierSize) _ (fun s p => by simp) _ s
@[simp] theorem State.sendSignals_powerUw (b : Bool) (a : Nat) (l : List (Nat × Nat × Nat)) : (s.sendSignals b a l).powerUw = s.powerUw := by
  unfold State.sendSignals; exact foldl_keeps (·.powerUw) _ (fun s p => by simp) _ s
@[simp] theorem State.sendSignals_rails (b : Bool) (a : Nat) (l : List (Nat × Nat × Nat)) : (s.sendSignals b a l).rails = s.rails := by
  unfold State.sendSignals; exact foldl_keeps (·.rails) _ (fun s p => by simp) _ s
@[simp] theorem State.sendSignals_avsFails (b : Bool) (a : Nat) (l : List (Nat × Nat × Nat)) : (s.sendSignals b a l).avsFails = s.avsFails := by
  unfold State.sendSignals; exact foldl_keeps (·.avsFails) _ (fun s p => by simp) _ s
@[simp] theorem State.sendSignals_fresh (b : Bool) (a : Nat) (l : List (Nat × Nat × Nat)) : (s.sendSignals b a l).fresh = s.fresh := by
  unfold State.sendSignals; exact foldl_keeps (·.fresh) _ (fun s p => by simp) _ s
@[simp] theorem State.sendSignals_pending (b : Bool) (a : Nat) (l : List (Nat × Nat × Nat)) : (s.sendSignals b a l).pending = s.pending := by
  unfold State.sendSignals; exact foldl_keeps (·.pending) _ (fun s p => by simp) _ s

/-! ### recompute -/

@[simp] theorem State.recompute_rf (c : QCmd) : (s.recompute c).rf = s.rf := by
  first | rfl | (unfold State.recompute; (try dsimp only); (repeat' split) <;> first | rfl | simp)
@[simp] theorem State.recompute_eff (c : QCmd) : (s.recompute c).eff = s.eff := by
  first | rfl | (unfold State.recompute; (try dsimp only); (repeat' split) <;> first | rfl | simp)
@[simp] theorem State.recompute_mem (c : QCmd) : (s.recompute c).mem = s.mem := by
  first | rfl | (unfold State.recompute; (try dsimp only); (repeat' split) <;> first | rfl | simp)
@[simp] theorem State.recompute_poison (c : QCmd) : (s.recompute c).poison = s.poison := by
  first | rfl | (unfold State.recompute; (try dsimp only); (repeat' split) <;> first | rfl | simp)
@[simp] theorem State.recompute_okWords (c : QCmd) : (s.recompute c).okWords = s.okWords := by
  first | rfl | (unfold State.recompute; (try dsimp only); (repeat' split) <;> first | rfl | simp)
@[simp] theorem State.recompute_symErr (c : QCmd) : (s.recompute c).symErr = s.symErr := by
  first | rfl | (unfold State.recompute; (try dsimp only); (repeat' split) <;> first | rfl | simp)
@[simp] theorem State.recompute_host (c : QCmd) : (s.recompute c).host = s.host := by
  first | rfl | (unfold State.recompute; (try dsimp only); (repeat' split) <;> first | rfl | simp)
@[simp] theorem State.recompute_fuses (c : QCmd) : (s.recompute c).fuses = s.fuses := by
  first | rfl | (unfold State.recompute; (try dsimp only); (repeat' split) <;> first | rfl | simp)
@[simp] theorem State.recompute_nvm (c : QCmd) : (s.recompute c).nvm = s.nvm := by
  first | rfl | (unfold State.recompute; (try dsimp only); (repeat' split) <;> first | rfl | simp)
@[simp] theorem State.recompute_recorder (c : QCmd) : (s.recompute c).recorder = s.recorder := by
  first | rfl | (unfold State.recompute; (try dsimp only); (repeat' split) <;> first | rfl | simp)
@[simp] theorem State.recompute_hif (c : QCmd) : (s.recompute c).hif = s.hif := by
  first | rfl | (unfold State.recompute; (try dsimp only); (repeat' split) <;> first | rfl | simp)
@[simp] theorem State.recompute_gaths (c : QCmd) : (s.recompute c).gaths = s.gaths := by
  first | rfl | (unfold State.recompute; (try dsimp only); (repeat' split) <;> first | rfl | simp)
@[simp] theorem State.recompute_queues (c : QCmd) : (s.recompute c).queues = s.queues := by
  first | rfl | (unfold State.recompute; (try dsimp only); (repeat' split) <;> first | rfl | simp)
@[simp] theorem State.recompute_yarders (c : QCmd) : (s.recompute c).yarders = s.yarders := by
  first | rfl | (unfold State.recompute; (try dsimp only); (repeat' split) <;> first | rfl | simp)
@[simp] theorem State.recompute_colls (c : QCmd) : (s.recompute c).colls = s.colls := by
  first | rfl | (unfold State.recompute; (try dsimp only); (repeat' split) <;> first | rfl | simp)
@[simp] theorem State.recompute_signals (c : QCmd) : (s.recompute c).signals = s.signals := by
  first | rfl | (unfold State.recompute; (try dsimp only); (repeat' split) <;> first | rfl | simp)
@[simp] theorem State.recompute_mtok (c : QCmd) : (s.recompute c).mtok = s.mtok := by
  first | rfl | (unfold State.recompute; (try dsimp only); (repeat' split) <;> first | rfl | simp)
@[simp] theorem State.recompute_mOvf (c : QCmd) : (s.recompute c).mOvf = s.mOvf := by
  first | rfl | (unfold State.recompute; (try dsimp only); (repeat' split) <;> first | rfl | simp)
@[simp] theorem State.recompute_tor (c : QCmd) : (s.recompute c).tor = s.tor := by
  first | rfl | (unfold State.recompute; (try dsimp only); (repeat' split) <;> first | rfl | simp)
@[simp] theorem State.recompute_irl (c : QCmd) : (s.recompute c).irl = s.irl := by
  first | rfl | (unfold State.recompute; (try dsimp only); (repeat' split) <;> first | rfl | simp)
@[simp] theorem State.recompute_mons (c : QCmd) : (s.recompute c).mons = s.mons := by
  first | rfl | (unfold State.recompute; (try dsimp only); (repeat' split) <;> first | rfl | simp)
@[simp] theorem State.recompute_monEnds (c : QCmd) : (s.recompute c).monEnds = s.monEnds := by
  first | rfl | (unfold State.recompute; (try dsimp only); (repeat' split) <;> first | rfl | simp)
@[simp] theorem State.recompute_waits (c : QCmd) : (s.recompute c).waits = s.waits := by
  first | rfl | (unfold State.recompute; (try dsimp only); (repeat' split) <;> first | rfl | simp)
@[simp] theorem State.recompute_now (c : QCmd) : (s.recompute c).now = s.now := by
  first | rfl | (unfold State.recompute; (try dsimp only); (repeat' split) <;> first | rfl | simp)
@[simp] theorem State.recompute_perst (c : QCmd) : (s.recompute c).perst = s.perst := by
  first | rfl | (unfold State.recompute; (try dsimp only); (repeat' split) <;> first | rfl | simp)
@[simp] theorem State.recompute_slot (c : QCmd) : (s.recompute c).slot = s.slot := by
  first | rfl | (unfold State.recompute; (try dsimp only); (repeat' split) <;> first | rfl | simp)
@[simp] theorem State.recompute_badRamp (c : QCmd) : (s.recompute c).badRamp = s.badRamp := by
  first | rfl | (unfold State.recompute; (try dsimp only); (repeat' split) <;> first | rfl | simp)
@[simp] theorem State.recompute_rampCure (c : QCmd) : (s.recompute c).rampCure = s.rampCure := by
  first | rfl | (unfold State.recompute; (try dsimp only); (repeat' split) <;> first | rfl | simp)
@[simp] theorem State.recompute_railUntil (c : QCmd) : (s.recompute c).railUntil = s.railUntil := by
  first | rfl | (unfold State.recompute; (try dsimp only); (repeat' split) <;> first | rfl | simp)
@[simp] theorem State.recompute_dead (c : QCmd) : (s.recompute c).dead = s.dead := by
  first | rfl | (unfold State.recompute; (try dsimp only); (repeat' split) <;> first | rfl | simp)
@[simp] theorem State.recompute_tripped (c : QCmd) : (s.recompute c).tripped = s.tripped := by
  first | rfl | (unfold State.recompute; (try dsimp only); (repeat' split) <;> first | rfl | simp)
@[simp] theorem State.recompute_thermTripN (c : QCmd) : (s.recompute c).thermTripN = s.thermTripN := by
  first | rfl | (unfold State.recompute; (try dsimp only); (repeat' split) <;> first | rfl | simp)
@[simp] theorem State.recompute_refclkLost (c : QCmd) : (s.recompute c).refclkLost = s.refclkLost := by
  first | rfl | (unfold State.recompute; (try dsimp only); (repeat' split) <;> first | rfl | simp)
@[simp] theorem State.recompute_lpLost (c : QCmd) : (s.recompute c).lpLost = s.lpLost := by
  first | rfl | (unfold State.recompute; (try dsimp only); (repeat' split) <;> first | rfl | simp)
@[simp] theorem State.recompute_image (c : QCmd) : (s.recompute c).image = s.image := by
  first | rfl | (unfold State.recompute; (try dsimp only); (repeat' split) <;> first | rfl | simp)
@[simp] theorem State.recompute_imageSvn (c : QCmd) : (s.recompute c).imageSvn = s.imageSvn := by
  first | rfl | (unfold State.recompute; (try dsimp only); (repeat' split) <;> first | rfl | simp)
@[simp] theorem State.recompute_imageDigest (c : QCmd) : (s.recompute c).imageDigest = s.imageDigest := by
  first | rfl | (unfold State.recompute; (try dsimp only); (repeat' split) <;> first | rfl | simp)
@[simp] theorem State.recompute_idKey (c : QCmd) : (s.recompute c).idKey = s.idKey := by
  first | rfl | (unfold State.recompute; (try dsimp only); (repeat' split) <;> first | rfl | simp)
@[simp] theorem State.recompute_attest (c : QCmd) : (s.recompute c).attest = s.attest := by
  first | rfl | (unfold State.recompute; (try dsimp only); (repeat' split) <;> first | rfl | simp)
@[simp] theorem State.recompute_bundle (c : QCmd) : (s.recompute c).bundle = s.bundle := by
  first | rfl | (unfold State.recompute; (try dsimp only); (repeat' split) <;> first | rfl | simp)
@[simp] theorem State.recompute_bundleCopy (c : QCmd) : (s.recompute c).bundleCopy = s.bundleCopy := by
  first | rfl | (unfold State.recompute; (try dsimp only); (repeat' split) <;> first | rfl | simp)
@[simp] theorem State.recompute_nonce (c : QCmd) : (s.recompute c).nonce = s.nonce := by
  first | rfl | (unfold State.recompute; (try dsimp only); (repeat' split) <;> first | rfl | simp)
@[simp] theorem State.recompute_tierSize (c : QCmd) : (s.recompute c).tierSize = s.tierSize := by
  first | rfl | (unfold State.recompute; (try dsimp only); (repeat' split) <;> first | rfl | simp)
@[simp] theorem State.recompute_powerUw (c : QCmd) : (s.recompute c).powerUw = s.powerUw := by
  first | rfl | (unfold State.recompute; (try dsimp only); (repeat' split) <;> first | rfl | simp)
@[simp] theorem State.recompute_rails (c : QCmd) : (s.recompute c).rails = s.rails := by
  first | rfl | (unfold State.recompute; (try dsimp only); (repeat' split) <;> first | rfl | simp)
@[simp] theorem State.recompute_avsFails (c : QCmd) : (s.recompute c).avsFails = s.avsFails := by
  first | rfl | (unfold State.recompute; (try dsimp only); (repeat' split) <;> first | rfl | simp)
@[simp] theorem State.recompute_fresh (c : QCmd) : (s.recompute c).fresh = s.fresh := by
  first | rfl | (unfold State.recompute; (try dsimp only); (repeat' split) <;> first | rfl | simp)
@[simp] theorem State.recompute_pending (c : QCmd) : (s.recompute c).pending = s.pending := by
  first | rfl | (unfold State.recompute; (try dsimp only); (repeat' split) <;> first | rfl | simp)

/-! ### signalsOf -/

@[simp] theorem State.signalsOf_eff (c : QCmd) (l : List Nat) : (s.signalsOf c l).eff = s.eff := by
  first | rfl | (unfold State.signalsOf; (try dsimp only); (repeat' split) <;> first | rfl | simp)
@[simp] theorem State.signalsOf_mem (c : QCmd) (l : List Nat) : (s.signalsOf c l).mem = s.mem := by
  first | rfl | (unfold State.signalsOf; (try dsimp only); (repeat' split) <;> first | rfl | simp)
@[simp] theorem State.signalsOf_poison (c : QCmd) (l : List Nat) : (s.signalsOf c l).poison = s.poison := by
  first | rfl | (unfold State.signalsOf; (try dsimp only); (repeat' split) <;> first | rfl | simp)
@[simp] theorem State.signalsOf_okWords (c : QCmd) (l : List Nat) : (s.signalsOf c l).okWords = s.okWords := by
  first | rfl | (unfold State.signalsOf; (try dsimp only); (repeat' split) <;> first | rfl | simp)
@[simp] theorem State.signalsOf_symErr (c : QCmd) (l : List Nat) : (s.signalsOf c l).symErr = s.symErr := by
  first | rfl | (unfold State.signalsOf; (try dsimp only); (repeat' split) <;> first | rfl | simp)
@[simp] theorem State.signalsOf_host (c : QCmd) (l : List Nat) : (s.signalsOf c l).host = s.host := by
  first | rfl | (unfold State.signalsOf; (try dsimp only); (repeat' split) <;> first | rfl | simp)
@[simp] theorem State.signalsOf_fuses (c : QCmd) (l : List Nat) : (s.signalsOf c l).fuses = s.fuses := by
  first | rfl | (unfold State.signalsOf; (try dsimp only); (repeat' split) <;> first | rfl | simp)
@[simp] theorem State.signalsOf_nvm (c : QCmd) (l : List Nat) : (s.signalsOf c l).nvm = s.nvm := by
  first | rfl | (unfold State.signalsOf; (try dsimp only); (repeat' split) <;> first | rfl | simp)
@[simp] theorem State.signalsOf_job (c : QCmd) (l : List Nat) : (s.signalsOf c l).job = s.job := by
  first | rfl | (unfold State.signalsOf; (try dsimp only); (repeat' split) <;> first | rfl | simp)
@[simp] theorem State.signalsOf_gaths (c : QCmd) (l : List Nat) : (s.signalsOf c l).gaths = s.gaths := by
  first | rfl | (unfold State.signalsOf; (try dsimp only); (repeat' split) <;> first | rfl | simp)
@[simp] theorem State.signalsOf_queues (c : QCmd) (l : List Nat) : (s.signalsOf c l).queues = s.queues := by
  first | rfl | (unfold State.signalsOf; (try dsimp only); (repeat' split) <;> first | rfl | simp)
@[simp] theorem State.signalsOf_yarders (c : QCmd) (l : List Nat) : (s.signalsOf c l).yarders = s.yarders := by
  first | rfl | (unfold State.signalsOf; (try dsimp only); (repeat' split) <;> first | rfl | simp)
@[simp] theorem State.signalsOf_colls (c : QCmd) (l : List Nat) : (s.signalsOf c l).colls = s.colls := by
  first | rfl | (unfold State.signalsOf; (try dsimp only); (repeat' split) <;> first | rfl | simp)
@[simp] theorem State.signalsOf_dies (c : QCmd) (l : List Nat) : (s.signalsOf c l).dies = s.dies := by
  first | rfl | (unfold State.signalsOf; (try dsimp only); (repeat' split) <;> first | rfl | simp)
@[simp] theorem State.signalsOf_tor (c : QCmd) (l : List Nat) : (s.signalsOf c l).tor = s.tor := by
  first | rfl | (unfold State.signalsOf; (try dsimp only); (repeat' split) <;> first | rfl | simp)
@[simp] theorem State.signalsOf_irl (c : QCmd) (l : List Nat) : (s.signalsOf c l).irl = s.irl := by
  first | rfl | (unfold State.signalsOf; (try dsimp only); (repeat' split) <;> first | rfl | simp)
@[simp] theorem State.signalsOf_mons (c : QCmd) (l : List Nat) : (s.signalsOf c l).mons = s.mons := by
  first | rfl | (unfold State.signalsOf; (try dsimp only); (repeat' split) <;> first | rfl | simp)
@[simp] theorem State.signalsOf_monEnds (c : QCmd) (l : List Nat) : (s.signalsOf c l).monEnds = s.monEnds := by
  first | rfl | (unfold State.signalsOf; (try dsimp only); (repeat' split) <;> first | rfl | simp)
@[simp] theorem State.signalsOf_waits (c : QCmd) (l : List Nat) : (s.signalsOf c l).waits = s.waits := by
  first | rfl | (unfold State.signalsOf; (try dsimp only); (repeat' split) <;> first | rfl | simp)
@[simp] theorem State.signalsOf_now (c : QCmd) (l : List Nat) : (s.signalsOf c l).now = s.now := by
  first | rfl | (unfold State.signalsOf; (try dsimp only); (repeat' split) <;> first | rfl | simp)
@[simp] theorem State.signalsOf_perst (c : QCmd) (l : List Nat) : (s.signalsOf c l).perst = s.perst := by
  first | rfl | (unfold State.signalsOf; (try dsimp only); (repeat' split) <;> first | rfl | simp)
@[simp] theorem State.signalsOf_slot (c : QCmd) (l : List Nat) : (s.signalsOf c l).slot = s.slot := by
  first | rfl | (unfold State.signalsOf; (try dsimp only); (repeat' split) <;> first | rfl | simp)
@[simp] theorem State.signalsOf_badRamp (c : QCmd) (l : List Nat) : (s.signalsOf c l).badRamp = s.badRamp := by
  first | rfl | (unfold State.signalsOf; (try dsimp only); (repeat' split) <;> first | rfl | simp)
@[simp] theorem State.signalsOf_rampCure (c : QCmd) (l : List Nat) : (s.signalsOf c l).rampCure = s.rampCure := by
  first | rfl | (unfold State.signalsOf; (try dsimp only); (repeat' split) <;> first | rfl | simp)
@[simp] theorem State.signalsOf_railUntil (c : QCmd) (l : List Nat) : (s.signalsOf c l).railUntil = s.railUntil := by
  first | rfl | (unfold State.signalsOf; (try dsimp only); (repeat' split) <;> first | rfl | simp)
@[simp] theorem State.signalsOf_dead (c : QCmd) (l : List Nat) : (s.signalsOf c l).dead = s.dead := by
  first | rfl | (unfold State.signalsOf; (try dsimp only); (repeat' split) <;> first | rfl | simp)
@[simp] theorem State.signalsOf_tripped (c : QCmd) (l : List Nat) : (s.signalsOf c l).tripped = s.tripped := by
  first | rfl | (unfold State.signalsOf; (try dsimp only); (repeat' split) <;> first | rfl | simp)
@[simp] theorem State.signalsOf_thermTripN (c : QCmd) (l : List Nat) : (s.signalsOf c l).thermTripN = s.thermTripN := by
  first | rfl | (unfold State.signalsOf; (try dsimp only); (repeat' split) <;> first | rfl | simp)
@[simp] theorem State.signalsOf_refclkLost (c : QCmd) (l : List Nat) : (s.signalsOf c l).refclkLost = s.refclkLost := by
  first | rfl | (unfold State.signalsOf; (try dsimp only); (repeat' split) <;> first | rfl | simp)
@[simp] theorem State.signalsOf_lpLost (c : QCmd) (l : List Nat) : (s.signalsOf c l).lpLost = s.lpLost := by
  first | rfl | (unfold State.signalsOf; (try dsimp only); (repeat' split) <;> first | rfl | simp)
@[simp] theorem State.signalsOf_image (c : QCmd) (l : List Nat) : (s.signalsOf c l).image = s.image := by
  first | rfl | (unfold State.signalsOf; (try dsimp only); (repeat' split) <;> first | rfl | simp)
@[simp] theorem State.signalsOf_imageSvn (c : QCmd) (l : List Nat) : (s.signalsOf c l).imageSvn = s.imageSvn := by
  first | rfl | (unfold State.signalsOf; (try dsimp only); (repeat' split) <;> first | rfl | simp)
@[simp] theorem State.signalsOf_imageDigest (c : QCmd) (l : List Nat) : (s.signalsOf c l).imageDigest = s.imageDigest := by
  first | rfl | (unfold State.signalsOf; (try dsimp only); (repeat' split) <;> first | rfl | simp)
@[simp] theorem State.signalsOf_idKey (c : QCmd) (l : List Nat) : (s.signalsOf c l).idKey = s.idKey := by
  first | rfl | (unfold State.signalsOf; (try dsimp only); (repeat' split) <;> first | rfl | simp)
@[simp] theorem State.signalsOf_attest (c : QCmd) (l : List Nat) : (s.signalsOf c l).attest = s.attest := by
  first | rfl | (unfold State.signalsOf; (try dsimp only); (repeat' split) <;> first | rfl | simp)
@[simp] theorem State.signalsOf_bundle (c : QCmd) (l : List Nat) : (s.signalsOf c l).bundle = s.bundle := by
  first | rfl | (unfold State.signalsOf; (try dsimp only); (repeat' split) <;> first | rfl | simp)
@[simp] theorem State.signalsOf_bundleCopy (c : QCmd) (l : List Nat) : (s.signalsOf c l).bundleCopy = s.bundleCopy := by
  first | rfl | (unfold State.signalsOf; (try dsimp only); (repeat' split) <;> first | rfl | simp)
@[simp] theorem State.signalsOf_nonce (c : QCmd) (l : List Nat) : (s.signalsOf c l).nonce = s.nonce := by
  first | rfl | (unfold State.signalsOf; (try dsimp only); (repeat' split) <;> first | rfl | simp)
@[simp] theorem State.signalsOf_tierSize (c : QCmd) (l : List Nat) : (s.signalsOf c l).tierSize = s.tierSize := by
  first | rfl | (unfold State.signalsOf; (try dsimp only); (repeat' split) <;> first | rfl | simp)
@[simp] theorem State.signalsOf_powerUw (c : QCmd) (l : List Nat) : (s.signalsOf c l).powerUw = s.powerUw := by
  first | rfl | (unfold State.signalsOf; (try dsimp only); (repeat' split) <;> first | rfl | simp)
@[simp] theorem State.signalsOf_rails (c : QCmd) (l : List Nat) : (s.signalsOf c l).rails = s.rails := by
  first | rfl | (unfold State.signalsOf; (try dsimp only); (repeat' split) <;> first | rfl | simp)
@[simp] theorem State.signalsOf_avsFails (c : QCmd) (l : List Nat) : (s.signalsOf c l).avsFails = s.avsFails := by
  first | rfl | (unfold State.signalsOf; (try dsimp only); (repeat' split) <;> first | rfl | simp)
@[simp] theorem State.signalsOf_fresh (c : QCmd) (l : List Nat) : (s.signalsOf c l).fresh = s.fresh := by
  first | rfl | (unfold State.signalsOf; (try dsimp only); (repeat' split) <;> first | rfl | simp)
@[simp] theorem State.signalsOf_pending (c : QCmd) (l : List Nat) : (s.signalsOf c l).pending = s.pending := by
  first | rfl | (unfold State.signalsOf; (try dsimp only); (repeat' split) <;> first | rfl | simp)

/-! ### completeCmd -/

@[simp] theorem State.completeCmd_eff (c : QCmd) (e : List Nat) : (s.completeCmd c e).eff = s.eff := by
  first | rfl | (unfold State.completeCmd; (try dsimp only); (repeat' split) <;> first | rfl | simp)
@[simp] theorem State.completeCmd_host (c : QCmd) (e : List Nat) : (s.completeCmd c e).host = s.host := by
  first | rfl | (unfold State.completeCmd; (try dsimp only); (repeat' split) <;> first | rfl | simp)
@[simp] theorem State.completeCmd_fuses (c : QCmd) (e : List Nat) : (s.completeCmd c e).fuses = s.fuses := by
  first | rfl | (unfold State.completeCmd; (try dsimp only); (repeat' split) <;> first | rfl | simp)
@[simp] theorem State.completeCmd_nvm (c : QCmd) (e : List Nat) : (s.completeCmd c e).nvm = s.nvm := by
  first | rfl | (unfold State.completeCmd; (try dsimp only); (repeat' split) <;> first | rfl | simp)
@[simp] theorem State.completeCmd_gaths (c : QCmd) (e : List Nat) : (s.completeCmd c e).gaths = s.gaths := by
  first | rfl | (unfold State.completeCmd; (try dsimp only); (repeat' split) <;> first | rfl | simp)
@[simp] theorem State.completeCmd_queues (c : QCmd) (e : List Nat) : (s.completeCmd c e).queues = s.queues := by
  first | rfl | (unfold State.completeCmd; (try dsimp only); (repeat' split) <;> first | rfl | simp)
@[simp] theorem State.completeCmd_yarders (c : QCmd) (e : List Nat) : (s.completeCmd c e).yarders = s.yarders := by
  first | rfl | (unfold State.completeCmd; (try dsimp only); (repeat' split) <;> first | rfl | simp)
@[simp] theorem State.completeCmd_colls (c : QCmd) (e : List Nat) : (s.completeCmd c e).colls = s.colls := by
  first | rfl | (unfold State.completeCmd; (try dsimp only); (repeat' split) <;> first | rfl | simp)
@[simp] theorem State.completeCmd_tor (c : QCmd) (e : List Nat) : (s.completeCmd c e).tor = s.tor := by
  first | rfl | (unfold State.completeCmd; (try dsimp only); (repeat' split) <;> first | rfl | simp)
@[simp] theorem State.completeCmd_irl (c : QCmd) (e : List Nat) : (s.completeCmd c e).irl = s.irl := by
  first | rfl | (unfold State.completeCmd; (try dsimp only); (repeat' split) <;> first | rfl | simp)
@[simp] theorem State.completeCmd_mons (c : QCmd) (e : List Nat) : (s.completeCmd c e).mons = s.mons := by
  first | rfl | (unfold State.completeCmd; (try dsimp only); (repeat' split) <;> first | rfl | simp)
@[simp] theorem State.completeCmd_monEnds (c : QCmd) (e : List Nat) : (s.completeCmd c e).monEnds = s.monEnds := by
  first | rfl | (unfold State.completeCmd; (try dsimp only); (repeat' split) <;> first | rfl | simp)
@[simp] theorem State.completeCmd_waits (c : QCmd) (e : List Nat) : (s.completeCmd c e).waits = s.waits := by
  first | rfl | (unfold State.completeCmd; (try dsimp only); (repeat' split) <;> first | rfl | simp)
@[simp] theorem State.completeCmd_now (c : QCmd) (e : List Nat) : (s.completeCmd c e).now = s.now := by
  first | rfl | (unfold State.completeCmd; (try dsimp only); (repeat' split) <;> first | rfl | simp)
@[simp] theorem State.completeCmd_perst (c : QCmd) (e : List Nat) : (s.completeCmd c e).perst = s.perst := by
  first | rfl | (unfold State.completeCmd; (try dsimp only); (repeat' split) <;> first | rfl | simp)
@[simp] theorem State.completeCmd_slot (c : QCmd) (e : List Nat) : (s.completeCmd c e).slot = s.slot := by
  first | rfl | (unfold State.completeCmd; (try dsimp only); (repeat' split) <;> first | rfl | simp)
@[simp] theorem State.completeCmd_badRamp (c : QCmd) (e : List Nat) : (s.completeCmd c e).badRamp = s.badRamp := by
  first | rfl | (unfold State.completeCmd; (try dsimp only); (repeat' split) <;> first | rfl | simp)
@[simp] theorem State.completeCmd_rampCure (c : QCmd) (e : List Nat) : (s.completeCmd c e).rampCure = s.rampCure := by
  first | rfl | (unfold State.completeCmd; (try dsimp only); (repeat' split) <;> first | rfl | simp)
@[simp] theorem State.completeCmd_railUntil (c : QCmd) (e : List Nat) : (s.completeCmd c e).railUntil = s.railUntil := by
  first | rfl | (unfold State.completeCmd; (try dsimp only); (repeat' split) <;> first | rfl | simp)
@[simp] theorem State.completeCmd_dead (c : QCmd) (e : List Nat) : (s.completeCmd c e).dead = s.dead := by
  first | rfl | (unfold State.completeCmd; (try dsimp only); (repeat' split) <;> first | rfl | simp)
@[simp] theorem State.completeCmd_tripped (c : QCmd) (e : List Nat) : (s.completeCmd c e).tripped = s.tripped := by
  first | rfl | (unfold State.completeCmd; (try dsimp only); (repeat' split) <;> first | rfl | simp)
@[simp] theorem State.completeCmd_thermTripN (c : QCmd) (e : List Nat) : (s.completeCmd c e).thermTripN = s.thermTripN := by
  first | rfl | (unfold State.completeCmd; (try dsimp only); (repeat' split) <;> first | rfl | simp)
@[simp] theorem State.completeCmd_refclkLost (c : QCmd) (e : List Nat) : (s.completeCmd c e).refclkLost = s.refclkLost := by
  first | rfl | (unfold State.completeCmd; (try dsimp only); (repeat' split) <;> first | rfl | simp)
@[simp] theorem State.completeCmd_lpLost (c : QCmd) (e : List Nat) : (s.completeCmd c e).lpLost = s.lpLost := by
  first | rfl | (unfold State.completeCmd; (try dsimp only); (repeat' split) <;> first | rfl | simp)
@[simp] theorem State.completeCmd_image (c : QCmd) (e : List Nat) : (s.completeCmd c e).image = s.image := by
  first | rfl | (unfold State.completeCmd; (try dsimp only); (repeat' split) <;> first | rfl | simp)
@[simp] theorem State.completeCmd_imageSvn (c : QCmd) (e : List Nat) : (s.completeCmd c e).imageSvn = s.imageSvn := by
  first | rfl | (unfold State.completeCmd; (try dsimp only); (repeat' split) <;> first | rfl | simp)
@[simp] theorem State.completeCmd_imageDigest (c : QCmd) (e : List Nat) : (s.completeCmd c e).imageDigest = s.imageDigest := by
  first | rfl | (unfold State.completeCmd; (try dsimp only); (repeat' split) <;> first | rfl | simp)
@[simp] theorem State.completeCmd_idKey (c : QCmd) (e : List Nat) : (s.completeCmd c e).idKey = s.idKey := by
  first | rfl | (unfold State.completeCmd; (try dsimp only); (repeat' split) <;> first | rfl | simp)
@[simp] theorem State.completeCmd_attest (c : QCmd) (e : List Nat) : (s.completeCmd c e).attest = s.attest := by
  first | rfl | (unfold State.completeCmd; (try dsimp only); (repeat' split) <;> first | rfl | simp)
@[simp] theorem State.completeCmd_bundle (c : QCmd) (e : List Nat) : (s.completeCmd c e).bundle = s.bundle := by
  first | rfl | (unfold State.completeCmd; (try dsimp only); (repeat' split) <;> first | rfl | simp)
@[simp] theorem State.completeCmd_bundleCopy (c : QCmd) (e : List Nat) : (s.completeCmd c e).bundleCopy = s.bundleCopy := by
  first | rfl | (unfold State.completeCmd; (try dsimp only); (repeat' split) <;> first | rfl | simp)
@[simp] theorem State.completeCmd_nonce (c : QCmd) (e : List Nat) : (s.completeCmd c e).nonce = s.nonce := by
  first | rfl | (unfold State.completeCmd; (try dsimp only); (repeat' split) <;> first | rfl | simp)
@[simp] theorem State.completeCmd_tierSize (c : QCmd) (e : List Nat) : (s.completeCmd c e).tierSize = s.tierSize := by
  first | rfl | (unfold State.completeCmd; (try dsimp only); (repeat' split) <;> first | rfl | simp)
@[simp] theorem State.completeCmd_powerUw (c : QCmd) (e : List Nat) : (s.completeCmd c e).powerUw = s.powerUw := by
  first | rfl | (unfold State.completeCmd; (try dsimp only); (repeat' split) <;> first | rfl | simp)
@[simp] theorem State.completeCmd_rails (c : QCmd) (e : List Nat) : (s.completeCmd c e).rails = s.rails := by
  first | rfl | (unfold State.completeCmd; (try dsimp only); (repeat' split) <;> first | rfl | simp)
@[simp] theorem State.completeCmd_avsFails (c : QCmd) (e : List Nat) : (s.completeCmd c e).avsFails = s.avsFails := by
  first | rfl | (unfold State.completeCmd; (try dsimp only); (repeat' split) <;> first | rfl | simp)
@[simp] theorem State.completeCmd_fresh (c : QCmd) (e : List Nat) : (s.completeCmd c e).fresh = s.fresh := by
  first | rfl | (unfold State.completeCmd; (try dsimp only); (repeat' split) <;> first | rfl | simp)
@[simp] theorem State.completeCmd_pending (c : QCmd) (e : List Nat) : (s.completeCmd c e).pending = s.pending := by
  first | rfl | (unfold State.completeCmd; (try dsimp only); (repeat' split) <;> first | rfl | simp)

/-! ### popQueue -/

@[simp] theorem State.popQueue_rf (d u : Nat) : (s.popQueue d u).rf = s.rf := by
  first | rfl | (unfold State.popQueue; (try dsimp only); (repeat' split) <;> first | rfl | simp)
@[simp] theorem State.popQueue_eff (d u : Nat) : (s.popQueue d u).eff = s.eff := by
  first | rfl | (unfold State.popQueue; (try dsimp only); (repeat' split) <;> first | rfl | simp)
@[simp] theorem State.popQueue_mem (d u : Nat) : (s.popQueue d u).mem = s.mem := by
  first | rfl | (unfold State.popQueue; (try dsimp only); (repeat' split) <;> first | rfl | simp)
@[simp] theorem State.popQueue_poison (d u : Nat) : (s.popQueue d u).poison = s.poison := by
  first | rfl | (unfold State.popQueue; (try dsimp only); (repeat' split) <;> first | rfl | simp)
@[simp] theorem State.popQueue_okWords (d u : Nat) : (s.popQueue d u).okWords = s.okWords := by
  first | rfl | (unfold State.popQueue; (try dsimp only); (repeat' split) <;> first | rfl | simp)
@[simp] theorem State.popQueue_symErr (d u : Nat) : (s.popQueue d u).symErr = s.symErr := by
  first | rfl | (unfold State.popQueue; (try dsimp only); (repeat' split) <;> first | rfl | simp)
@[simp] theorem State.popQueue_host (d u : Nat) : (s.popQueue d u).host = s.host := by
  first | rfl | (unfold State.popQueue; (try dsimp only); (repeat' split) <;> first | rfl | simp)
@[simp] theorem State.popQueue_fuses (d u : Nat) : (s.popQueue d u).fuses = s.fuses := by
  first | rfl | (unfold State.popQueue; (try dsimp only); (repeat' split) <;> first | rfl | simp)
@[simp] theorem State.popQueue_nvm (d u : Nat) : (s.popQueue d u).nvm = s.nvm := by
  first | rfl | (unfold State.popQueue; (try dsimp only); (repeat' split) <;> first | rfl | simp)
@[simp] theorem State.popQueue_recorder (d u : Nat) : (s.popQueue d u).recorder = s.recorder := by
  first | rfl | (unfold State.popQueue; (try dsimp only); (repeat' split) <;> first | rfl | simp)
@[simp] theorem State.popQueue_job (d u : Nat) : (s.popQueue d u).job = s.job := by
  first | rfl | (unfold State.popQueue; (try dsimp only); (repeat' split) <;> first | rfl | simp)
@[simp] theorem State.popQueue_hif (d u : Nat) : (s.popQueue d u).hif = s.hif := by
  first | rfl | (unfold State.popQueue; (try dsimp only); (repeat' split) <;> first | rfl | simp)
@[simp] theorem State.popQueue_gaths (d u : Nat) : (s.popQueue d u).gaths = s.gaths := by
  first | rfl | (unfold State.popQueue; (try dsimp only); (repeat' split) <;> first | rfl | simp)
@[simp] theorem State.popQueue_yarders (d u : Nat) : (s.popQueue d u).yarders = s.yarders := by
  first | rfl | (unfold State.popQueue; (try dsimp only); (repeat' split) <;> first | rfl | simp)
@[simp] theorem State.popQueue_colls (d u : Nat) : (s.popQueue d u).colls = s.colls := by
  first | rfl | (unfold State.popQueue; (try dsimp only); (repeat' split) <;> first | rfl | simp)
@[simp] theorem State.popQueue_dies (d u : Nat) : (s.popQueue d u).dies = s.dies := by
  first | rfl | (unfold State.popQueue; (try dsimp only); (repeat' split) <;> first | rfl | simp)
@[simp] theorem State.popQueue_signals (d u : Nat) : (s.popQueue d u).signals = s.signals := by
  first | rfl | (unfold State.popQueue; (try dsimp only); (repeat' split) <;> first | rfl | simp)
@[simp] theorem State.popQueue_mtok (d u : Nat) : (s.popQueue d u).mtok = s.mtok := by
  first | rfl | (unfold State.popQueue; (try dsimp only); (repeat' split) <;> first | rfl | simp)
@[simp] theorem State.popQueue_mOvf (d u : Nat) : (s.popQueue d u).mOvf = s.mOvf := by
  first | rfl | (unfold State.popQueue; (try dsimp only); (repeat' split) <;> first | rfl | simp)
@[simp] theorem State.popQueue_tor (d u : Nat) : (s.popQueue d u).tor = s.tor := by
  first | rfl | (unfold State.popQueue; (try dsimp only); (repeat' split) <;> first | rfl | simp)
@[simp] theorem State.popQueue_irl (d u : Nat) : (s.popQueue d u).irl = s.irl := by
  first | rfl | (unfold State.popQueue; (try dsimp only); (repeat' split) <;> first | rfl | simp)
@[simp] theorem State.popQueue_mons (d u : Nat) : (s.popQueue d u).mons = s.mons := by
  first | rfl | (unfold State.popQueue; (try dsimp only); (repeat' split) <;> first | rfl | simp)
@[simp] theorem State.popQueue_monEnds (d u : Nat) : (s.popQueue d u).monEnds = s.monEnds := by
  first | rfl | (unfold State.popQueue; (try dsimp only); (repeat' split) <;> first | rfl | simp)
@[simp] theorem State.popQueue_waits (d u : Nat) : (s.popQueue d u).waits = s.waits := by
  first | rfl | (unfold State.popQueue; (try dsimp only); (repeat' split) <;> first | rfl | simp)
@[simp] theorem State.popQueue_now (d u : Nat) : (s.popQueue d u).now = s.now := by
  first | rfl | (unfold State.popQueue; (try dsimp only); (repeat' split) <;> first | rfl | simp)
@[simp] theorem State.popQueue_perst (d u : Nat) : (s.popQueue d u).perst = s.perst := by
  first | rfl | (unfold State.popQueue; (try dsimp only); (repeat' split) <;> first | rfl | simp)
@[simp] theorem State.popQueue_slot (d u : Nat) : (s.popQueue d u).slot = s.slot := by
  first | rfl | (unfold State.popQueue; (try dsimp only); (repeat' split) <;> first | rfl | simp)
@[simp] theorem State.popQueue_badRamp (d u : Nat) : (s.popQueue d u).badRamp = s.badRamp := by
  first | rfl | (unfold State.popQueue; (try dsimp only); (repeat' split) <;> first | rfl | simp)
@[simp] theorem State.popQueue_rampCure (d u : Nat) : (s.popQueue d u).rampCure = s.rampCure := by
  first | rfl | (unfold State.popQueue; (try dsimp only); (repeat' split) <;> first | rfl | simp)
@[simp] theorem State.popQueue_railUntil (d u : Nat) : (s.popQueue d u).railUntil = s.railUntil := by
  first | rfl | (unfold State.popQueue; (try dsimp only); (repeat' split) <;> first | rfl | simp)
@[simp] theorem State.popQueue_dead (d u : Nat) : (s.popQueue d u).dead = s.dead := by
  first | rfl | (unfold State.popQueue; (try dsimp only); (repeat' split) <;> first | rfl | simp)
@[simp] theorem State.popQueue_tripped (d u : Nat) : (s.popQueue d u).tripped = s.tripped := by
  first | rfl | (unfold State.popQueue; (try dsimp only); (repeat' split) <;> first | rfl | simp)
@[simp] theorem State.popQueue_thermTripN (d u : Nat) : (s.popQueue d u).thermTripN = s.thermTripN := by
  first | rfl | (unfold State.popQueue; (try dsimp only); (repeat' split) <;> first | rfl | simp)
@[simp] theorem State.popQueue_refclkLost (d u : Nat) : (s.popQueue d u).refclkLost = s.refclkLost := by
  first | rfl | (unfold State.popQueue; (try dsimp only); (repeat' split) <;> first | rfl | simp)
@[simp] theorem State.popQueue_lpLost (d u : Nat) : (s.popQueue d u).lpLost = s.lpLost := by
  first | rfl | (unfold State.popQueue; (try dsimp only); (repeat' split) <;> first | rfl | simp)
@[simp] theorem State.popQueue_image (d u : Nat) : (s.popQueue d u).image = s.image := by
  first | rfl | (unfold State.popQueue; (try dsimp only); (repeat' split) <;> first | rfl | simp)
@[simp] theorem State.popQueue_imageSvn (d u : Nat) : (s.popQueue d u).imageSvn = s.imageSvn := by
  first | rfl | (unfold State.popQueue; (try dsimp only); (repeat' split) <;> first | rfl | simp)
@[simp] theorem State.popQueue_imageDigest (d u : Nat) : (s.popQueue d u).imageDigest = s.imageDigest := by
  first | rfl | (unfold State.popQueue; (try dsimp only); (repeat' split) <;> first | rfl | simp)
@[simp] theorem State.popQueue_idKey (d u : Nat) : (s.popQueue d u).idKey = s.idKey := by
  first | rfl | (unfold State.popQueue; (try dsimp only); (repeat' split) <;> first | rfl | simp)
@[simp] theorem State.popQueue_attest (d u : Nat) : (s.popQueue d u).attest = s.attest := by
  first | rfl | (unfold State.popQueue; (try dsimp only); (repeat' split) <;> first | rfl | simp)
@[simp] theorem State.popQueue_bundle (d u : Nat) : (s.popQueue d u).bundle = s.bundle := by
  first | rfl | (unfold State.popQueue; (try dsimp only); (repeat' split) <;> first | rfl | simp)
@[simp] theorem State.popQueue_bundleCopy (d u : Nat) : (s.popQueue d u).bundleCopy = s.bundleCopy := by
  first | rfl | (unfold State.popQueue; (try dsimp only); (repeat' split) <;> first | rfl | simp)
@[simp] theorem State.popQueue_nonce (d u : Nat) : (s.popQueue d u).nonce = s.nonce := by
  first | rfl | (unfold State.popQueue; (try dsimp only); (repeat' split) <;> first | rfl | simp)
@[simp] theorem State.popQueue_tierSize (d u : Nat) : (s.popQueue d u).tierSize = s.tierSize := by
  first | rfl | (unfold State.popQueue; (try dsimp only); (repeat' split) <;> first | rfl | simp)
@[simp] theorem State.popQueue_powerUw (d u : Nat) : (s.popQueue d u).powerUw = s.powerUw := by
  first | rfl | (unfold State.popQueue; (try dsimp only); (repeat' split) <;> first | rfl | simp)
@[simp] theorem State.popQueue_rails (d u : Nat) : (s.popQueue d u).rails = s.rails := by
  first | rfl | (unfold State.popQueue; (try dsimp only); (repeat' split) <;> first | rfl | simp)
@[simp] theorem State.popQueue_avsFails (d u : Nat) : (s.popQueue d u).avsFails = s.avsFails := by
  first | rfl | (unfold State.popQueue; (try dsimp only); (repeat' split) <;> first | rfl | simp)
@[simp] theorem State.popQueue_fresh (d u : Nat) : (s.popQueue d u).fresh = s.fresh := by
  first | rfl | (unfold State.popQueue; (try dsimp only); (repeat' split) <;> first | rfl | simp)
@[simp] theorem State.popQueue_pending (d u : Nat) : (s.popQueue d u).pending = s.pending := by
  first | rfl | (unfold State.popQueue; (try dsimp only); (repeat' split) <;> first | rfl | simp)

end Sys2Proof.Machine
end

