-- ==== Sys2Proof/Laws/Tab.lean ====
section
/-! SUPPORT. Sparse tables: reading after writing, and the canonical form, which every update keeps. -/

namespace Sys2Proof.Machine

variable {α : Type}

/-! ## Reading after writing -/

theorem Tab.get_erase (d : α) (t : Tab α) (k i : Nat) :
    Tab.get d (Tab.erase t k) i = if i = k then d else Tab.get d t i := by
  induction t with
  | nil => simp [Tab.erase, Tab.get]
  | cons p r ih =>
    obtain ⟨j, v⟩ := p
    by_cases hj : j = k
    · subst hj
      simp only [Tab.erase, if_true, ih, Tab.get]
      by_cases hi : i = j
      · simp [hi]
      · simp [hi, Ne.symm hi]
    · simp only [Tab.erase, hj, if_false, Tab.get, ih]
      by_cases hi : j = i
      · subst hi; simp [hj]
      · simp [hi]

theorem Tab.get_ins_same (d : α) (t : Tab α) (k : Nat) (v : α) (h : ∀ p ∈ t, p.1 ≠ k) :
    Tab.get d (Tab.ins t k v) k = v := by
  induction t with
  | nil => simp [Tab.ins, Tab.get]
  | cons p r ih =>
    obtain ⟨j, w⟩ := p
    have hj : j ≠ k := h (j, w) (by simp)
    by_cases hk : k < j
    · simp [Tab.ins, hk, Tab.get]
    · simp only [Tab.ins, hk, if_false, Tab.get, hj]
      exact ih fun q hq => h q (by simp [hq])

theorem Tab.get_ins_other (d : α) (t : Tab α) (k i : Nat) (v : α) (h : i ≠ k) :
    Tab.get d (Tab.ins t k v) i = Tab.get d t i := by
  induction t with
  | nil => simp [Tab.ins, Tab.get, Ne.symm h]
  | cons p r ih =>
    obtain ⟨j, w⟩ := p
    by_cases hk : k < j
    · simp [Tab.ins, hk, Tab.get, Ne.symm h]
    · simp only [Tab.ins, hk, if_false, Tab.get, ih]

theorem Tab.erase_ne (t : Tab α) (k : Nat) : ∀ p ∈ Tab.erase t k, p.1 ≠ k := by
  induction t with
  | nil => simp [Tab.erase]
  | cons p r ih =>
    obtain ⟨j, v⟩ := p
    by_cases hj : j = k
    · simpa [Tab.erase, hj] using ih
    · intro q hq
      simp only [Tab.erase, hj, if_false, List.mem_cons] at hq
      rcases hq with rfl | hq
      · exact hj
      · exact ih q hq

@[simp] theorem Tab.get_upd_same (d : α) (t : Tab α) (k : Nat) (v : α) : Tab.get d (Tab.upd t k v) k = v :=
  Tab.get_ins_same d _ k v (Tab.erase_ne t k)

theorem Tab.get_upd_other (d : α) (t : Tab α) (k i : Nat) (v : α) (h : i ≠ k) :
    Tab.get d (Tab.upd t k v) i = Tab.get d t i := by
  rw [Tab.upd, Tab.get_ins_other d _ k i v h, Tab.get_erase, if_neg h]

theorem Tab.get_upd (d : α) (t : Tab α) (k i : Nat) (v : α) :
    Tab.get d (Tab.upd t k v) i = if i = k then v else Tab.get d t i := by
  by_cases h : i = k
  · subst h; simp
  · simp [h, Tab.get_upd_other]

theorem Tab.get_put [DecidableEq α] (d : α) (t : Tab α) (k i : Nat) (v : α) :
    Tab.get d (Tab.put d t k v) i = if i = k then v else Tab.get d t i := by
  unfold Tab.put
  split
  · rename_i h; subst h; exact Tab.get_erase _ t k i
  · exact Tab.get_upd d t k i v

@[simp] theorem Tab.get_put_same [DecidableEq α] (d : α) (t : Tab α) (k : Nat) (v : α) :
    Tab.get d (Tab.put d t k v) k = v := by simp [Tab.get_put]

theorem Tab.get_put_other [DecidableEq α] (d : α) (t : Tab α) (k i : Nat) (v : α) (h : i ≠ k) :
    Tab.get d (Tab.put d t k v) i = Tab.get d t i := by simp [Tab.get_put, h]

/-! ## The canonical form -/

variable [DecidableEq α]

theorem Tab.wfFrom_mono {d : α} {lo lo' : Nat} {t : Tab α} (h : Tab.wfFrom d lo t = true) (hl : lo' ≤ lo) :
    Tab.wfFrom d lo' t = true := by
  cases t with
  | nil => rfl
  | cons p r =>
    obtain ⟨k, v⟩ := p
    simp only [Tab.wfFrom, Bool.and_eq_true, decide_eq_true_eq] at h ⊢
    exact ⟨⟨by omega, h.1.2⟩, h.2⟩

theorem Tab.wfFrom_erase {d : α} {t : Tab α} (k : Nat) :
    ∀ {lo : Nat}, Tab.wfFrom d lo t = true → Tab.wfFrom d lo (Tab.erase t k) = true := by
  induction t with
  | nil => intro lo _; rfl
  | cons p r ih =>
    obtain ⟨j, v⟩ := p
    intro lo h
    simp only [Tab.wfFrom, Bool.and_eq_true, decide_eq_true_eq] at h
    by_cases hj : j = k
    · simp only [Tab.erase, hj, if_true]
      exact Tab.wfFrom_mono (ih h.2) (by omega)
    · simp only [Tab.erase, hj, if_false, Tab.wfFrom, Bool.and_eq_true, decide_eq_true_eq]
      exact ⟨h.1, ih h.2⟩

theorem Tab.wfFrom_ins {d : α} {t : Tab α} (k : Nat) (v : α) (hv : v ≠ d) :
    ∀ {lo : Nat}, lo ≤ k → (∀ p ∈ t, p.1 ≠ k) → Tab.wfFrom d lo t = true → Tab.wfFrom d lo (Tab.ins t k v) = true := by
  induction t with
  | nil => intro lo hk _ _; simp [Tab.ins, Tab.wfFrom, hk, hv]
  | cons p r ih =>
    obtain ⟨j, w⟩ := p
    intro lo hk hn h
    have hj : j ≠ k := hn (j, w) (by simp)
    simp only [Tab.wfFrom, Bool.and_eq_true, decide_eq_true_eq] at h
    by_cases hlt : k < j
    · simp only [Tab.ins, hlt, if_true, Tab.wfFrom, Bool.and_eq_true, decide_eq_true_eq]
      refine ⟨⟨hk, by simp [hv]⟩, ⟨⟨by omega, h.1.2⟩, h.2⟩⟩
    · simp only [Tab.ins, hlt, if_false, Tab.wfFrom, Bool.and_eq_true, decide_eq_true_eq]
      exact ⟨h.1, ih (by omega) (fun q hq => hn q (by simp [hq])) h.2⟩

/-- Writing one key keeps the canonical form. -/
theorem Tab.wf_put {d : α} {t : Tab α} (k : Nat) (v : α) (h : Tab.wf d t = true) :
    Tab.wf d (Tab.put d t k v) = true := by
  unfold Tab.put
  split
  · exact Tab.wfFrom_erase k h
  · rename_i hv
    exact Tab.wfFrom_ins k v hv (by omega) (Tab.erase_ne t k) (Tab.wfFrom_erase k h)

end Sys2Proof.Machine
end

