-- ==== Sys2Proof/Laws/Registers.lean ====
section
/-! SUPPORT. Register fields: no two share a key, so a write of one reads back there and nowhere else. -/

namespace Sys2Proof.Machine

theorem Field.ctorIdx_lt (f : Field) : f.ctorIdx < 512 := by cases f <;> decide

theorem Field.ctorIdx_inj {f g : Field} (h : f.ctorIdx = g.ctorIdx) : f = g := by
  have hf := Field.ofNat_ctorIdx f
  have hg := Field.ofNat_ctorIdx g
  rw [← hf, ← hg, h]

/-- Two elements of fields share a key only if they are the same element of the same field. -/
theorem Field.key_inj {f g : Field} {i j : Nat} (h : f.key i = g.key j) : f = g ∧ i = j := by
  have hf := Field.ctorIdx_lt f
  have hg := Field.ctorIdx_lt g
  unfold Field.key at h
  exact ⟨Field.ctorIdx_inj (by omega), by omega⟩

variable (s : State)

/-- A write is cut to the width of the field and read back. -/
@[simp] theorem State.fld_setFld_same (f : Field) (i v : Nat) :
    (s.setFld f i v).fld f i = v % 2 ^ f.info.width := by simp [State.setFld, State.fld]

/-- A write leaves every other field, and every other element of the field, alone. -/
theorem State.fld_setFld_other (f g : Field) (i j v : Nat) (h : g ≠ f ∨ j ≠ i) :
    (s.setFld f i v).fld g j = s.fld g j := by
  unfold State.setFld State.fld
  by_cases hk : g.key j = f.key i
  · have := Field.key_inj hk
    rcases h with h | h
    · exact absurd this.1 h
    · exact absurd this.2 h
  · -- the default of the written field does not matter at another key
    unfold Tab.put
    split
    · rw [Tab.get_erase, if_neg hk]
    · rw [Tab.get_upd_other _ _ _ _ _ hk]

theorem State.fld_setFld_field (f g : Field) (i j v : Nat) (h : g ≠ f) : (s.setFld f i v).fld g j = s.fld g j :=
  s.fld_setFld_other f g i j v (.inl h)

theorem State.fld_setFld_elem (f : Field) (i j v : Nat) (h : j ≠ i) : (s.setFld f i v).fld f j = s.fld f j :=
  s.fld_setFld_other f f i j v (.inr h)

@[simp] theorem State.flag_setFlag_same (f : Field) (i : Nat) (b : Bool) (h : 0 < f.info.width) :
    (s.setFlag f i b).flag f i = b := by
  have h2 : 1 < 2 ^ f.info.width := Nat.one_lt_two_pow (by omega)
  cases b <;> simp [State.flag, State.setFlag, b2n, Nat.mod_eq_of_lt h2]

end Sys2Proof.Machine
end

