-- ==== Sys2Proof/Laws/Memory.lean ====
section
/-! SUPPORT. Memory: a read after a write gives the bytes written, a write leaves every other byte alone, and every
write keeps the canonical form. -/

namespace Sys2Proof.Machine

/-! ## One byte -/

theorem rdCell_wrCell (d : Byte) (m : List Host.Cell) (a v b : Nat) :
    rdCell d (wrCell d m a v) b = if b = a then v % 256 else rdCell d m b := by
  unfold rdCell wrCell
  rw [Tab.get_put]
  split <;> simp

theorem rdCell_lt (d : Byte) (m : List Host.Cell) (a : Nat) : rdCell d m a < 256 := (Tab.get d m a).isLt

theorem wrCell_wf {d : Byte} {m : List Host.Cell} (a v : Nat) (h : Memory.wf d m = true) :
    Memory.wf d (wrCell d m a v) = true := Tab.wf_put a _ h

/-! ## Stretches of bytes -/

theorem rdCell_wrCells_outside (d : Byte) (l : List Nat) :
    ∀ (m : List Host.Cell) (a b : Nat), (b < a ∨ a + l.length ≤ b) → rdCell d (wrCells d m a l) b = rdCell d m b := by
  induction l with
  | nil => intro m a b _; rfl
  | cons v vs ih =>
    intro m a b h
    simp only [List.length_cons] at h
    rw [wrCells, ih _ _ _ (by omega), rdCell_wrCell, if_neg (by omega)]

theorem rdCell_wrCells_inside (d : Byte) (l : List Nat) :
    ∀ (m : List Host.Cell) (a i : Nat), i < l.length → rdCell d (wrCells d m a l) (a + i) = l.getD i 0 % 256 := by
  induction l with
  | nil => intro m a i h; simp at h
  | cons v vs ih =>
    intro m a i h
    cases i with
    | zero =>
      rw [wrCells, rdCell_wrCells_outside d vs _ _ _ (by omega), rdCell_wrCell]
      simp
    | succ i =>
      have := ih (wrCell d m a v) (a + 1) i (by simpa using h)
      rw [wrCells, show a + (i + 1) = a + 1 + i by omega, this]
      simp

theorem rdCells_congr (d : Byte) {m m' : List Host.Cell} {n : Nat} :
    ∀ {a : Nat}, (∀ b, a ≤ b → b < a + n → rdCell d m b = rdCell d m' b) → rdCells d m a n = rdCells d m' a n := by
  induction n with
  | zero => intro a _; rfl
  | succ n ih =>
    intro a h
    simp only [rdCells]
    rw [h a (by omega) (by omega), ih fun b hb hb' => h b (by omega) (by omega)]

/-- Bytes written and read back make the little-endian number they spell (R10). -/
theorem rdCells_wrCells (d : Byte) (l : List Nat) :
    ∀ (m : List Host.Cell) (a : Nat), rdCells d (wrCells d m a l) a l.length = leNat l := by
  induction l with
  | nil => intro m a; rfl
  | cons v vs ih =>
    intro m a
    have h0 := rdCell_wrCells_inside d (v :: vs) m a 0 (by simp)
    simp only [Nat.add_zero, List.getD_cons_zero] at h0
    simp only [List.length_cons, rdCells, leNat]
    rw [h0]
    congr 1
    rw [wrCells, ih]

theorem wrCells_wf {d : Byte} (l : List Nat) :
    ∀ {m : List Host.Cell} (a : Nat), Memory.wf d m = true → Memory.wf d (wrCells d m a l) = true := by
  induction l with
  | nil => intro m a h; exact h
  | cons v vs ih => intro m a h; exact ih _ (wrCell_wf a v h)

theorem leNat_leBytes (n : Nat) : ∀ v : Nat, leNat (leBytes n v) = v % 256 ^ n := by
  induction n with
  | zero => intro v; simp [leBytes, leNat, Nat.mod_one]
  | succ n ih =>
    intro v
    simp only [leBytes, leNat, ih, Nat.mod_mod]
    rw [Nat.pow_succ, Nat.mul_comm (256 ^ n) 256, Nat.mod_mul]

@[simp] theorem leBytes_length (n : Nat) : ∀ v : Nat, (leBytes n v).length = n := by
  induction n with
  | zero => intro v; rfl
  | succ n ih => intro v; simp [leBytes, ih]

/-! ## Device memory -/

variable (s : State)

/-- A number written to device memory is read back, cut to the bytes written. -/
@[simp] theorem State.rd_wr_same (a n v : Nat) : (s.wr a n v).rd a n = v % 256 ^ n := by
  have := rdCells_wrCells memDefault (leBytes n v) s.mem a
  rw [leBytes_length] at this
  rw [State.rd, State.wr, State.wrL, this, leNat_leBytes]

/-- A write leaves every byte outside it alone. -/
theorem State.rdB_wrL_outside (a b : Nat) (l : List Nat) (h : b < a ∨ a + l.length ≤ b) :
    (s.wrL a l).rdB b = s.rdB b := rdCell_wrCells_outside memDefault l s.mem a b h

theorem State.rdB_wr_outside (a b n v : Nat) (h : b < a ∨ a + n ≤ b) : (s.wr a n v).rdB b = s.rdB b :=
  s.rdB_wrL_outside a b _ (by simpa using h)

theorem State.rd_wrL_outside (a b n : Nat) (l : List Nat) (h : b + n ≤ a ∨ a + l.length ≤ b) :
    (s.wrL a l).rd b n = s.rd b n := by
  apply rdCells_congr
  intro c hc hc'
  exact s.rdB_wrL_outside a c l (by omega)

/-- A masked byte changes the bits of its mask alone, at its own address alone. -/
theorem State.rdB_wrMasked_other (c : Nat × Nat) (b : Nat) (h : b ≠ c.1) : (s.wrMasked c).rdB b = s.rdB b := by
  unfold State.wrMasked State.rdB
  rw [rdCell_wrCell, if_neg h]

theorem State.wrL_wf (a : Nat) (l : List Nat) (h : Memory.wf memDefault s.mem = true) :
    Memory.wf memDefault (s.wrL a l).mem = true := wrCells_wf l a h

theorem State.wr_wf (a n v : Nat) (h : Memory.wf memDefault s.mem = true) :
    Memory.wf memDefault (s.wr a n v).mem = true := s.wrL_wf a _ h

theorem State.wrMasked_wf (c : Nat × Nat) (h : Memory.wf memDefault s.mem = true) :
    Memory.wf memDefault (s.wrMasked c).mem = true := wrCell_wf c.1 _ h

/-- Masked bytes written one after another keep the canonical form. -/
theorem State.foldl_wrMasked_wf (l : List (Nat × Nat)) :
    ∀ s : State, Memory.wf memDefault s.mem = true → Memory.wf memDefault (l.foldl State.wrMasked s).mem = true := by
  induction l with
  | nil => intro s h; exact h
  | cons c cs ih => intro s h; exact ih _ (s.wrMasked_wf c h)

/-- Masked bytes written elsewhere leave a byte alone. -/
theorem State.rdB_foldl_wrMasked (b : Nat) (l : List (Nat × Nat)) :
    ∀ s : State, (∀ c ∈ l, c.1 ≠ b) → (l.foldl State.wrMasked s).rdB b = s.rdB b := by
  induction l with
  | nil => intro s _; rfl
  | cons c cs ih =>
    intro s h
    rw [List.foldl_cons, ih _ fun c' hc => h c' (by simp [hc]), State.rdB_wrMasked_other _ _ _ (Ne.symm (h c (by simp)))]

/-! ## Host memory -/

theorem State.hwr_wf (a : Nat) (l : List Nat) (h : Memory.wf memDefault s.host = true) :
    Memory.wf memDefault (s.hwr a l).host = true := by
  unfold State.hwr
  split
  · exact wrCells_wf l a h
  · exact h

/-- While Bus Master Enable is 1 a write request lands at once (R624). -/
theorem State.hrd_hwr (a : Nat) (l : List Nat) (h : s.hif.busMaster = true) :
    (s.hwr a l).hrd a l.length = leNat l := by
  simp only [State.hwr, h, if_true, State.hrd]
  exact rdCells_wrCells memDefault l s.host a

end Sys2Proof.Machine
end

