-- ==== Sys2Proof/Laws/Errors.lean ====
section
/-! SUPPORT. What a write that lands does to memory, what a counted correction leaves alone, and how a delivered slot is
taken. -/

namespace Sys2Proof.Machine

variable (s : State)

/-! ## Corrections counted -/


/-- Counting corrections leaves alone what a counter does not touch. -/
theorem State.counted_keeps {β : Type} (p : State → β) (h : ∀ s f i n, p (State.bump s f i n) = p s) (a n : Nat) :
    p (s.counted a n) = p s := by
  unfold State.counted
  split
  · rfl
  · apply foldl_keeps
    intro s i
    dsimp only
    split
    · rfl
    · split <;> exact h ..

/-- Counting corrections changes no byte, no record of a lost granule and no symbol. -/
@[simp] theorem State.counted_mem (a n : Nat) : (s.counted a n).mem = s.mem := s.counted_keeps State.mem (fun _ _ _ _ => rfl) a n
@[simp] theorem State.counted_poison (a n : Nat) : (s.counted a n).poison = s.poison :=
  s.counted_keeps State.poison (fun _ _ _ _ => rfl) a n
@[simp] theorem State.counted_symErr (a n : Nat) : (s.counted a n).symErr = s.symErr :=
  s.counted_keeps State.symErr (fun _ _ _ _ => rfl) a n
@[simp] theorem State.counted_irl (a n : Nat) : (s.counted a n).irl = s.irl :=
  s.counted_keeps State.irl (fun _ _ _ _ => rfl) a n

/-- With nothing in error no read counts anything. -/
theorem State.counted_clean (a n : Nat) (h : s.clean = true) : s.counted a n = s := by
  unfold State.counted
  rw [if_pos (Or.inr h)]

/-! ## A write that lands -/

theorem State.foldl_heal_mem (f : Nat → Nat) (l : List Nat) :
    (l.foldl (fun s g => State.heal s g (f g)) s).mem = s.mem :=
  foldl_keeps State.mem _ (fun _ _ => by simp) l s

/-- All that a write that lands does to memory: its bytes stand at its address. -/
theorem State.store_mem (a : Nat) (l : List Nat) : (s.store a l).mem = (s.wrL a l).mem := by
  unfold State.store State.wrL
  simp only [State.invalidate_mem, State.foldl_heal_mem, State.countedEnds_mem]

/-- A write that lands leaves every byte outside it alone. -/
theorem State.rdB_store_outside (a b : Nat) (l : List Nat) (h : b < a ∨ a + l.length ≤ b) :
    (s.store a l).rdB b = s.rdB b := by
  have := s.rdB_wrL_outside a b l h
  unfold State.rdB at *
  rw [s.store_mem]
  exact this

/-- What has landed is read back. -/
theorem State.rd_store (a : Nat) (l : List Nat) : (s.store a l).rd a l.length = leNat l := by
  unfold State.rd
  rw [s.store_mem]
  exact rdCells_wrCells memDefault l s.mem a

theorem State.store_wf (a : Nat) (l : List Nat) (h : Memory.wf memDefault s.mem = true) :
    Memory.wf memDefault (s.store a l).mem = true := by
  rw [s.store_mem]
  exact s.wrL_wf a l h

/-! ## Slots -/

@[simp] theorem State.freeSlots_mem (k v n : Nat) : (s.freeSlots k v n).mem = s.mem := rfl
@[simp] theorem State.freeSlots_rf (k v n : Nat) : (s.freeSlots k v n).rf = s.rf := rfl
@[simp] theorem State.freeSlots_arrived (k v n : Nat) : (s.freeSlots k v n).irl.arrived = s.irl.arrived := rfl

/-- The slot that is taken is one that was delivered, and none of its flow stands before it. -/
theorem headSlot_mem (ok : Slot → Bool) : ∀ (l : List Arrived) (seen : List (Nat × Nat × Nat)) (x : Arrived),
    headSlot ok l seen = some x → x ∈ l ∧ ok x.slot = true ∧ x.flow ∉ seen
  | [], _, _, h => by simp [headSlot] at h
  | y :: r, seen, x, h => by
    unfold headSlot at h
    split at h
    · obtain ⟨e, n⟩ := ‹ok y.slot = true ∧ _›
      cases h
      exact ⟨by simp, e, by simpa using n⟩
    · obtain ⟨m, e, n⟩ := headSlot_mem ok r _ x h
      exact ⟨by simp [m], e, fun i => n (by simp [i])⟩

/-- All that taking a slot does: one delivered slot equal to it leaves the buffer of its link end, and memory and
registers stay. -/
theorem State.takeSlot_some {a : Slot} {t : State} (h : s.takeSlot a = some t) :
    ∃ x ∈ s.irl.arrived, x.slot = a ∧ t.irl.arrived = s.irl.arrived.erase x ∧ t.mem = s.mem ∧ t.rf = s.rf := by
  unfold State.takeSlot at h
  cases e : headSlot (· == a) s.irl.arrived [] with
  | none => rw [e] at h; cases h
  | some x =>
    rw [e] at h
    cases h
    obtain ⟨m, q, -⟩ := headSlot_mem _ _ _ x e
    exact ⟨x, m, by simpa using q, rfl, rfl, rfl⟩

/-- A slot of another kind, or one whose turn has not come, changes nothing. -/
theorem State.onSlot_none {k : Nat} {a : Slot} {f : State → State} (h : a.kind ≠ k ∨ s.takeSlot a = none) :
    s.onSlot k a f = s := by
  unfold State.onSlot
  split
  · rfl
  · rw [h.resolve_left ‹_›]

/-- With nothing delivered, a management command acts on its own operands. -/
theorem State.onMgmt_own {p : Option Nat} {c : Nat} {m : Mgmt} {f : Mgmt → State → State} (h : s.irl.arrived = []) :
    s.onMgmt p c m f = f m s := by
  simp [State.onMgmt, h, headSlot]

end Sys2Proof.Machine
end

