-- ==== Sys2Proof/Laws/Issue.lean ====
section
/-! SUPPORT. Issue of a gathering instruction (R226 to R248): what landing leaves alone, and what an issue leaves. -/

namespace Sys2Proof.Machine

variable (s : State)

@[simp] theorem State.gath_setGath_same (d g : Nat) (x : Gath) : (s.setGath d g x).gath d g = x := by
  simp [State.gath, State.setGath]

theorem State.gath_setGath_other (d g d' g' : Nat) (x : Gath) (h : gi d' g' ≠ gi d g) :
    (s.setGath d g x).gath d' g' = s.gath d' g' := by
  simp [State.gath, State.setGath, Tab.get_upd_other _ _ _ _ _ h]

@[simp] theorem State.gath_setFld (f : Field) (i v d g : Nat) : (s.setFld f i v).gath d g = s.gath d g := rfl
@[simp] theorem State.gath_setFlag (f : Field) (i d g : Nat) (b : Bool) : (s.setFlag f i b).gath d g = s.gath d g := rfl
@[simp] theorem State.fld_setGath (f : Field) (i d g : Nat) (x : Gath) : (s.setGath d g x).fld f i = s.fld f i := rfl
@[simp] theorem State.fld_setDie (f : Field) (i d : Nat) (x : Die) : (s.setDie d x).fld f i = s.fld f i := rfl

/-! ## Landing -/

theorem State.wrMasked_fold_gaths (l : List (Nat × Nat)) : ∀ s : State, (l.foldl State.wrMasked s).gaths = s.gaths :=
  fun s => foldl_keeps (·.gaths) _ (fun s c => by simp) l s

theorem State.heal_fold_gaths (f : Nat → Nat) (l : List Nat) :
    ∀ s : State, (l.foldl (fun s g => s.heal g (f g)) s).gaths = s.gaths :=
  fun s => foldl_keeps (·.gaths) _ (fun s c => by simp) l s

/-- A gathering without what landing may change: scalars, counts, generators, vector registers, the replay log, the
writes that are still pending, and what is known of those that have landed. -/
def Gath.bare (x : Gath) : Gath :=
  { x with
    core := { x.core with
      s := []
      ct := []
      ag := []
      v := [] }
    ckpt := none
    older := []
    wrote := false
    badWrite := none
    pend := [] }

/-- Landing one write leaves the rest of its gathering alone. -/
theorem State.landOne_bare (d g : Nat) (w : Wr) : ((s.landOne d g w).gath d g).bare = (s.gath d g).bare := by
  cases w with
  | mem cells =>
    simp only [State.landOne, State.gath, State.wrMasked_fold_gaths]
    simp [State.setGath, State.heal_fold_gaths, Gath.bare]
  | _ => simp [State.landOne, Gath.bare]

/-- What a landing leaves pending. -/
theorem State.landOne_pend (d g : Nat) (w : Wr) : ((s.landOne d g w).gath d g).pend = (s.gath d g).pend := by
  cases w with
  | mem cells =>
    simp only [State.landOne, State.gath, State.wrMasked_fold_gaths]
    simp [State.setGath, State.heal_fold_gaths]
  | _ => simp [State.landOne]

theorem State.foldl_landOne_bare (d g : Nat) (l : List Pend) :
    ∀ s : State, ((l.foldl (fun s p => s.landOne d g p.wr) s).gath d g).bare = (s.gath d g).bare :=
  fun s => foldl_keeps (fun s => (s.gath d g).bare) _ (fun s p => s.landOne_bare d g p.wr) l s

theorem State.foldl_landOne_pend (d g : Nat) (l : List Pend) :
    ∀ s : State, ((l.foldl (fun s p => s.landOne d g p.wr) s).gath d g).pend = (s.gath d g).pend :=
  fun s => foldl_keeps (fun s => (s.gath d g).pend) _ (fun s p => s.landOne_pend d g p.wr) l s

/-- Landing what is due leaves the sequencer where it was. -/
@[simp] theorem State.landTo_bare (d g t : Nat) : ((s.landTo d g t).gath d g).bare = (s.gath d g).bare := by
  rw [State.landTo, State.foldl_landOne_bare]
  simp [Gath.bare]

/-- The writes whose beat has come are no longer pending (R235). -/
theorem State.landTo_pend (d g t : Nat) :
    ((s.landTo d g t).gath d g).pend = (s.gath d g).pend.filter fun p => decide (t < p.beat) := by
  rw [State.landTo, State.foldl_landOne_pend]
  simp

theorem State.landTo_beat (d g t : Nat) : ((s.landTo d g t).gath d g).beat = (s.gath d g).beat := by
  have h := congrArg Gath.beat (s.landTo_bare d g t)
  simpa only [Gath.bare] using h

theorem State.landTo_order (d g t : Nat) : ((s.landTo d g t).gath d g).order = (s.gath d g).order := by
  have h := congrArg Gath.order (s.landTo_bare d g t)
  simpa only [Gath.bare] using h

theorem State.landTo_cmd (d g t : Nat) : ((s.landTo d g t).gath d g).cmd = (s.gath d g).cmd := by
  have h := congrArg Gath.cmd (s.landTo_bare d g t)
  simpa only [Gath.bare] using h

theorem State.landTo_dropDue (d g t : Nat) : ((s.landTo d g t).gath d g).dropDue = (s.gath d g).dropDue := by
  have h := congrArg Gath.dropDue (s.landTo_bare d g t)
  simpa only [Gath.bare] using h

theorem State.landTo_ip (d g t : Nat) : ((s.landTo d g t).gath d g).core.ip = (s.gath d g).core.ip := by
  have h := congrArg (fun x : Gath => x.core.ip) (s.landTo_bare d g t)
  simpa only [Gath.bare] using h

theorem State.landTo_loops (d g t : Nat) : ((s.landTo d g t).gath d g).core.loops = (s.gath d g).core.loops := by
  have h := congrArg (fun x : Gath => x.core.loops) (s.landTo_bare d g t)
  simpa only [Gath.bare] using h

theorem State.landOne_rf (d g : Nat) (w : Wr) : (s.landOne d g w).rf = s.rf := by
  have hw : ∀ (l : List (Nat × Nat)) (s : State), (l.foldl State.wrMasked s).rf = s.rf :=
    foldl_keeps (·.rf) _ fun s c => by simp
  have hh : ∀ (f : Nat → Nat) (l : List Nat) (s : State), (l.foldl (fun s g => s.heal g (f g)) s).rf = s.rf :=
    fun f => foldl_keeps (·.rf) _ fun s c => by simp
  cases w with
  | mem cells => simp only [State.landOne, hw, State.setGath, hh]
  | _ => rfl

/-- Landing changes no register field. -/
@[simp] theorem State.landTo_rf (d g t : Nat) : (s.landTo d g t).rf = s.rf := by
  rw [State.landTo, foldl_keeps (·.rf) _ (fun s (p : Pend) => s.landOne_rf d g p.wr)]
  rfl

theorem State.landTo_fld (d g t : Nat) (f : Field) (i : Nat) : (s.landTo d g t).fld f i = s.fld f i := by
  simp only [State.fld, State.landTo_rf]

theorem State.landTo_flag (d g t : Nat) (f : Field) (i : Nat) : (s.landTo d g t).flag f i = s.flag f i := by
  simp only [State.flag, State.landTo_fld]

/-- With nothing pending nothing lands. -/
theorem State.landTo_nil (d g t : Nat) (h : (s.gath d g).pend = []) : (s.landTo d g t).gath d g = s.gath d g := by
  simp only [State.landTo, h, List.filter_nil, List.foldl_nil]
  rw [State.gath_setGath_same, ← h]

/-! ## Issue -/

@[simp] theorem State.hazard_gaths (d g ip cls : Nat) (c : QCmd) : (s.hazard d g ip cls c).gaths = s.gaths := by
  unfold State.hazard State.schedEvent
  dsimp only
  repeat' split
  all_goals simp

/-- A program that no stop has caught in a replay does not end with the issue (R554). -/
theorem State.endReplay_none {d g : Nat} (h : (s.gath d g).dropDue = false) : s.endReplay d g = s := by
  simp [State.endReplay, h]

/-- An issue that meets no stop and no line in error carries its plan out, on the state after the landings of its beat and
perhaps with a hazard recorded, and then does what follows. -/
theorem State.issue_next {d g op wait : Nat} {plan : Nat → State → Nat → Plan}
    {post : QCmd → Nat → Nat → State → State} {c : QCmd} {w : Nat} (hi : Issuing s d g op c w) {t : Nat}
    (ht : t = max (s.gath d g).beat wait) (hl : LandsWhole s d g t) (hs : (plan w (s.landTo d g t) t).stops = [])
    (hb : CleanReads (s.landTo d g t) (plan w (s.landTo d g t) t)) :
    ∃ s1 : State, s1.gaths = (s.landTo d g t).gaths ∧
      s.issue d g op wait plan post =
        (post c w t (s1.commitPlan d g t (plan w (s.landTo d g t) t))).endReplay d g := by
  have hbad : (s.landTo d g t).readBad d g (plan w (s.landTo d g t) t) = none := by
    rw [State.readBad, show ((s.landTo d g t).gath d g).badWrite = none from hl]
    refine List.findSome?_eq_none_iff.mpr ?_
    intro q hq
    cases q with
    | line l =>
      obtain ⟨h1, h2⟩ := hb _ hq l rfl
      simp [h1, h2]
    | _ => rfl
  unfold State.issue
  rw [hi.1]
  subst ht
  simp only [State.landTo_flag, hi.2.1, Bool.false_eq_true, if_false, hs, hbad]
  refine ⟨_, ?_, rfl⟩
  split <;> simp

/-- A sample that falls leaves every gathering alone. -/
@[simp] theorem State.takeSample_gaths (d : Nat) (c : CruiseRec) : (s.takeSample d c).gaths = s.gaths := by
  unfold State.takeSample
  repeat' split
  all_goals simp

/-- Carrying out a plan ends no program. -/
theorem State.commitPlan_dropDue (d g t : Nat) (p : Plan) :
    ((s.commitPlan d g t p).gath d g).dropDue = (s.gath d g).dropDue := by
  have hf : ∀ (l : List (Field × Nat)) (i fl : Nat) (x : State),
      (l.foldl (fun s (f, k) => if bit fl k then s.setFlag f i true else s) x).gaths = x.gaths := fun l i fl x =>
    foldl_keeps (·.gaths) _ (fun s p => by dsimp only; split <;> simp) l x
  unfold State.commitPlan
  split <;> simp [State.gath, State.setGthFlags, hf, State.setGath]

/-- What carrying out a plan leaves in the gathering. -/
theorem State.commitPlan_issued {d g t : Nat} {s1 : State} (h : s1.gaths = (s.landTo d g t).gaths) (p : Plan) :
    Issued s d g t p (s1.commitPlan d g t p) := by
  have hg : s1.gath d g = (s.landTo d g t).gath d g := by simp only [State.gath, h]
  have hs : (p.samples.foldl (fun s c => s.takeSample d c) s1).gaths = s1.gaths :=
    foldl_keeps (·.gaths) _ (fun s c => by simp) p.samples s1
  have hf : ∀ (l : List (Field × Nat)) (i fl : Nat) (x : State),
      (l.foldl (fun s (f, k) => if bit fl k then s.setFlag f i true else s) x).gaths = x.gaths := fun l i fl x =>
    foldl_keeps (·.gaths) _ (fun s p => by dsimp only; split <;> simp) l x
  unfold State.commitPlan Issued
  simp only [hg]
  have ho : (Tab.get ({ } : Gath) (s.landTo d g t).gaths (gi d g)).order = (Tab.get { } s.gaths (gi d g)).order :=
    s.landTo_order d g t
  split <;>
  simp [State.gath, State.setGthFlags, hf, State.setGath, ho, hs]

end Sys2Proof.Machine
end

