-- ==== Sys2Proof/Tests/Slice0.lean ====
section
/-! SUPPORT. Tests of this model: the checks of `Instr.wf`, the words, states and operands that meet the hypotheses of
the statements, and a few results that the spec writes out. -/

namespace Sys2Proof.Tests

set_option Elab.async false

open Sys2Proof Sys2Proof.Machine

/-! ## Helpers -/

/-- A record from fields given by their lowest bit. -/
def num (l : List (Nat × Nat)) : Nat := l.foldl (fun a p => a + p.2 * 2 ^ p.1) 0

/-- PERST_N released, start-up phase `k`. -/
def phase (k : Nat) : State := { State.reset with perst := false }.setFld .startStatus_phase 0 k

/-- The device at ready, with every die joined and every feature of the level in use. -/
def live : State :=
  ((((phase 7).setFlag .startStatus_ready 0 true).setFld .orgIdent_cdJoined 0 255).setFlag .orgIdent_io1Joined 0 true).setFld
    .irlLevel_features 0 0xFFFF

/-- Blank, provisioned, field and service fuses. -/
def fuses (n : Nat) : Fuses := ({} : Fuses).burn fun c => { c with lcProv := n != 0, lcCount := n - 1 }

/-- A manifest of 2 steps of 2 periods. -/
def man : Manifest :=
  { standby := false, cur := 1, periods := 2, nominal := 100, cap := 8, arrearsEvent := 4, step := 7, steps := 2
    seed := 5, descTable := 0, ctxs := [], statusRing := 0, statusSlots := 0, layers := 1, logical := 0, replica := 0
    schedule := 0, micro := 1, recipe := 0, ringSeq := 0 }

/-- That manifest's job running in its step 1. -/
def work : State := { live with job := { live.job with active := some man, pos := 1, tstep := 1 } }

/-- A main-job command of step 1 on die 0 with record `w`. -/
def cmd (w : Nat) : QCmd := ⟨w, 0, 5, 1, false, 1, false, false, none, false, 0, 0⟩

/-- A list of die 0 with those records. -/
def slist (l : List Nat) : StoredList := ⟨0, 5, 0, false, 0, 0, 0, 0, l, [], []⟩

/-- Gathering 0 of die 0 with a program of one instruction word at address 0. -/
def seq (w : Nat) : State := live.setGath 0 0 { prog := [w, 1], cmd := some (cmd 0) }

/-- A bolt to this device on context 5. -/
def bolt (op payload : Nat) : Bolt := ⟨0, 5, op, 0, 0, true, 0, 0, payload⟩

/-! ## Well-formed commands: an ill-formed term for each check -/

theorem test_wf_start :
    ([.iraleNegotiation [] [] [] [], .iraleNegotiation (List.replicate 10 [0]) [] [] [],
      .iraleNegotiation (List.replicate 10 (List.replicate 16 (2 ^ 32))) [] [] [],
      .training [] (List.replicate 9 ⟨0, 0, true⟩), .training [] [⟨0, 0, true⟩], .training [] [⟨0, 5, true⟩],
      .report 0 [1], .cap 0 0 (2 ^ 42), .capAck ⟨0, .far⟩ (2 ^ 42), .trainStart ⟨0, 2 ^ 42, []⟩, .trainDone ⟨0, .near⟩ (2 ^ 42),
      .repairReq 0 (2 ^ 42), .repairDone 0 (2 ^ 42), .timeFrame 0 (2 ^ 42) 0, .timeFrame 0 0 (2 ^ 42), .portTrainingComplete 0 16, .retrainComplete 0 16,
      .level (2 ^ 512)] : List Instr).all (fun i => !i.wf) = true := by decide +kernel

theorem test_wf_timed :
    ([.budgetEvaluation 0 ⟨[], [0, 0], List.replicate 8 0⟩ true, .budgetEvaluation 0 ⟨List.replicate 5 0, [0], []⟩ true,
      .budgetEvaluation 0 ⟨List.replicate 5 0, [0, 0], []⟩ true, .packagePowerReadback [⟨15, 700, 1000, 40⟩] [],
      .beatMeterWindow 0 0 4096 true] : List Instr).all (fun i => !i.wf) = true := by decide +kernel

theorem test_wf_host :
    ([.readToClear 1 4, .readToClear 0 2, .readToClear (2 ^ 26) 4, .registerWrite 4 8 0, .registerWrite 0 4 (2 ^ 32),
      .budLimitWrite (2 ^ 64), .memQosWrite (2 ^ 64), .yrdRegWrite 0 0 (2 ^ 64), .crzCfgWrite 0 (2 ^ 64),
      .fltCfgWrite (2 ^ 64), .monCfgWrite 0 (2 ^ 64), .haltReq 0 0 (2 ^ 64), .debugStep 0 0 (2 ^ 64),
      .resume 0 0 (2 ^ 64), .clearLog 0 0 (2 ^ 64), .xentryWrite 0 (2 ^ 64), .stageDone (2 ^ 64),
      .editionSwitch (2 ^ 64), .editionRetire (2 ^ 64), .recoverGo (2 ^ 64), .portRestart (2 ^ 64),
      .ringEnable .manifest (2 ^ 64), .nvmRead (2 ^ 32), .nvmProgram (2 ^ 32), .nvmErase (2 ^ 32), .attestGo (2 ^ 48),
      .bar2Read (2 ^ 32) 1, .bar2Write (2 ^ 32) [1], .bar2Write 0 [256], .tokenSignal 0 0 (2 ^ 20)] :
      List Instr).all (fun i => !i.wf) = true := by decide +kernel

/-- Each field of a bolt one above its range. -/
theorem test_wf_bolts :
    let b := bolt 0 0
    let bad : List Bolt := [{ b with dest := 2 ^ 17 }, { b with ctx := 2 ^ 12 }, { b with op := 16 },
      { b with edition := 4 }, { b with seq := 2 ^ 12 }, { b with scale1 := 256 }, { b with scale0 := 256 },
      { b with payload := 2 ^ 512 }]
    (bad.all fun b => !b.wf) = true ∧
    (([.data (bolt 16 0) .good, .a2a (bolt 16 0), .tail (bolt 16 0), .done (bolt 16 0), .barrierVote (bolt 16 0),
      .counts (bolt 16 0), .loadReq (bolt 16 0), .storeReq (bolt 16 0), .storeData (bolt 16 0), .loadData (bolt 16 0),
      .accessAck (bolt 16 0), .credit (bolt 16 0), .survey 0 (bolt 16 0), .map (bolt 16 0)] : List Instr).all
      fun i => !i.wf) = true := by decide +kernel

/-- A raft, a slot and a leaf with each field out of its range. -/
theorem test_wf_links :
    let r : Raft := ⟨0, 0, false, [0, 0, 0, 0], 0, []⟩
    let x : Slot := ⟨1, 0, 0, 0, 0, false, 0⟩
    let l : Leaf := ⟨0, 0, false, false, 0, 0, []⟩
    (([{ r with seq := 4096 }, { r with ack := 4096 }, { r with cred := [0] }, { r with cred := [256, 0, 0, 0] },
      { r with skip := 576 }, { r with bolts := List.replicate 145 (0, bolt 0 0) }, { r with bolts := [(0, bolt 16 0)] }] : List Raft).all
      fun r => !(Instr.raftReceive 0 r []).wf) = true ∧
    (([{ x with kind := 16 }, { x with cls := 4 }, { x with dest := 10 }, { x with src := 10 }, { x with tid := 4096 },
      { x with payload := 2 ^ 512 }] : List Slot).all fun x => ([.slotRd x, .slotWr x, .slotData x, .slotAck x,
        .slotToken x, .slotBolt x ⟨8, 0, 0, 0, 0, false, 0⟩] : List Instr).all fun i => !i.wf) = true ∧
    (([{ l with seq := 64 }, { l with ack := 64 }, { l with cvc := 4 }, { l with cred := 256 },
      { l with slots := List.replicate 16 x }, { l with slots := [{ x with kind := 16 }] }] : List Leaf).all
      fun l => !(Instr.leafReceive 0 .near l 0).wf) = true ∧ (Instr.leafReceive 0 .near l (2 ^ 128)).wf = false := by
  decide +kernel

theorem test_wf_others :
    ([.regRd (2 ^ 44), .regData (2 ^ 512), .regWr (2 ^ 44) 0, .regWr 0 (2 ^ 64), .mgmtEvent (2 ^ 512),
      .mgmtVerdict (2 ^ 512), .i3cPrivateWrite [256], .entdaa 128, .setdasa 128, .jtagInternalRead (2 ^ 49),
      .jtagInternalWrite (2 ^ 49) 0, .jtagInternalWrite 0 (2 ^ 64)] : List Instr).all (fun i => !i.wf) = true := by
  decide +kernel

/-! ## Witnesses: states and operands that meet the hypotheses of each statement, clause by clause -/

theorem witness_StepRunsFront : { State.reset with pending := [.commit] }.pending = .commit :: [] := by decide +kernel

theorem witness_IdleTick : (phase 2).pending = [] ∧ (phase 2).perst = false := by decide +kernel

theorem witness_StepKeepsForm :
    let s := { (live.wr 64 2 0x0100) with pending := [.bar2Write 64 [5]] }
    MemForm s ∧ ∃ t, step s = .next t := ⟨by unfold MemForm; decide, _, rfl⟩

theorem witness_ResetPins :
    State.reset.perst = true ∧ State.reset.badRamp = false ∧
    { State.reset with badRamp := true }.badRamp = true ∧ live.perst = false := by decide +kernel

theorem witness_RailsAndClock :
    live.perst = false ∧ 1000 < 1001 ∧ 1000 ≤ 1000 ∧ live.absent 0 = false ∧ live.refclkLost = false := by decide +kernel

theorem witness_StartPhases :
    (phase 1).inPhase 1 = true ∧ (phase 2).inPhase 2 = true ∧ (phase 3).inPhase 3 = true ∧
      (phase 4).inPhase 4 = true := by decide +kernel

theorem witness_WipeToReady :
    let ports := (phase 6).setPort 0 {}
    let judged := (List.range 12).foldl (fun s p => s.setPort p { judged := true }) ports
    (phase 5).inPhase 5 = true ∧ (phase 5).fuses.state = 0 ∧
    { phase 5 with fuses := (fuses 1).burn fun c => { c with lcRetired := true } }.fuses.state = 4 ∧
    { phase 5 with fuses := fuses 1 }.provisioned = true ∧
    (let up := { phase 5 with fuses := fuses 1 }.setFld .torCoord_extT 0 2
     up.inPhase 5 = true ∧ up.portUsable 0 = true ∧ up.portUsable 6 = false) ∧
    ((phase 7).setFlag .startStatus_retireErase 0 true).inPhase 7 = true ∧ (phase 7).railsOk = true ∧
    ((phase 7).setFlag .startStatus_retireErase 0 true).flag .startStatus_nvmFail 0 = false ∧
    judged.inPhase 6 = true ∧ ∀ p, p < 12 → (judged.port p).judged = true := by decide +kernel

theorem witness_PortSurvey :
    let s := ({ live with fuses := fuses 1 }.setFld .torCoord_extT 0 2).setPort 1 { judged := true }
    let up := s.setFld .torPstat_state 0 2
    let told := up.setPort 0 { timedOut := true }
    let again := told.setFld .cfgPortctl_busy 0 1
    [0, 1, 4].contains (s.fld .torPstat_state 0) = true ∧ s.portUsable 0 = true ∧ s.dead = false ∧ s.tripped = false ∧ (s.port 0).retraining = false ∧
    6 ≤ s.fld .startStatus_phase 0 ∧ 2 ≤ onesIn 4 (goodLanes 3) ∧ onesIn 4 (goodLanes 8) < 2 ∧
    (bolt 10 0).edition = up.fld .torEdition_current 0 ∧ (up.editionCheck { bolt 10 0 with edition := 2 }).isNone = true ∧
    (s.setFld .torPstat_state 0 1).fld .torPstat_state 0 = 1 ∧ (s.port 0).judged = false ∧
    up.fld .torPstat_state 0 = 2 ∧ (up.port 0).judged = false ∧ (up.port 0).surveyed = none ∧
    (∀ x ∈ [(told, false), (again, true)], x.1.unjudged = [0] ∧ x.1.restarting 0 = x.2 ∧
      (x.1.port 0).timedOut = true) ∧
    s.ready = true ∧ s.jobRuns = false ∧ bit 1 0 = true := by decide +kernel

theorem witness_BudgetState :
    live.perst = false ∧ live.joined 0 = true ∧ (live.die 0).inPower = 0 ∧ (live.die 0).inLogic = 0 ∧
      (live.die 0).inStack = 0 ∧ live.flag .budStatus_unmanaged 0 = false := by decide +kernel

theorem witness_Thermal :
    live.perst = false ∧ (55 < 56 → live.joined (55 / 7) = true) ∧
      (∀ k ∈ [0, 55, 56, 63], ∃ d ∈ live.sensorDies k, live.fld .budStatus_state d ≠ 3) ∧
      live.recorder.queue.length < 1024 ∧ (if sensorStack 55 then 95 else 105) ≤ 105 ∧ (if sensorStack 50 then 95 else 105) ≤ 105 ∧
      live.tripped = false ∧ (if sensorStack 55 then 100 else 110) ≤ 110 := by decide +kernel

theorem witness_MetersAndRefresh :
    live.perst = false ∧ (live.setFld .secState_image 0 1).fld .secState_image 0 ≠ 0 ∧ live.absent 7 = false ∧
      { live with now := 1000 }.now % 1000 = 0 ∧ (live.gath 7 0).window < { live with now := 1000 }.now / 1000 ∧
      { live with now := 1001 }.now % 1000 ≠ 0 ∧ live.now / 1000 ≤ (live.gath 7 0).window := by
  decide +kernel

theorem witness_PeriodBoundaries :
    let s := { work with now := 100000, job := { work.job with tLen := 100000 } }
    let late := { live with now := 1000000 }
    let next := { late with job := { late.job with accepted := some man } }
    next.idleOver = true ∧ next.startsNext = true ∧ late.startsNext = false ∧ s.job.active = some man ∧ s.periodOver = true ∧ late.jobRuns = false ∧ late.perst = false ∧
      late.job.sTime + 1000000 ≤ late.now := by decide +kernel

theorem witness_SamplesAndPoll :
    let busy := (work.setFld .perStatus_arrears 0 1)
    let held := { busy with job := { busy.job with runs := [⟨slist [0], 1, .running, 0, 0, 0, 0, false, 0⟩] } }
    let ring := ((live.setFlag .hifXring_enable 0 true).setFld .hifXring_entries 0 16)
    let ring := { ring with hif := { ring.hif with busMaster := true } }
    live.ready = true ∧ live.jobRuns = false ∧ work.fld .perStatus_arrears 0 = 0 ∧ busy.inBubble = true ∧
    held.ready = true ∧ held.jobRuns = true ∧ 0 < held.fld .perStatus_arrears 0 ∧ held.inBubble = false ∧
    ring.hif.xfer = none ∧ ring.fuses.state ≠ 4 ∧ ring.ringEntry .transfer 0 = some (0, 0) := by decide +kernel

theorem witness_StepCloses :
    let c : CommitMsg := ⟨1, 8, 1, 1, 0⟩
    let s := { work with job := { work.job with closing := some (c, outCommitted) } }
    let sent := { s with irl := { s.irl with commit := some c } }
    let back := { sent with job := { sent.job with closing := some (c, 0) } }
    work.job.active = some man ∧ work.job.closing = none ∧ work.job.pos ≤ work.job.tstep ∧
    work.stepWork work.job.pos = true ∧ work.verdictOk = true ∧ work.covered = true ∧ work.poison = [] ∧
    s.irl.commit = none ∧ sent.irl.commit = some c ∧ sent.commitDue c = true ∧ back.commitDue c = true ∧
    sent.lastStep man = false ∧ (∀ p ∈ sent.dies, p.2.rowlog = []) ∧
    0 ≠ outCommitted ∧ back.lastStep man = false ∧ back.hif.hostSig = [] := by decide +kernel

/-- A report of severity INFO (1) meets MIN_SEV at its reset value; one of DEBUG (0) is below it. A fatal one is never
held back. -/
theorem witness_EventRecords :
    let r (sev : Nat) : Report := ⟨0x0101, sev, 0, 0xFF, 0, 0, 0, 0, 0, 0⟩
    let s := { live with recorder := { live.recorder with queue := [r 4] } }
    s.clearing = false ∧ { s with recorder := { s.recorder with clear := some (1, 2, 3, 4) } }.clearing = true ∧
    (0 < live.minSev) ∧ live.minSev ≤ (r 1).sev ∧ live.minSev ≤ (r 4).sev ∧ s.rateFree (r 4) = true ∧
      placeFor s.recorder.ring 4 = some 0 := by decide +kernel

theorem witness_NvmOperations :
    let blk := { live with nvm := { live.nvm with erases := [65536] } }
    let end_ := { blk with recorder := { blk.recorder with clear := some (1, 2, 3, 4) } }
    let op := { live with nvm := { live.nvm with op := some (3, 0x3000000, 1, 0) } }
    let unit (k : Nat) := { live with nvm := { live.nvm with op := some (k, 0x3000000, 1, 65536) } }
    let done := { live with nvm := { live.nvm with opEnd := some 1 } }
    let e : EvRec := ⟨1, ⟨0x0101, 4, 0, 0xFF, 0, 0, 0, 0, 0, 0⟩, 0, 0, 0⟩
    let due := { live with recorder := { live.recorder with persistQ := [(e, 0)] } }
    live.ready = true ∧ live.flag .hifNvmctl_busy 0 = false ∧
    (end_.recorder.clear = some (1, 2, 3, 4) ∧ end_.recorder.ring = []) ∧ live.railsOk = true ∧ op.railsOk = true ∧
    (blk.nvmServes = true ∧ blk.nvm.histQ = [] ∧ blk.nvm.erases = 65536 :: []) ∧
    (op.nvmServes = true ∧ op.nvm.histQ = [] ∧ op.nvm.erases = [] ∧ op.recorder.persistQ = [] ∧
      op.nvm.op = some (3, 0x3000000, 1, 0)) ∧
    (∀ k ∈ [1, 2], (unit k).nvmServes = true ∧ (unit k).railsOk = true ∧ (unit k).nvm.histQ = [] ∧
      (unit k).nvm.erases = [] ∧ (unit k).recorder.persistQ = [] ∧ (unit k).firstPoison 65536 256 = none ∧
      (unit k).nvm.op = some (k, 0x3000000, 1, 65536)) ∧ done.nvm.opEnd = some 1 ∧
    due.nvmServes = true ∧ due.batchDue = true ∧ due.batchFree = true := by decide +kernel

theorem witness_ScrubAndRows :
    let d := { live with tierSize := 2 ^ 30 }
    let q := live.setDie 0 { rowQ := [3] }
    (∀ w ∈ [Scrubber.stack 7, .tier], d.ready = true ∧ (d.die (scrubIdx w)).scrubPos < (d.scrubArea w).2 ∧
      (d.region ((d.scrubArea w).1 + 64 * (d.die (scrubIdx w)).scrubPos)).isDram = true ∧ d.deferred = false ∧
      d.scrubStarts w = true ∧ d.tripped = false) ∧
    ((q.die 0).rowQ = 3 :: [] ∧ q.tripped = false) ∧
      Tab.get 0 (q.die 0).bankUsed (32 * (rowPlace 3).1 + (rowPlace 3).2.1) < 32 := by
  refine ⟨by decide +kernel, by decide, ?_⟩
  exact Nat.zero_lt_succ 31

theorem witness_LostChannels :
    live.perst = false ∧ live.absent 0 = false ∧ live.lpLost = false ∧
      bit ((live.setFld .memLpcfg_used 0 1).fld .memLpcfg_used 0) 0 = true := by decide +kernel

/-- The step-1 run of a list whose records are `l`, dispatched up to record `n`. -/
def lrun (l : List Nat) (n : Nat) (p : ListPhase) : ListRun := ⟨slist l, 1, p, n, 0, 0, 0, false, 0⟩

/-- The job with one run. -/
def withRun (r : ListRun) : State := { work with job := { work.job with runs := [r] } }

/-- A fence on unit 13 of die 0 that waits for 2 of token 9. -/
def fence9 : Nat := num [(8, 13), (24, 9), (36, 2)]

theorem witness_ListsStart :
    let r := lrun [0] 0 .ready
    let s := withRun r
    let p := lrun [0, 0] 1 .running
    s.running 0 < 32 ∧ s.dead = false ∧ s.tripped = false ∧ s.choice 0 = some r ∧
    (withRun p).paused 0 = some (false, p) ∧ (mkCmd p false p.next).isSome = true ∧
    ∀ c, mkCmd p false p.next = some c → ((withRun p).queue 0 (cmEngine c.word % 16)).length < 256 := by
  refine ⟨by decide +kernel, by decide +kernel, by decide +kernel, by decide +kernel, by decide +kernel,
    by decide +kernel, ?_⟩
  intro c h
  cases h
  decide +kernel

/-- The largest sum without overflow, and the least with one, with OVF at 0 and at 1. -/
theorem witness_TokenSignals :
    let s := live.setFld .tokEntry_value 3 1048570
    s.token 0 3 + 5 ≤ 1048575 ∧ 1048575 < s.token 0 3 + 6 ∧ s.flag .tokEntry_ovf 3 = false ∧
      (s.setFlag .tokEntry_ovf 3 true).flag .tokEntry_ovf 3 = true ∧ s.recorder.queue.length < 1024 := by
  decide +kernel

theorem witness_WaitsAndFences :
    let c := cmd fence9
    let s := (work.setQueue 0 13 [c]).setFld .tokEntry_value 9 2
    let sig := { live with signals := [⟨[(1, 2, 3)], false, 5⟩] }
    let q := live.setQueue 0 13 [cmd 0]
    let old := { c with since := some 0 }
    let late := { work.setQueue 0 13 [old] with now := 1 }
    s.enrol.grantable (.engine 0 13) = true ∧ s.enrol.waiterNeeds (.engine 0 13) = some (0, false, [(9, 2)]) ∧
    sig.signals = ⟨[(1, 2, 3)], false, 5⟩ :: [] ∧ sig.token 1 2 + 3 ≤ 1048575 ∧
    (q.startable 0 13 0).isSome = true ∧
    late.queue 0 13 = old :: [] ∧ old.since = some 0 ∧ late.jobRuns = true ∧
      old.warned = false ∧ 8 * late.nominal < late.now - 0 ∧ late.recorder.queue.length < 1024 := by decide +kernel

/-- EVT.CTL, whole, and a read of GTH.NUMSTAT (RC fields); a size that R627 refuses. -/
theorem witness_PlainRegisterWrite :
    let off := Reg.colVerdict.info.base
    let e := Reg.evtCtl.info.base
    live.perst = false ∧ live.ready = true ∧ bar0Ok e 8 = true ∧ live.blockLive e = true ∧
      ¬ (0x8000 ≤ e ∧ e < 0x8400) ∧ regAt e = some (.evtCtl, 0, 0) ∧ Reg.evtCtl ∉ actingRegs ∧
      Field.evtCtl_minSev ∈ Reg.evtCtl.fields ∧ Field.evtCtl_minSev.info.acc = .rw ∧
      regAt off = some (.colVerdict, 0, 0) := by decide +kernel

/-- Each register that acts, written whole, and the bits that its clause asks for. -/
theorem witness_PlainRegisterWrite_acting :
    (∀ x ∈ [(0x10108, Reg.colCfg, 0, 0), (0x10068, .budLimit, 0, 0), (0x10110, .memQos, 0, 0), (0x10130, .fltCfg, 0, 0),
      (0x1008100, .crzCfg, 0, 0), (0x10080C8, .yrdReg, 1, 0), (0x1001020, .gthDbgctl, 1, 0), (0x300E8, .torXentry, 3, 0),
      (0x30008, .torEdition, 0, 0), (0x10138, .fltStop, 0, 0), (0x10140, .fltRecover, 0, 0), (0x10148, .cfgPortctl, 0, 0),
      (0x20060, .secAttest, 0, 0), (8, .hifMring, 0, 8), (0x18, .hifXring, 0, 8)],
      regAt x.1 = some x.2 ∧ bar0Ok x.1 8 = true ∧ live.blockLive x.1 = true ∧ ¬ (0x8000 ≤ x.1 ∧ x.1 < 0x8400)) ∧
    live.absent 0 = false ∧ 2 ^ 64 - 1 < 2 ^ 64 ∧
    ∀ k ∈ [0, 1, 6, 7, 8, 32, 38, 48], bit (2 ^ 64 - 1) k = true := by decide +kernel

theorem witness_RegisterRead :
    let n := Reg.gthBeatmeter.info.base
    live.perst = false ∧ bar0Ok n 8 = true ∧ live.blockLive n = true ∧ regAt n = some (.gthBeatmeter, 0, 0) ∧
      Reg.gthBeatmeter ≠ .timeNow ∧ Reg.gthBeatmeter ≠ .secNonce ∧
      (Reg.gthBeatmeter.fields.any fun f => f.info.acc == .rc) = true ∧
      bar0Ok 2 2 = false ∧ bar0Ok (2 ^ 26) 4 = false ∧ bar0Ok 4 8 = false := by decide +kernel

/-- Both sides of each limit. -/
theorem witness_LimitedRegisters :
    live.ready = true ∧ live.absent 7 = false ∧
    (1200 ≤ 2400 ∧ 2400 ≤ 2400 ∧ 2400 % 10 = 0) ∧ ¬ (1200 ≤ 2410 % 4096 ∧ 2410 % 4096 ≤ 2400) ∧
    (let v := num [(0, 64), (8, 64), (16, 64)]
     bits v 0 8 + bits v 8 8 + bits v 16 8 ≤ 192) ∧
    (let v := num [(0, 64), (8, 64), (16, 65)]
     ¬ bits v 0 8 + bits v 8 8 + bits v 16 8 ≤ 192) ∧
    (let v := num [(0, 64), (24, 16777152)]
     64 ≤ bits v 0 24 ∧ bits v 24 24 % 64 = 0 ∧ 64 ≤ bits v 24 24 ∧ bits v 24 24 ≤ 16777152) := by decide +kernel

theorem witness_HostLink :
    live.ready = true ∧ live.flag .hifMring_enable 0 = false ∧ live.flag .hifXring_enable 0 = false ∧
      Reg.hifMring ∈ hifRegs ∧ Reg.budLimit ∉ hifRegs := by decide +kernel

theorem witness_Window :
    let hole := live.setFld .hifWindow_base 0 255
    let data := [1, 255]
    live.perst = false ∧ live.fuses.state ≠ 4 ∧
    { live with fuses := live.fuses.burn fun c => { c with lcProv := true, lcRetired := true } }.fuses.state = 4 ∧
    live.dram (live.windowAddr 0) 8 = true ∧ live.poisoned (live.windowAddr 0) 8 = false ∧
    hole.dram (hole.windowAddr 0) 8 = true ∧
    (hole.setFld .hifWindow_base 0 256).dram ((hole.setFld .hifWindow_base 0 256).windowAddr 0) 2 = false ∧
    data ≠ [] ∧ (∀ x ∈ data, x < 256) ∧ live.dram (live.windowAddr 0) data.length = true := by decide +kernel

/-- A ring entry of KIND `k` of 64 bytes at device address 4,096 with handle `h`. -/
def xferWord (k h : Nat) : Nat := num [(0, k), (64, 8192), (128, 4096), (176, h), (192, 64)]

/-- A device with that transfer taken, torn since or not; descriptor 1 of the table at 0 is a committed FP32 tensor at
4,096. -/
def moving (k h : Nat) (torn : Bool) : State :=
  let s := live.wr 64 64 (num [(0, 4096), (96, 64), (140, 1), (150, 1), (160, 16), (184, 1), (208, 1), (232, 1), (440, 4096)])
  { s with hif := { s.hif with busMaster := true, xfer := some ⟨0, xferWord k h, 0, none, torn⟩ } }

theorem witness_Transfers :
    (∀ k ∈ [1, 2], (moving k 0 false).hif.busMaster = true ∧ (moving k 0 false).xferErr (xferWord k 0) = .ok ∧
      xeKind (xferWord k 0) = k) ∧ (moving 2 0 false).poisoned 4096 64 = false ∧
    (∀ c ∈ [false, true], (moving 3 1 c).xferErr (xferWord 3 1) = .ok ∧ xeKind (xferWord 3 1) = 3) ∧
    (moving 3 1 false).poisoned ((moving 3 1 false).xferAddr ⟨0, xferWord 3 1, 0, none, false⟩) 64 = false ∧
    xeCount (xferWord 1 0) = 0 := by decide +kernel

/-! ### Signed commands

The objects are at address 0: a body, a trailer of KIND 3 and CMD `k` with TARGET and NONCE 0, the key, and a signature
that `Slh.sign` makes. That `Slh.verify` accepts it is the one premise of these witnesses: a closed computation of some
thousands of hashes, which is true but too long for a proof by evaluation. -/

/-- The ring entry of an object with body bytes `b`. -/
def objEntry (b : List Nat) : Nat := num [(0, 2), (112, 7952 + b.length)]

/-- PK.seed and PK.root of the signer, whose SK.seed and SK.prf are sixteen ones and sixteen twos. -/
def signerSeed : List Nat := List.range 16
/-- PK.root. -/
def signerRoot : List Nat := beBytes 16 0xd54e7dea87d6259cf051177cbddd6635

/-- The key's hash, which the fuses hold. -/
def signerHash : Nat := keyHash (leNat (signerSeed ++ signerRoot))

/-- What is signed: body, trailer header, key. -/
def signedPart (k : Nat) (b : List Nat) : List Nat :=
  b ++ leBytes 64 (num [(0, 3), (24, k), (64, b.length)]) ++ signerSeed ++ signerRoot

/-- The object. -/
def objBytes (k : Nat) (b : List Nat) : List Nat :=
  signedPart k b ++ slh128s.sign (List.replicate 16 1) (List.replicate 16 2) signerSeed signerRoot
    (List.replicate 16 0) (sigContext 3) (signedPart k b)

/-- A device with those fuses, command `k` with body `b` at the front of the ring, and challenge 0 outstanding. -/
def asked (f : Fuses) (k : Nat) (b : List Nat) : State :=
  { live with
    fuses := f.burn fun c => { c with rootHash := signerHash }
    nonce := some 0
    imageSvn := 1
    mem := (objBytes k b).zipIdx.map fun (v, i) => (i, BitVec.ofNat 8 v)
    hif := { live.hif with taken := [(0, objEntry b)] } }.setFld .secState_image 0 1

/-- The object as it is read. -/
def obj (f : Fuses) (k : Nat) (b : List Nat) : Signed :=
  (readObject (fun off n => (asked f k b).rd (meAddr (objEntry b) + off) n) (meLength (objEntry b))).getD
    ⟨0, 0, 0, 0, [], [], [], 0⟩

/-- Its signature verifies. -/
def genuine (f : Fuses) (k : Nat) (b : List Nat) : Prop :=
  sigVerify 3 (obj f k b).key (obj f k b).msg (obj f k b).sig = true

/-- What `CommandReady` asks besides, challenge 0 outstanding. -/
def readyBut (s : State) (k e : Nat) (o : Option Signed) : Bool :=
  let rd : Bytes := fun off n => s.rd (meAddr e + off) n
  match o with
  | some o =>
    meKind e == 2 && !s.clearing && s.commandEntryOk e && !s.poisoned (meAddr e) (meLength e) &&
      bodyFits rd o.hdr && decide (s.commandErr rd k = .ok) && trCmd o.hdr == k && trSigner o.hdr == 0 &&
      hdrOk 3 o.hdr && trTarget o.hdr == 0 && trNonce o.hdr == 0 && cmdAllowed s.fuses.state k &&
      keyHash o.root == s.fuses.rootHash
  | none => false

theorem ready_of (s : State) (k a e : Nat) (o : Option Signed) (d : Signed) (ht : s.hif.taken = [(a, e)])
    (hn : s.nonce = some 0) (ho : readObject (fun off n => s.rd (meAddr e + off) n) (meLength e) = o)
    (h : readyBut s k e o = true) (hv : sigVerify 3 (o.getD d).key (o.getD d).msg (o.getD d).sig = true) :
    CommandReady s k a e (o.getD d) := by
  cases o with
  | none => simp [readyBut] at h
  | some o =>
    simp only [readyBut, Bool.and_eq_true, beq_iff_eq, Bool.not_eq_true', decide_eq_true_eq] at h
    obtain ⟨⟨⟨⟨⟨⟨⟨⟨⟨⟨⟨⟨h1, h0⟩, h2⟩, h3⟩, h5⟩, h6⟩, h7⟩, h8⟩, h9⟩, h10⟩, h11⟩, h12⟩, h13⟩ := h
    simp only [Option.getD_some] at hv ⊢
    refine ⟨⟨[], ht⟩, h1, h0, h2, h3, ?_, h5, h7, h6⟩
    simp [State.checkObject, ho, State.checkSigned, h7, h8, h9, h10, h11, h12, h13, hn, hv]

/-- Nothing but the signature is left. -/
def askedOk (f : Fuses) (k : Nat) (b : List Nat) : Bool :=
  readyBut (asked f k b) k (objEntry b)
    (readObject (fun off n => (asked f k b).rd (meAddr (objEntry b) + off) n) (meLength (objEntry b)))

theorem asked_ready (f : Fuses) (k : Nat) (b : List Nat) (h : askedOk f k b = true) (hv : genuine f k b) :
    CommandReady (asked f k b) k 0 (objEntry b) (obj f k b) :=
  ready_of (asked f k b) k 0 (objEntry b) _ _ rfl rfl rfl h hv

theorem witness_LifeCycle (h1 : genuine (fuses 0) 1 []) (h2 : genuine (fuses 1) 2 []) (h3 : genuine (fuses 2) 3 [])
    (h4 : genuine (fuses 3) 4 []) :
    CommandReady (asked (fuses 0) 1 []) 1 0 (objEntry []) (obj (fuses 0) 1 []) ∧
    CommandReady (asked (fuses 1) 2 []) 2 0 (objEntry []) (obj (fuses 1) 2 []) ∧
    CommandReady (asked (fuses 2) 3 []) 3 0 (objEntry []) (obj (fuses 2) 3 []) ∧
    CommandReady (asked (fuses 3) 4 []) 4 0 (objEntry []) (obj (fuses 3) 4 []) :=
  ⟨asked_ready _ _ _ (by decide +kernel) h1, asked_ready _ _ _ (by decide +kernel) h2,
    asked_ready _ _ _ (by decide +kernel) h3, asked_ready _ _ _ (by decide +kernel) h4⟩

/-- No rail is out of range; one that is makes the command wait. -/
theorem witness_LifeCycle_rails :
    (asked (fuses 0) 1 []).railsOk = true ∧
    (let s := { asked (fuses 1) 2 [] with railUntil := 1 }
     s.hif.taken = (0, objEntry []) :: [] ∧ s.frontCode (objEntry []) = some 2 ∧ s.railsOk = false) := by decide +kernel

/-- A maintenance list of one fence on unit 13 of die 0, completion record at 65,536. -/
def maintBytes : List Nat :=
  leBytes 64 (num [(0, 0xF0), (18, 1), (36, 1), (80, 5), (96, 65536)]) ++ leBytes 64 (num [(8, 13)])

theorem witness_SignedCommands (h6 : genuine (fuses 1) 6 []) (h7 : genuine (fuses 3) 7 [])
    (h8 : genuine (fuses 1) 8 [1]) (h9 : genuine (fuses 1) 9 [32]) (h5 : genuine (fuses 1) 5 maintBytes) :
    CommandReady (asked (fuses 1) 6 []) 6 0 (objEntry []) (obj (fuses 1) 6 []) ∧
    CommandReady (asked (fuses 3) 7 []) 7 0 (objEntry []) (obj (fuses 3) 7 []) ∧
    CommandReady (asked (fuses 1) 8 [1]) 8 0 (objEntry [1]) (obj (fuses 1) 8 [1]) ∧
    CommandReady (asked (fuses 1) 9 [32]) 9 0 (objEntry [32]) (obj (fuses 1) 9 [32]) ∧
    CommandReady (asked (fuses 1) 5 maintBytes) 5 0 (objEntry maintBytes) (obj (fuses 1) 5 maintBytes) ∧
    ((asked (fuses 1) 5 maintBytes).checkList none [] (fun i => (asked (fuses 1) 5 maintBytes).listRecord 0 i)
      {}).fails.isEmpty = true :=
  ⟨asked_ready _ _ _ (by decide +kernel) h6, asked_ready _ _ _ (by decide +kernel) h7,
    asked_ready _ _ _ (by decide +kernel) h8, asked_ready _ _ _ (by decide +kernel) h9,
    asked_ready _ _ _ (by decide +kernel) h5, by decide +kernel⟩

theorem witness_Attestation :
    let s := { live with fuses := fuses 1 }
    s.ready = true ∧ s.flag .secAttest_busy 0 = false ∧ s.provisioned = true ∧ 64 < 2 ^ 48 ∧ 64 % 64 = 0 ∧
      s.dram 64 16480 = true ∧ { s with attest := some (64, 5) }.attest = some (64, 5) := by decide +kernel

/-- A manifest at address 0 with a list of one fence at 1,024, its list table at 512 and its completion at 4,096. -/
def offered : State :=
  let s := [Field.torCoord_extT, .torCoord_extS, .torCoord_extP, .torCoord_extX, .torCoord_extD].foldl
    (fun s f => s.setFld f 0 1) live
  let s := s.wr 0 64 (num [(0, 0xB1), (16, 1), (32, 1000), (56, 8), (64, 4), (96, 7), (128, 2), (224, 2048), (272, 1),
    (288, 512), (464, 1)])
  let s := s.wr 64 64 (num [(0, 0xA7), (32, 1)])
  let s := (s.wr 512 8 1024).wr 1024 64 (num [(0, 0xF0), (36, 1), (80, 5), (96, 4096)])
  let s := s.wr 1088 64 (num [(8, 13)])
  { s with fuses := fuses 1, hif := { s.hif with taken := [(0, num [(0, 1), (112, 128)])] } }

/-- The same manifest with STANDBY. -/
def spareOffered : State := offered.wr 1 1 1

theorem witness_JobsRun :
    let e := num [(0, 1), (112, 128)]
    let h := offered.rd 0 64
    let r := offered.rd 64 64
    let acc := { live with job := { live.job with accepted := some man } }
    offered.hif.taken = (0, e) :: [] ∧ meKind e = 1 ∧ meLength e = 128 ∧ offered.tableOk (meAddr e) 128 = true ∧
    offered.firstPoison (meAddr e) 128 = none ∧ offered.manifestErr e h r = .ok ∧
    offered.manifestPoison (meAddr e) h = none ∧ (offered.checkLists h (offered.ctxEntries h)).fails.isEmpty = true ∧
    mfStandby h = 0 ∧ (let e := num [(0, 1), (112, 128)]
      let h := spareOffered.rd 0 64
      spareOffered.hif.taken = (0, e) :: [] ∧ spareOffered.firstPoison (meAddr e) 128 = none ∧
      spareOffered.tableOk (meAddr e) 128 = true ∧ spareOffered.manifestErr e h (spareOffered.rd 64 64) = .ok ∧
      spareOffered.manifestPoison (meAddr e) h = none ∧
      (spareOffered.checkLists h (spareOffered.ctxEntries h)).fails.isEmpty = true ∧ mfStandby h = 1) ∧ acc.job.accepted = some man ∧ { acc with now := 1000000 }.idleOver = true ∧ acc.outOfService = false ∧
    work.job.active = some man := by
  decide +kernel

theorem witness_Recovery :
    let s := ((live.setFlag .fltStop_stopped 0 true).setFld .torCoord_extD 0 2)
    let s := { s with job := { s.job with stopped := some man } }
    let d := s.setFld .torCoord_coord 0 0
    let lost := { live with job := { live.job with lost := [9] } }
    s.ready = true ∧ s.job.accepted = none ∧ s.jobRuns = false ∧ s.job.stopped = some man ∧
    s.flag .fltStop_stopped 0 = true ∧ s.outOfService = false ∧
    s.job.lastEdition ≠ some (s.fld .torEdition_current 0) ∧ man.standby = false ∧
    bit 2 37 = false ∧ bit 2 (s.ownOn 4) = false ∧ bit 1 37 = false ∧ bit 1 (d.ownOn 4) = true ∧
    lost.jobRuns = false ∧ lost.tripped = false ∧ lost.job.lost = 9 :: [] ∧
    (∀ r ∈ lost.committedRanges, 64 * 9 + 64 ≤ r.1 ∨ r.1 + r.2 ≤ 64 * 9) := by decide +kernel

/-- A takeover with and without a member to restore from, after a stop and from a held standby manifest. -/
theorem witness_Recovery_takeover :
    let s := live.setFld .torCoord_extD 0 2
    let a := { s.setFlag .fltStop_stopped 0 true with job := { s.job with stopped := some man } }
    let b := { s with job := { s.job with standby := some man } }
    let others (s : State) (v : Nat) := (List.range (s.extent 4)).filter fun c => c != s.ownOn 4 && !bit (bits v 0 32) c
    bit (2 ^ 37) 37 = true ∧ a.job.stopped = some man ∧ a.flag .fltStop_stopped 0 = true ∧ a.outOfService = false ∧
    b.job.stopped = none ∧ b.job.standby = some man ∧ b.ready = true ∧ b.job.accepted = none ∧ b.jobRuns = false ∧
    b.job.lastEdition ≠ some (b.fld .torEdition_current 0) ∧ others b (2 ^ 37) ≠ [] ∧ others b (2 ^ 37 + 2) = [] := by
  decide +kernel

/-- An FP32 tensor of 4 rows of 16 in the scratch of gathering 0 of die 0. -/
def scr : Nat := num [(0, 2 ^ 41), (96, 4096), (140, 1), (152, 1), (160, 16), (184, 4), (208, 1), (232, 1),
  (256, 64)]

/-- Gathering 0 of die 0 with state `k` at an instruction word `w`; handle 0 is that tensor. -/
def at_ (k : GCore) (w : Nat) : State :=
  live.setGath 0 0 { core := k, prog := [w, 1], cmd := some (cmd 0), descs := [(0, ⟨scr⟩)] }

/-- Every opcode of R222: an instruction of it issues at once. -/
theorem witness_Issuing :
    ∀ op ∈ [0x00, 0x01, 0x02, 0x03, 0x04, 0x08, 0x09, 0x0A, 0x0B, 0x0C, 0x0D, 0x10, 0x11, 0x20, 0x30, 0x31, 0x32, 0x40,
      0x48], (at_ {} op).issuable 0 0 op = some (cmd 0, op) ∧ (at_ {} op).flag .gthCfg_debug (gi 0 0) = false ∧
        ((at_ {} op).gath 0 0).dropDue = false ∧
        (((at_ {} op).landTo 0 0 ((at_ {} op).gath 0 0).beat).gath 0 0).badWrite = none := by
  decide +kernel

/-- The core that an instruction of `at_` sees. -/
def seen (k : GCore) (w : Nat) : GCore := (((at_ k w).landTo 0 0 0).gath 0 0).core

theorem witness_ControlInstructions :
    Tab.get 0 (seen {} 2).ct (ct1Ctl 2) = 0 ∧ Tab.get 0 (seen { ct := [(0, 1)] } 2).ct (ct1Ctl 2) ≠ 0 := by
  decide +kernel

/-- Both ends of each range of CTSET and AGSET. -/
theorem witness_ScalarInstructions :
    (∀ v ∈ [0, 16777215], let w := num [(0, 0x0C), (27, 1), (64, v)]
      (at_ {} w).issuable 0 0 0x0C = some (cmd 0, w) ∧ 0 ≤ ((seen {} w).setValue w).1 ∧
        ((seen {} w).setValue w).1 ≤ 16777215) ∧
    (∀ v ∈ [2 ^ 47 - 1, 2 ^ 64 - 2 ^ 47], let w := num [(0, 0x0D), (27, 1), (64, v)]
      scAgf w = 0 ∧ (-2 ^ 47 ≤ ((seen {} w).setValue w).1 ∧ ((seen {} w).setValue w).1 < 2 ^ 47)) ∧
    (∀ v ∈ [2 ^ 31 - 1, 2 ^ 64 - 2 ^ 31], let w := num [(0, 0x0D), (27, 1), (35, 1), (64, v)]
      scAgf w ≠ 0 ∧ (-2 ^ 31 ≤ ((seen {} w).setValue w).1 ∧ ((seen {} w).setValue w).1 < 2 ^ 31)) := by
  decide +kernel

/-- A word at element 0 and one before it. -/
theorem witness_ScalarMemory :
    ∀ op ∈ [0x0A, 0x0B],
      let s (b : Int) := at_ { ag := [(0, b)] } op
      let y (b : Int) := (s b).landTo 0 0 0
      let p (b : Int) := (y b).word8 0 0 (((y b).gath 0 0).desc (scH op)) (((y b).gath 0 0).core.offset (scAgs op))
      (s 0).issuable 0 0 op = some (cmd 0, op) ∧ (p 0).1 = [] ∧ (y 0).poisoned (64 * ((p 0).2 / 64)) 64 = false ∧
        (s (-1)).issuable 0 0 op = some (cmd 0, op) ∧ 1 ∈ (p (-1)).1 := by decide +kernel

/-- A change of configuration, of shape alone, and none. -/
theorem witness_ModeInstruction :
    let change := num [(0, 4), (8, 2), (26, 1)]
    let keep := num [(0, 4), (14, 64), (27, 1)]
    let turn := num [(0, 4), (10, 1), (26, 1)]
    (at_ {} change).issuable 0 0 4 = some (cmd 0, change) ∧ (at_ {} keep).issuable 0 0 4 = some (cmd 0, keep) ∧
      (ct1Setcfg change = 1 ∧ ct1Config change ≠ (seen {} change).config) ∧ ct1Setcfg keep ≠ 1 ∧
      (at_ {} turn).issuable 0 0 4 = some (cmd 0, turn) ∧ ct1Setcfg turn = 1 ∧
        ct1Config turn = (seen {} turn).config ∧ ct1Shape turn ≠ (seen {} turn).shape ∧
      ct1Setbuck keep = 1 := by decide +kernel

theorem witness_TokenInstructions :
    let one := num [(0, 0x10), (20, 1)]
    let g := (at_ {} one).setGath 0 0 { (at_ {} one).gath 0 0 with tokGranted := true }
    let again := (at_ {} one).setGath 0 0 { (at_ {} one).gath 0 0 with replayTo := 1 }
    let x : PendTok := ⟨1, 2, 3, 4, 0⟩
    let done := live.setGath 0 0 { cmd := some (cmd 0), toks := [x], pend := [⟨0, 4, .scalar 0 0, false⟩] }
    ct1Count 0x10 = 0 ∧ (at_ {} 0x10).descPoison 0 0 = none ∧
    g.issuable 0 0 0x10 = some (cmd 0, one) ∧ (g.gath 0 0).tokGranted = true ∧ g.descPoison 0 0 = none ∧
    (again.gath 0 0).order < (again.gath 0 0).replayTo ∧ again.issuable 0 0 0x10 = some (cmd 0, one) ∧
    (done.gath 0 0).dropDue = false ∧ (done.gath 0 0).cmd = some (cmd 0) ∧ (done.gath 0 0).toks = x :: [] ∧
      (∀ p ∈ (done.gath 0 0).pend, x.order ≤ p.order) ∧ (cmd 0).maint = false ∧
      done.token x.die x.token + x.count ≤ 1048575 := by decide +kernel

theorem clean_of (s : State) (p : Plan) (h : s.poison = []) (hb : p.bad = none) : CleanReads s p := by
  intro q _ l _
  refine ⟨by simp [hb], ?_⟩
  unfold State.poisoned
  rw [h]
  rfl

/-- A beat with nothing to land leaves no error in memory and stops nothing: a one-element product, a move, a load, a
store, an addition and a reduction, each in its configuration. -/
theorem witness_UnitInstructions :
    let one (c : Nat) : GCore := { config := c, ct := [(0, 1)] }
    let runs (k : GCore) (op : Nat) (plan : Nat → Nat → Nat → State → Nat → Plan) : Prop :=
      (at_ k op).issuable 0 0 op = some (cmd 0, op) ∧ (plan 0 0 op ((at_ k op).landTo 0 0 0) 0).stops = [] ∧
        LandsWhole (at_ k op) 0 0 0 ∧ CleanReads ((at_ k op).landTo 0 0 0) (plan 0 0 op ((at_ k op).landTo 0 0 0) 0)
    runs (one 0) 0x20 planMma ∧ runs (one 1) 0x30 planVop ∧ runs (one 1) 0x31 planVld ∧ runs (one 1) 0x32 planVst ∧
      runs (one 2) 0x40 planXmov ∧ runs (one 3) 0x48 planRed := by
  refine ⟨?_, ?_, ?_, ?_, ?_, ?_⟩ <;>
    exact ⟨by decide +kernel, by decide +kernel, by unfold LandsWhole; decide +kernel, clean_of _ _ (by decide +kernel) (by decide +kernel)⟩

theorem witness_ComputedValues :
    live.opPat scr 0 = 0 ∧ tdBlocked scr = 0 ∧ tdScaleMode scr = 0 ∧ opFm scr = .fp32 ∧ vopOp (num [(33, 2)]) = 0 ∧
      vopType (num [(33, 2)]) = 2 := by decide +kernel

/-- A RUN of a program of two instructions at 4,096. -/
def runWord : Nat := num [(0, 1), (160, 4096), (208, 2)]

theorem witness_Programs :
    let s := (live.wr 4112 1 1).setQueue 0 0 [cmd runWord]
    let c := { cmd runWord with tStart := 0 }
    let busy := s.setGath 0 0 { cmd := some (cmd 0), prog := [0, 1] }
    let ended := live.setGath 0 0 { cmd := some (cmd 0), ended := true }
    (s.gath 0 0).cmd = none ∧ (s.gath 0 0).nextProg = none ∧ s.startable 0 0 1 = some c ∧
    s.loadPoison c.word (s.progWords c.word) = none ∧ s.progErr c.maint (s.progWords c.word) = none ∧
    (busy.gath 0 0).cmd = some (cmd 0) ∧ busy.queue 0 0 = cmd runWord :: [] ∧ cmKind runWord = 1 ∧
    (busy.gath 0 0).prog.length + cbLength runWord ≤ 4096 ∧
    busy.loadPoison runWord (busy.progWords runWord) = none ∧ busy.progErr false (busy.progWords runWord) = none ∧
    (ended.gath 0 0).cmd = some (cmd 0) ∧ (ended.gath 0 0).ended = true ∧
    ((ended.landAll 0 0).gath 0 0).badWrite = none := by decide +kernel

/-- Each kind of write, due at the beat of the next issue, and a drain; a part of a line in error. -/
theorem witness_Landings :
    let s (w : Wr) (dr : Bool) := live.setGath 0 0 { beat := 5, pend := [⟨5, 0, w, dr⟩] }
    live.blockedBy [(2 ^ 41, 255 * 256 + 7)] = [] ∧
    { live with poison := [2 ^ 35] }.blockedBy [(2 ^ 41, 255 * 256 + 7)] = [2 ^ 35] ∧
    255 * 256 + 7 < 65536 ∧
    ∀ w ∈ [Wr.scalar 3 7, .count 2 7, .gen 1 7, .vector 4 {}, .mem [(2 ^ 41, 255 * 256 + 7)]], ∀ dr ∈ [false, true],
      ((s w dr).gath 0 0).firstPend = some ⟨5, 0, w, dr⟩ ∧ 5 ≤ ((s w dr).gath 0 0).beat := by decide +kernel

theorem witness_DebugMode :
    let dbg := live.setFlag .gthCfg_debug 0 true
    let s := dbg.setGath 0 0 { cmd := some (cmd 0), haltWanted := true }
    let h := dbg.setGath 0 0 { cmd := some (cmd 0), halted := true }
    live.ready = true ∧ live.absent 0 = false ∧ bit (live.fld .irlLevel_features 0) 12 = true ∧
    ((s.gath 0 0).cmd.isSome = true ∧ s.flag .gthCfg_debug 0 = true ∧ (s.gath 0 0).stepOnce = false) ∧ (h.gath 0 0).halted = true ∧
    (s.gath 0 0).cmd = some (cmd 0) ∧ (s.gath 0 0).ended = false ∧ (s.gath 0 0).halted = false ∧
      s.haltDue 0 0 = true := by decide +kernel

/-- A checkpoint before anything issued, with one byte of scratch logged since. -/
def start : GCkpt := { (⟨{}, 0, 0, [], [], 0, [], [], []⟩ : GCkpt) with log := [(2 ^ 41, 5)] }

/-- A collective of die 0 that has received nothing. -/
def coll (desc : Nat) : Coll :=
  ⟨cmd 0, desc, [], false, 0, 0, false, [], [], [], [], [], [], [], 0, [], 0, false, false, false, 0, [], 0, [], [], [],
    false, false, [], 0, 1, []⟩

theorem witness_Replays :
    let s := live.setGath 0 0 { cmd := some (cmd 0), ckpt := some start, order := 1 }
    let c (n : Nat) : Coll := { coll 0 with fails := [(2, n)] }
    let x (n : Nat) := live.setColl 0 0 (c n)
    (s.gath 0 0).cmd = some (cmd 0) ∧ (s.gath 0 0).ckpt = some start ∧ start.order < (s.gath 0 0).order ∧
    (s.gath 0 0).replayFrom (s.gath 0 0).suspectOrder = some (start, []) ∧
    (s.gath 0 0).replays = [] ∧ (s.gath 0 0).ended = false ∧
    (x 1).checkedColl 0 .collective = some (0, c 1) ∧ Tab.get 0 (c 1).fails (checkUnitNum .collective) < 2 ∧
    (x 2).checkedColl 0 .collective = some (0, c 2) ∧ 2 ≤ Tab.get 0 (c 2).fails (checkUnitNum .collective) := by decide +kernel

theorem witness_CruiseSamples :
    let r : CruiseRec := ⟨0, 1, 0, false, true, false, 256⟩
    let busy := live.setDie 0 { testing := List.range 272 }
    ((live.setDie 0 { cruise := [r] }).die 0).cruise = r :: [] ∧
    (∀ s ∈ [live], s.jobRuns = false ∧ s.classStarts 0 0 = true ∧ (s.recorders 0).head? = some 256) ∧
    (work.setFld .perStatus_arrears 0 1).jobRuns = true ∧ 0 < (work.setFld .perStatus_arrears 0 1).fld .perStatus_arrears 0 ∧
    (live.setFld .budStatus_state 0 3).classStarts 0 0 = false ∧ busy.recorders 0 = [] := by decide +kernel

/-- Each time at its limit; a retired tile with a spare and with none. -/
theorem witness_TileRepair :
    let s (t : Tile) (now : Nat) : State := { live.setDie 0 { tiles := [(3, t)] } with now := now }
    let sus : Tile := { st := .suspect }
    let spent : Tab Nat := (List.range 16).map fun k => (32 + k, 256 + k)
    let out (m : Tab Nat) : State := live.setDie 0 { tiles := [(3, { st := .retired })], map := m }
    (∀ t ∈ [15 * 60000000000, 15 * 60000000000 + 4 * hourNs],
      (((s sus t).die 0).tile 3).st = .suspect ∧
      (((s sus t).die 0).tile 3).lastTest + (s sus t).fld .fltCfg_testMin 0 * 60000000000 ≤ (s sus t).now) ∧
    (∀ k, (((s sus 0).die 0).serves 3).head? = some k → ((s sus 0).gath 0 (k / 32)).cmd = none) ∧
    (s sus 0).maintPhase 0 1 = true ∧ (s sus 0).tripped = false ∧
    (((s sus 0).die 0).tile 3).untested = false ∧
    (((s sus 0).die 0).tile 3).lastTest + (s sus 0).fld .fltCfg_testMin 0 * 60000000000 + 4 * hourNs ≤
      (s sus (15 * 60000000000 + 4 * hourNs)).now ∧
    (((s sus 0).die 0).tile 3).since + (s sus 0).observeNs ≤ 168 * hourNs + (((s sus 0).die 0).tile 3).served ∧
    (((out []).die 0).tile 3).st = .retired ∧ ((out []).die 0).serves 3 = 3 :: [] ∧
      ((out []).die 0).freeSpares.head? = some 256 ∧ ((out []).gath 0 0).atBoundary = true ∧
    (((out []).setGath 0 0 { cmd := some (cmd 0), ckpt := some start, order := 1 }).gath 0 0).atBoundary = false ∧
    (((out spent).die 0).tile 3).st = .retired ∧ ((out spent).die 0).serves 3 = 3 :: [] ∧
      ((out spent).die 0).freeSpares = [] ∧ ((out spent).gath 0 0).atBoundary = true := by
  refine ⟨by decide +kernel, ?_, by decide +kernel⟩
  intro k h
  cases h
  decide +kernel

/-- A maintenance command of operation `op` on 64 bytes of stack 0. -/
def maintCmd (op : Nat) : QCmd := { cmd (num [(0, 5), (8, 13), (160, op), (168, 4096), (216, 64)]) with maint := true }

theorem witness_Maintenance :
    (∀ op ∈ [1, 2, 3, 4, 5], (live.setQueue 0 13 [maintCmd op]).maintReady 0 op = some (maintCmd op)) ∧
    { live with bundle := some .ok }.bundle = some .ok ∧
    live.firstPoison 4096 64 = none ∧ live.dNeighbour (cbArg (maintCmd 5).word) = none ∧
    ((live.setFld .torCoord_extD 0 2).setQueue 0 13 [maintCmd 5]).maintReady 0 5 = some (maintCmd 5) ∧
    (live.setFld .torCoord_extD 0 2).dNeighbour (cbArg (maintCmd 5).word) = some 1 ∧
    ((live.setDie 0 { maint := some (maintCmd 1) }).die 0).maint = some (maintCmd 1) ∧
      (live.setDie 0 { maint := some (maintCmd 1) }).maintPhase 0 (cbOp (maintCmd 1).word) = true := by decide +kernel

theorem witness_Maintenance_pattern (s : State) : cbArg (maintCmd 2).word < s.patterns := by
  have h : cbArg (maintCmd 2).word = 0 := by decide +kernel
  rw [h]
  exact Nat.add_pos_left Nat.one_pos _

/-- Descriptor table at 0: 1 and 2 are FP32 tensors of 64 elements at 65,536 and 131,072 of stack 0, 3 an I32 tensor of 4,
4 an FP32 one of 32; a stream descriptor at 4,096 copies 32 elements of the first to the second, and one at 4,160 none. -/
def tables : State :=
  let t (a : Nat) := num [(0, a), (96, 4096), (140, 1), (160, 64), (184, 1), (208, 1), (232, 1)]
  let sd (n : Nat) := num [(0, 65536), (48, 1), (64, 2), (80, 1), (89, 1), (128, n), (152, 4)]
  let n := num [(0, 196608), (96, 4096), (140, 13), (160, 4), (184, 1), (208, 1), (232, 1)]
  let h := num [(0, 262144), (96, 4096), (140, 1), (160, 32), (184, 1), (208, 1), (232, 1)]
  (((((live.wr 64 64 (t 65536)).wr 128 64 (t 131072)).wr 192 64 n).wr 256 64 h).wr 4096 64 (sd 32)).wr 4160 64 (sd 0)

/-- A STREAM of that descriptor, and a run of it at element `p`. -/
def streamWord (a : Nat) : Nat := num [(0, 2), (8, 8), (160, a)]
def srun (desc : Option Nat) (p : Nat) : StreamRun :=
  ⟨cmd (streamWord 4096), 4096, desc, tables.rd 64 64, tables.rd 128 64, 128, p, 0, 32, 0, 0, 0, 0, false, 0, [], [], [], 0⟩

/-- The committed copy of a state tensor at 65,536, which a STREAM of the job names, with its first granule lost. -/
def lostState : State :=
  let s := tables.wr 64 64 (tables.rd 64 64 + num [(150, 1), (440, 32768)])
  { s with
    poison := [1024]
    job := { s.job with
      lists := [{ slist [streamWord 4096] with bodies := [0] }]
      lost := [1024] } }

theorem witness_Recovery_inPlace :
    lostState.jobRuns = false ∧ lostState.tripped = false ∧ lostState.job.lost = 1024 :: [] ∧
    lostState.committedRanges = [(65536, 4096)] ∧ 65536 ≤ 64 * 1024 + 63 ∧ 64 * 1024 < 65536 + 4096 ∧
    lostState.dPeers = [] ∧ (lostState.setFld .torCoord_extD 0 2).dPeers ≠ [] ∧
    (lostState.setFld .torCoord_extD 0 2).committedRanges = [(65536, 4096)] := by decide +kernel

theorem witness_Streams :
    let s (a : Nat) := tables.setQueue 0 8 [cmd (streamWord a)]
    let sd := tables.rd 4096 64
    let runs (k : Nat) (r : StreamRun) := (s 4096).setYarder 0 0 { slots := (List.replicate 8 none).set k (some r) }
    let go := runs 3 (srun (some sd) 0)
    let m := go.motion (srun (some sd) 0) sd
    (∀ a ∈ [4096, 4160], (s a).startable 0 (8 + 0) 2 = some (cmd (streamWord a)) ∧ (s a).slotAt 0 0 0 = none ∧
      (s a).poison = [] ∧ (s a).sdescRuns 0 a = false ∧ (s a).streamErr ((s a).rd a 64) = .ok) ∧
    sdTotal sd ≠ 0 ∧ (sdTotal (tables.rd 4160 64) = 0 ∧ sdMode (tables.rd 4160 64) = 0) ∧
    go.sdescRuns 0 4096 = true ∧ go.startable 0 8 2 = some (cmd (streamWord 4096)) ∧ go.slotAt 0 0 0 = none ∧
      ((go.dieStreams 0).any fun p => p.2.2.sdesc == 4096 && p.2.2.desc.isNone) = false ∧
    ((runs 7 (srun none 0)).slotAt 0 0 7 = some (srun none 0) ∧ (runs 7 (srun none 0)).mayLatch 0 (srun none 0) = true ∧
      (runs 7 (srun none 0)).streamErr sd = .ok) ∧
    go.nextStream 0 0 = some (3, srun (some sd) 0, sd) ∧ m.src.other = none ∧ m.dst.other = none ∧ go.poison = [] ∧
      go.bucketHolds 0 sd = true ∧ (m.fresh (srun (some sd) 0)).length ≤ 0 + 1 ∧
    (runs 7 (srun (some sd) 32)).slotAt 0 0 7 = some (srun (some sd) 32) ∧
      (runs 7 (srun (some sd) 32)).tallyWaits 0 (srun (some sd) 32) sd = false := by decide +kernel

theorem witness_Editions :
    let staged := live.setFlag .torEdition_staged 0 true
    let prev := live.setFlag .torEdition_prevLive 0 true
    live.ready = true ∧ live.flag .torEdition_prevLive 0 = false ∧ live.flag .torEdition_staged 0 = false ∧
    staged.flag .torEdition_staged 0 = true ∧ staged.flag .torEdition_prevLive 0 = false ∧
    prev.flag .torEdition_prevLive 0 = true ∧ bit (64 ||| 128) 7 = true ∧ bit (0 ||| 128) 7 = true ∧
    bit (0 ||| 64) 7 = false ∧ bit (0 ||| 256) 8 = true ∧ bit (0 ||| 64) 8 = false := by decide +kernel

/-- Symbols 0 to `n - 1` of codeword 0 in error. -/
def symbols (n : Nat) : List (Fin 16 × Fin 544) :=
  ([0, 1, 2, 3, 4, 5, 6, 7, 8, 9, 10, 11, 12, 13, 14, 15].take n).map fun k => (0, k)

theorem witness_RaftLink :
    let up := live.setFld .torPstat_state 0 3
    let r : Raft := ⟨0, 4095, false, [0, 0, 0, 0], 0, []⟩
    let full := up.setPort 0 { replay := List.replicate 32 r }
    let again := (up.setPort 0 { retraining := true, replay := List.replicate 31 r }).setFld .torPstat_laneMask 0 15
    up.linkOn 0 = true ∧ (up.port 0).resend = none ∧ (up.port 0).replay.length < 32 ∧
    32 ≤ (full.port 0).replay.length ∧ r.seq = (up.port 0).rxSeq ∧ { r with seq := 1 }.seq ≠ (up.port 0).rxSeq ∧
    raftGood (symbols 15) = true ∧ raftGood (symbols 16) = false ∧ (again.port 0).retraining = true ∧
    ((List.range 4).filter (bit (again.keptLanes 0 6))).length = 2 ∧
    ((List.range 4).filter (bit (again.keptLanes 0 3))).length = 1 := by decide +kernel

/-- A bolt for each route: here, absorbed by an entry of port 15, by an entry of port 2 that is up, full or down, and from
port 0 to port 7 of the other I/O die; one of an edition that routes nowhere; a reserved OP. -/
theorem witness_BoltRouting :
    let entry (p : Nat) := num [(0, 1), (17, 0x1FFFF), (35, p), (41, 1)]
    let s (bank : Tab Nat) (b : Bolt) := ({ live with tor := { live.tor with bank0 := bank, inject := [(0, [b])] } }.setFld
      .torPstat_state 2 3)
    let take (s : State) := (s.takeBolt (.die 0)).isSome
    let away : Bolt := { bolt 4 0 with dest := 1 }
    let cross := ((s [(0, entry 7)] away).setPort 0 { ingress := [(0, away)] }).setFld .torPstat_state 7 3
    take (s [] (bolt 4 0)) = true ∧ (s [] (bolt 4 0)).editionCheck (bolt 4 0) = some (s [] (bolt 4 0)) ∧
      (s [] (bolt 4 0)).routeFrom (.die 0) (bolt 4 0) = .deliver ∧
    ((s [(0, entry 15)] away).editionCheck away).isSome = true ∧
      (s [(0, entry 15)] away).routeFrom (.die 0) away = .absorb ∧
    (s [(0, entry 2)] away).routeFrom (.die 0) away = .port 2 0 ∧ (s [(0, entry 2)] away).portOpen 2 = true ∧
      routerOf (.die 0) (.port 2 0) = portDie 2 ∧ ((s [(0, entry 2)] away).port 2).egress.length < 4096 ∧
    (((s [(0, entry 2)] away).setPort 2 { egress := List.replicate 4096 (0, away) }).port 2).egress.length = 4096 ∧
    (s [(0, entry 3)] away).routeFrom (.die 0) away = .port 3 0 ∧ (s [(0, entry 3)] away).portOpen 3 = false ∧
    (cross.takeBolt (.port 0 0)).isSome = true ∧ cross.routeFrom (.port 0 0) away = .port 7 0 ∧
      cross.portOpen 7 = true ∧ routerOf (.port 0 0) (.port 7 0) ≠ portDie 7 ∧
    ((s [] { bolt 4 0 with edition := 2 }).editionCheck { bolt 4 0 with edition := 2 }).isNone = true ∧
      12 ≤ (bolt 12 0).op ∧ (bolt 11 0).op < 12 ∧ live.tripped = false ∧ { live with tripped := true }.tripped = true := by decide +kernel

/-- Context 5 open for board-wide accesses with 16 credits. -/
def board : State :=
  (((tables.setFlag .ctxEntry_open 5 true).setFld .ctxEntry_kind 5 2).setFld .ctxEntry_credits 5 16)

theorem witness_BoardAccess :
    let req (n : Nat) := bolt 5 (num [(48, n)])
    let q : BoardReq := ⟨0, 0, 3, false, false, 64⟩
    let w : BoardReq := { q with store := true, addr := 0 }
    let open_ := { board with tor := { board.tor with stores := [(5, ⟨num [(48, 1), (64, 255)], 0, false⟩)] } }
    let r : StreamRun := { srun none 0 with asked := [1] }
    let waits := { board.setYarder 0 0 { slots := (List.replicate 8 none).set 3 (some r) } with
      tor := { board.tor with reqs := [(5, [w, q])] } }
    let map := { (live.setFlag .congSweep_isCollector 0 true) with tierSize := 2 ^ 30 }
    (board.epochOk (req 16) = true ∧ (req 16).seq = board.fld .ctxEntry_rxSeq 5 ∧ board.fld .ctxEntry_kind 5 = 2) ∧
    (board.requestOk (req 16) = true ∧ (req 16).last = true ∧ board.poisoned 0 (64 * 16) = false) ∧
    (Tab.get [] board.tor.answers 5 = [] ∧ 16 ≤ board.fld .ctxEntry_credits 5 ∧ board.fld .ctxEntry_credits 5 < 4096) ∧
    (board.requestOk (req 17) && (req 17).last) = false ∧ 1 ≤ board.fld .ctxEntry_credits 5 ∧
    (open_.tor.stores.find? fun q => q.1 == 5) = some (5, ⟨num [(48, 1), (64, 255)], 0, false⟩) ∧ open_.poison = [] ∧
    takeReq (fun q => !q.store) (waits.boardReqs 5) = some (q, [w]) ∧ waits.slotAt 0 0 3 = some r ∧ q.addr / 64 ∈ r.asked ∧
    takeReq (fun q => q.addr == 0) (waits.boardReqs 5) = some (w, [q]) ∧ waits.slotAt 0 0 3 = some r ∧
    bpStatus 0 = 0 ∧ bpStatus (num [(53, 1)]) ≠ 0 ∧
    live.epochOk (req 1) = false ∧ board.collOn 5 = none ∧ board.inboundWaits (req 16) = false ∧
    (board.setDie 0 { stRemote := 32768 }).inboundWaits { req 16 with op := 4 } = true ∧ board.tor.waiting = [] ∧
    map.flag .congSweep_isCollector 0 = true ∧ (map.region (map.fld .congSweep_buffer 0 + 64 * 0)).isMemory = true ∧
    live.flag .congSweep_isCollector 0 = false := by decide +kernel

/-- Two devices on the D axis; contexts 5 and 6 are those of a collective on it, 6 with the peer. -/
def pair (kind : Nat) : State :=
  let s := [Field.torCoord_extT, .torCoord_extS, .torCoord_extP, .torCoord_extX].foldl (fun s f => s.setFld f 0 1) tables
  (((s.setFld .torCoord_extD 0 2).setFlag .ctxEntry_open 6 true).setFld .ctxEntry_kind 6 kind).setFld .ctxEntry_peer 6 1

/-- A collective of that type on both, SRC 1 and DST 2 (4 where it is a part), record at 262,144. -/
def cdWord (ty : Nat) : Nat :=
  num ([(0, ty), (4, 4), (16, 5), (32, 3), (160, 327680)] ++
    (if ty = 5 then [] else [(13, 1), (80, if ty = 2 then 4 else 1), (96, if ty = 1 then 4 else 2)]) ++ (if ty ≤ 1 then [(8, 1)] else []) ++ (if ty = 4 then [(128, 3)] else []))

/-- That collective running on die 0. -/
def joined (ty kind : Nat) : State :=
  (pair kind).setColl 0 0 { coll (cdWord ty) with eff := [0, 1] }

theorem witness_CollectiveBolts :
    let b (k : Nat) : Bolt := { bolt k 0 with ctx := 6 }
    let c (ty : Nat) : Coll := { coll (cdWord ty) with eff := [0, 1] }
    let fits (ty kind op : Nat) : Prop :=
      let s := joined ty kind
      s.epochOk (b op) = true ∧ (b op).seq = s.fld .ctxEntry_rxSeq 6 ∧ s.fld .ctxEntry_kind 6 = kind ∧
      s.forks (b op) = false ∧ (c ty).done = false ∧ s.coll 0 0 = some (c ty) ∧ s.collOn 6 = some (0, 0, c ty) ∧ s.collFull 0 = false ∧
      s.poison = [] ∧ (match s.arrive (b op) with
        | .accepted u => (u.nextRole (c ty) (coordOn (s.fld .ctxEntry_peer 6) 4) (if op = 4 then 4 else if op = 3 then 5 else 0)).isSome
        | _ => false) = true
    ((pair 0).epochOk (b 1) = true ∧ (pair 0).forks (b 1) = false ∧ (pair 0).collOn 6 = none ∧ (pair 0).collFull ((pair 0).ctxDie 6) = false) ∧
    fits 0 0 1 ∧ fits 5 0 4 ∧ fits 4 1 3 := by decide +kernel

/-- The command of a COLLECTIVE. -/
def collRec : Nat := num [(0, 3), (8, 12), (160, 8192)]

/-- A running job with context 6, on two devices. -/
def paired : Manifest := { man with ctxs := [num [(0, 6), (12, 1)]] }

/-- A COLLECTIVE of that type, its descriptor as validated. -/
def collOf (ty : Nat) : QCmd := { cmd collRec with body := cdWord ty }

/-- That job, with it at the head of its queue. -/
def queued (ty : Nat) : State :=
  let s := ((pair 0).setQueue 0 12 [collOf ty]).setFlag .ctxEntry_open 6 true
  { s with job := { s.job with active := some paired, pos := 1, tstep := 1 } }

/-- Every type starts. -/
theorem witness_Collectives :
    let alone : Coll := { coll (num [(0, 5), (4, 4), (32, 1), (160, 262144)]) with eff := [0] }
    let s := (pair 0).setColl 0 3 alone
    let old := { s with now := 1000 }
    (∀ ty ∈ [0, 1, 2, 3, 4, 5], let s := queued ty
      s.startable 0 12 3 = some (collOf ty) ∧ s.coll 0 0 = none ∧ s.job.active = some paired ∧ s.poison = [] ∧
      s.tor.held = [] ∧ cdType (collOf ty).body = ty ∧ s.blockBusy (collOf ty).body = false ∧
      ((s.popQueue 0 12).startErr 0 paired.ctxs (s.newColl (collOf ty) (collOf ty).body) none).1 = .ok) ∧
    old.coll 0 3 = some alone ∧ alone.done = false ∧ alone.stallRaised = false ∧ 1000 * old.stallTime alone ≤ old.now - alone.lastBolt ∧
    s.coll 0 3 = some alone ∧ s.collDone alone = true ∧ s.targets alone = [] ∧ s.sentAll alone = true ∧ s.dram (cdRecord alone.desc) 64 = true ∧
      s.poisoned (cdRecord alone.desc) 64 = false := by decide +kernel

/-- A collective bound to an update program with those header bits at 12,288. -/
def updating (hdr : List (Nat × Nat)) (c : Coll) : State × Coll × UProg :=
  let c := { c with cmd := cmd (collRec + num [(208, 12288)]), desc := cdWord 0 }
  let p : UProg := ⟨0, 12288, [num ((0, 0xE1) :: hdr), 0, 0], []⟩
  let s := tables.setColl 0 0 c
  ({ s with job := { s.job with progs := [p] } }, c, p)

theorem witness_Updates :
    let a := updating [] { coll 0 with queued := [7] }
    let b := updating [(16, 1)] { coll 0 with queued := List.range 32 }
    let f := updating [(16, 1)] { coll 0 with pressed := [0] }
    (a.1.nextBlock 0).map (fun x => (x.1, x.2.2.2)) = some (0, 7) ∧ uhRows a.2.2.hdr ≠ 1 ∧ a.1.poison = [] ∧
    (b.1.nextSub 0).map (fun x => (x.1, x.2.2.2)) = some (0, 0) ∧ b.1.poison = [] ∧
    f.1.coll 0 0 = some f.2.1 ∧ f.1.boundProg f.2.1 = some f.2.2 ∧ uhPress f.2.2.hdr = 1 ∧ f.2.1.folded = false ∧
      tdExt (f.1.desc (cdSrc f.2.1.desc)) 3 * tdExt (f.1.desc (cdSrc f.2.1.desc)) 2 ≤ f.2.1.pressed.length ∧
      f.1.poison = [] := by decide +kernel

theorem witness_IraleSlots :
    let up := live.setFld .irlLinkstat_state 13 2
    let leaf (seq : Nat) (l : List Slot) : Leaf := ⟨seq, 0, false, false, 0, 0, l⟩
    let x (n p : Nat) : Slot := ⟨1, 0, 0, 8, 5, true, num [(48, n), (0, p)]⟩
    let as_ (k : Nat) (y : Slot) : Slot := { y with kind := k }
    let w : DieWrite := ⟨num [(48, 1), (64, 255)], 0, false⟩
    let has (x : Slot) : State := { live with irl := { live.irl with arrived := [⟨0, 1, x⟩] } }
    let d := as_ 3 (x 1 0)
    let opened := { has d with irl := { (has d).irl with wr := [(wrKey d, w)] } }
    let pair (dst src : Nat) : Slot × Slot := (⟨6, 0, dst, src, 0, false, 0⟩, ⟨7, 0, dst, src, 0, false, 0⟩)
    let both (p : Slot × Slot) : State :=
      { live with irl := { live.irl with arrived := [⟨2, 1, p.1⟩, ⟨2, 1, p.2⟩] } }
    up.linkUp 13 = true ∧ ((up.side 27).rxSeq + 1) % 64 = 0 ∧ (linkEnds 13).2 = 9 ∧
    leafGood (leaf 0 []) (leafParity (leafBytes (leaf 0 []))) = true ∧
    leafGood (leaf 0 []) (leafParity (leafBytes (leaf 0 [])) ^^^ 1) = false ∧
    live.takeSlot (x 1 0) = none ∧
    (∀ n ∈ [1, 16], ((has (x n 0)).takeSlot (x n 0)).isSome = true ∧ (has (x n 0)).dieRequestOk (x n 0) = true ∧
      (has (x n 0)).firstPoison 0 (64 * n) = none) ∧
    (∀ y ∈ [x 17 0, x 0 0, x 1 8], ((has y).takeSlot y).isSome = true ∧ (has y).dieRequestOk y = false) ∧
    { has (x 1 0) with poison := [0] }.firstPoison 0 64 = some 0 ∧
    (opened.takeSlot d).isSome = true ∧ d.kind = 3 ∧ (has d).takeSlot { d with kind := 4 } = none ∧
    opened.irl.wr.find? (fun q => q.1 == wrKey d) = some (wrKey d, w) ∧ w.bad = false ∧ opened.poison = [] ∧
    (has d).irl.wr.find? (fun q => q.1 == wrKey d) = none ∧
    (∀ k ∈ [2, 4, 5], ((has (as_ k (x 1 0))).takeSlot (as_ k (x 1 0))).isSome = true) ∧
    ((has (as_ 2 (x 0 0))).takeSlot (as_ 2 (x 0 0))).isSome = true ∧ (x 1 0).kind ≠ 2 ∧
    live.roomVia 8 (live.route (boltOf 0 0)) = true ∧ (live.editionCheck (boltOf 0 0)).isSome = true ∧
    (x 1 0).dest < 8 ∧ live.absent (x 1 0).dest = false ∧ bit (x 1 0).payload 12 = false ∧
      live.token (x 1 0).dest (bits (x 1 0).payload 0 12) + bits (x 1 0).payload 16 16 ≤ 1048575 ∧
    (∀ p ∈ [pair 0 8, pair 8 3, pair 9 8],
      (match (both p).takeSlot p.1 with
        | some u => (u.takeSlot p.2).isSome
        | none => false) = true) := by decide +kernel

theorem witness_IraleMessages :
    let p3 := phase 3
    let up := live.setFld .irlLinkstat_state 0 2
    let a := 3 * 2 ^ 40 + Reg.evtCtl.info.base
    let n := Reg.gthBeatmeter.info.base
    p3.inPhase 3 = true ∧ (∀ p, p < 10 → p3.outside p = false) ∧ (List.replicate 16 5).length = 16 ∧
    p3.irl.arrived = [] ∧ live.irl.arrived = [] ∧ sbRead (sbFrame 0 15 7) = some (0, 15, 7) ∧ (∀ i ∈ [0, 1, 2, 3, 4], sbData 1 i (sbFrame 1 i 128) = some 128) ∧
    (∀ i ∈ [0, 1], sbData 2 i (sbFrame 2 i (2 ^ 32 - 1)) = some (2 ^ 32 - 1)) ∧ sbRead 1 = none ∧
    controlOff 0 = none ∧ controlOff ((3 * 2 ^ 40 + n) % 2 ^ 42) = some n ∧ live.blockLive n = true ∧
      regAt n = some (.gthBeatmeter, 0, 0) ∧
    trainFails (p3.badOf 0) = false ∧
    trainFails [⟨true, 0, 1⟩, ⟨true, 0, 2⟩, ⟨true, 0, 3⟩] = true ∧
    controlOff (a % 2 ^ 42) = some Reg.evtCtl.info.base ∧ live.blockLive Reg.evtCtl.info.base = true ∧
      regAt Reg.evtCtl.info.base = some (.evtCtl, 0, 0) ∧ Reg.evtCtl ∉ actingRegs ∧
    live.recorder.queue.length < 1024 ∧ bit 4 2 = true ∧ live.jobRuns = false ∧ live.flag .colVerdict_valid 0 = false ∧
    (∀ l, l < 14 → p3.outside (linkEnds l).1 = false ∧ p3.outside (linkEnds l).2 = false) ∧
    (∀ p, p < 10 → ∃ l, l < 14 ∧ (p = (linkEnds l).1 ∨ p = (linkEnds l).2)) ∧
    (p3.setFld .irlLinkstat_state 0 1).inPhase 3 = true ∧ trainFails ((p3.setFld .irlLinkstat_state 0 1).badOf 0) = false ∧ (p3.setFld .irlLinkstat_state 0 1).fld .irlLinkstat_state 0 = 1 ∧
    up.linkUp 0 = true ∧ up.commitFlies = false ∧
    (up.setFlag .irlLinkstat_repairing 0 true).flag .irlLinkstat_repairing 0 = true ∧ bit 128 7 = true ∧ bit 0 7 = false ∧
    (∀ p, p < 10 → p ≠ 8 → live.posOk p = true) ∧ live.perst = false ∧ live.refclkLost = false := by decide +kernel

/-- A delivered STOP and a delivered REG_WR at their turn, and a REG_WR behind a LEVEL of its flow. -/
theorem witness_IraleMessages_delivered :
    let m (c : Nat) : Arrived := ⟨3, 1, ⟨8, 0, 0, 8, 0, false, c⟩⟩
    headSlot (fun a => isMgmt a 2 && a.dest == 0) [m 2] [] = some (m 2) ∧ headSlot (isMgmt · 7) [m 7] [] = some (m 7) ∧
      headSlot (isMgmt · 7) [m 4, m 7] [] = none ∧ ([m 4, m 7].any fun y => isMgmt y.slot 7) = true := by decide +kernel

/-- The clauses of REPAIR_REQ. -/
theorem witness_IraleMessages_repair :
    let up := live.setFld .irlLinkstat_state 0 2
    let due := up.noteParity 1 (List.replicate 16 0)
    up.repairDue 0 (bits 128 0 5) = false ∧
      due.linkUp 0 = true ∧ due.commitFlies = false ∧ due.repairDue 0 (bits 128 0 5) = true ∧
      (Tab.upd due.irl.repair 0 (due.repairEnd 0 0, 0)).find? (fun p => p.1 == 0) = some (0, 1, bits 128 0 5) := by
  decide +kernel

theorem witness_Sideband :
    let blank := live
    let field := { live with fuses := fuses 2 }
    live.perst = false ∧ live.i3cServes = true ∧ (phase 2).i3cServes = true ∧ live.hif.i3cDyn = 0 ∧
    blank.fuses.state ∈ [0, 1, 3] ∧ blank.dram (64 / 8 * 8) 8 = true ∧ blank.poisoned (64 / 8 * 8) 8 = false ∧
    (cellAddr (2 ^ 48 / 8 * 8)).reg < 6 ∧ blank.absent ((cellAddr (2 ^ 48 / 8 * 8)).gath / 8) = false ∧ field.fuses.state ∉ [0, 1, 3] ∧
    blank.fuses.state = 0 ∧ blank.poison = [] ∧ field.fuses.state ≠ 0 := by decide +kernel

/-- Every field at the top of its range. -/
theorem witness_WireForms :
    let b : Bolt := ⟨2 ^ 17 - 1, 4095, 15, 3, 4095, true, 255, 255, 2 ^ 512 - 1⟩
    let x : Slot := ⟨15, 3, 9, 9, 4095, true, 2 ^ 512 - 1⟩
    b.wf = true ∧ Raft.wf ⟨4095, 4095, true, [255, 255, 255, 255], 575, List.replicate 144 (3, b)⟩ = true ∧ x.wf = true ∧
      Leaf.wf ⟨63, 63, true, true, 3, 255, List.replicate 15 x⟩ = true := by decide +kernel

/-! ## Results that the spec writes out -/

/-- The next state of a command. -/
def after (c : Instr) (s : State) : State :=
  match exec c s with
  | .next t => t
  | _ => State.reset

/-- The header of R377 written by hand: DEST 1, CONTEXT 2, OP 3, EDITION 1, SEQ 5, LAST, SCALE1 6, SCALE0 7. -/
theorem test_bolt_header :
    boltOf (7 + 6 * 2 ^ 8 + 2 ^ 16 + 5 * 2 ^ 17 + 1 * 2 ^ 29 + 3 * 2 ^ 31 + 2 * 2 ^ 35 + 1 * 2 ^ 47) 9 =
      ⟨1, 2, 3, 1, 5, true, 6, 7, 9⟩ := by decide +kernel

/-- No row of the table gives bits. -/
theorem test_no_words : decodeTableWord 0 0 = none ∧ decodeTableWord 64 1 = none := by decide

/-- The example after R32: on a grade S device with CD5 and CD6 fused off, ENGINE_ID 0x5C names no engine, 0x4C one. -/
theorem test_fused_engines :
    let s : State := { phase 2 with fuses := { pair := .cd56 } }
    s.engineAbsent 0x5C = true ∧ s.engineAbsent 0x4C = false := by decide +kernel

/-- The example after R68: of N = 2,400 µs, 3,100 µs of work leave 700 µs of arrears and a target of 2,100 µs; then
2,250 µs of work leave 550 µs. -/
theorem test_arrears :
    let s := (work.setFld .perCfg_nominalUs 0 2400).setFld .perCfg_catchupCap 0 8
    let s : State := { s with job := { s.job with active := some { man with periods := 8, nominal := 2400 }, tLen := 2400000 } }
    let one := after .periodEnd { s with now := 3100000 }
    let two := after .periodEnd { one with now := 5350000 }
    one.fld .perStatus_arrears 0 = 700000 ∧ one.job.tLen = 2100000 ∧ two.fld .perStatus_arrears 0 = 550000 ∧
      two.job.tLen = 2100000 := by decide +kernel

/-- The example after R201: AG3 with BASE 1,024, INC0 65,536 and INC1 32 at outer iteration 3 and inner iteration 5. -/
theorem test_offset :
    GCore.offset { ag := [(15, 1024), (16, 65536), (17, 32)], loops := [⟨0, 0, 9, 5⟩, ⟨0, 0, 9, 3⟩] } 3 = 197792 := by
  decide +kernel

/-- The examples of R109 and R123 in F8E: 430.08 (to 2^-40) rounds to nearest as 0x7D and 2.6624 as 0x43;
stochastically, 36,701 bits or more give 0x7E and fewer 0x7D. -/
theorem test_f8e_rounding :
    let x : Val := .fin false (43008 * 2 ^ 40 / 100) (-40)
    (encodeT .f8e false .rne x).1 = 0x7D ∧ (encodeT .f8e false .rne (.fin false (26624 * 2 ^ 40 / 10000) (-40))).1 = 0x43 ∧
    (encodeT .f8e false (.sr 0x9A3C) x).1 = 0x7E ∧ (encodeT .f8e false (.sr 36701) x).1 = 0x7E ∧
    (encodeT .f8e false (.sr 36700) x).1 = 0x7D := by decide +kernel

/-- R519: byte 100 of a leaf travels on group 3 in unit interval 0, its bit 5 on data wire 37; slot 15 on groups 30 and
31. -/
theorem test_leaf_place :
    leafPlace 100 5 = (3, 0, 37) ∧ leafPlace 1023 7 = (31, 3, 63) ∧ slotGroups 15 = (30, 31) := by decide

/-- R534 by hand: start 0, TYPE 1, INDEX 2, DATA 5, parity over their 4 ones, two stop bits; one more bit is refused. -/
theorem test_frame :
    sbRead (1 * 2 ^ 1 + 2 * 2 ^ 3 + 5 * 2 ^ 7 + 0 * 2 ^ 39 + 3 * 2 ^ 40) = some (1, 2, 5) ∧
      sbRead (1 * 2 ^ 1 + 2 * 2 ^ 3 + 7 * 2 ^ 7 + 0 * 2 ^ 39 + 3 * 2 ^ 40) = none := by decide +kernel

/-- R520, R531: a leaf that fails two checks of group 5 notes two failures there. -/
theorem test_parity_group :
    let f : Leaf := ⟨0, 0, false, true, 0, 0, []⟩
    badParity f (leafParity (leafBytes f) ^^^ 2 ^ 20 ^^^ 2 ^ 23) = [5, 5] ∧
      ((live.noteParity 3 [5, 5]).parityTimes 3 5).length = 2 := by decide +kernel

/-- A token at its limit saturates and sets OVF (R270). -/
theorem test_token_overflow :
    let t := after (.tokenSignal 7 4095 2) (live.setFld .tokEntry_value (4096 * 7 + 4095) 1048574)
    t.token 7 4095 = 1048575 ∧ t.flag .tokEntry_ovf (4096 * 7 + 4095) = true := by decide +kernel

/-- R144, R214: at the start of a main job a gathering is in MATRIX configuration with shape F4X8 and bucking length 64,
and its vector registers hold zeros; the change of configuration drops the cells' accumulators (R143). -/
theorem test_start_mode :
    let s := { live with now := 1000000, job := { live.job with accepted := some man } }
    let s := s.setGath 3 2 { core := { config := 1, buck := 128, ftz := true, acc := [(0, ⟨1, 2⟩)], v := [(3, ⟨[(0, 7)], 1, 5⟩)] } }
    let t := after .jobStart s
    (t.gath 3 2).core = { accGone := true, statGone := true } ∧ t.fld .gthCfg_buck (gi 3 2) = 64 := by decide +kernel

/-- A start-up after a ramp out of order has no next state (R701), and the empty queue ticks. -/
theorem test_step :
    step { phase 1 with badRamp := true, pending := [.romStart .absent] } = .fault .startUndefined ∧
    step live = .next { live with now := 1 } := ⟨rfl, rfl⟩

end Sys2Proof.Tests
end

section
/-! SUPPORT. Bit fields: the bits of a cut, of a merge and of the lanes that an access covers, and the fields of a packed
register. -/

namespace Sys2Proof

/-- `bit` is the library's `Nat.testBit`. -/
theorem bit_eq_testBit (x n : Nat) : bit x n = x.testBit n := by
  rw [bit, Nat.shiftRight_eq_div_pow, Nat.testBit_eq_decide_div_mod_eq]
  rfl

theorem testBit_bits (x lo w j : Nat) : (bits x lo w).testBit j = (decide (j < w) && x.testBit (lo + j)) := by
  rw [bits, Nat.testBit_mod_two_pow, Nat.testBit_shiftRight]

theorem bits_lt (x lo w : Nat) : bits x lo w < 2 ^ w := Nat.mod_lt _ (Nat.two_pow_pos w)

/-- A bit is the one-bit cut there. -/
theorem bit_eq_bits (x n : Nat) : bit x n = (bits x n 1 == 1) := by simp [bit, bits]

/-- Setting a bit that is set changes nothing. -/
theorem or_two_pow_of_bit {x k : Nat} (h : bit x k = true) : x ||| 2 ^ k = x := by
  refine Nat.eq_of_testBit_eq fun j => ?_
  rw [bit_eq_testBit] at h
  by_cases hj : k = j
  · subst hj; simp [h]
  · simp [Nat.testBit_two_pow_of_ne hj]

/-- The bits of a register that an access of `n` bytes from byte `b` covers. -/
def coverMask (b n : Nat) : Nat := (2 ^ (8 * n) - 1) * 2 ^ (8 * b)

/-- A value of `n` bytes at byte `b` of a register. -/
def coverBits (b n v : Nat) : Nat := v % 2 ^ (8 * n) * 2 ^ (8 * b)

theorem testBit_coverMask (b n k : Nat) : (coverMask b n).testBit k = decide (8 * b ≤ k ∧ k < 8 * (b + n)) := by
  simp only [coverMask, Nat.testBit_mul_two_pow, Nat.testBit_two_pow_sub_one, ← Bool.decide_and]
  exact decide_eq_decide.mpr (by omega)

theorem testBit_coverBits (b n v k : Nat) :
    (coverBits b n v).testBit k = (decide (8 * b ≤ k ∧ k < 8 * (b + n)) && v.testBit (k - 8 * b)) := by
  simp only [coverBits, Nat.testBit_mul_two_pow, Nat.testBit_mod_two_pow, ← Bool.and_assoc, ← Bool.decide_and]
  congr 1
  exact decide_eq_decide.mpr (by omega)

theorem coverMask_whole : coverMask 0 8 = 2 ^ 64 - 1 := rfl

theorem coverBits_whole {v : Nat} (hv : v < 2 ^ 64) : coverBits 0 8 v = v := by
  simp only [coverBits, Nat.mul_zero, Nat.pow_zero, Nat.mul_one]
  exact Nat.mod_eq_of_lt hv

/-- A field inside the lanes of an access is covered whole. -/
theorem bits_coverMask {b n lo w : Nat} (hlo : 8 * b ≤ lo) (hhi : lo + w ≤ 8 * (b + n)) :
    bits (coverMask b n) lo w = 2 ^ w - 1 := by
  refine Nat.eq_of_testBit_eq fun j => ?_
  rw [testBit_bits, testBit_coverMask, Nat.testBit_two_pow_sub_one, ← Bool.decide_and]
  exact decide_eq_decide.mpr (by omega)

/-- A field inside the lanes of an access gets its part of the value. -/
theorem bits_coverBits {b n lo w : Nat} (v : Nat) (hlo : 8 * b ≤ lo) (hhi : lo + w ≤ 8 * (b + n)) :
    bits (coverBits b n v) lo w = bits v (lo - 8 * b) w := by
  refine Nat.eq_of_testBit_eq fun j => ?_
  rw [testBit_bits, testBit_coverBits, testBit_bits]
  by_cases hj : j < w
  · have hin : 8 * b ≤ lo + j ∧ lo + j < 8 * (b + n) := by omega
    have hat : lo + j - 8 * b = lo - 8 * b + j := by omega
    simp [hj, hin, hat]
  · simp [hj]

namespace Machine

/-- A merge takes each bit from the write where the mask has it and from the old value elsewhere. -/
theorem testBit_mergeBits {w old m v j : Nat} (hm : m < 2 ^ w) (hj : j < w) :
    (mergeBits w old m v).testBit j = if m.testBit j then v.testBit j else old.testBit j := by
  have hc : 2 ^ w - 1 - m = 2 ^ w - (m + 1) := by omega
  rw [mergeBits, hc, Nat.testBit_or, Nat.testBit_and, Nat.testBit_and, Nat.testBit_mod_two_pow,
    Nat.testBit_two_pow_sub_succ hm]
  cases m.testBit j <;> simp [hj]

/-- A merge under the full mask is the write. -/
theorem mergeBits_full (w old v : Nat) : mergeBits w old (2 ^ w - 1) v = v % 2 ^ w := by
  simp [mergeBits, Nat.and_two_pow_sub_one_eq_mod]

/-! ## Packed fields -/

/-- Field values at their places in a register. -/
def packed (val : Field → Nat) (l : List Field) : Nat :=
  (l.map fun f => val f % 2 ^ f.info.width * 2 ^ f.info.lo).sum

/-- Fields in the order of their bits, none over another. -/
abbrev FieldsApart : List Field → Prop := List.Pairwise fun f g => f.info.lo + f.info.width ≤ g.info.lo

theorem packed_cons (val : Field → Nat) (f : Field) (l : List Field) :
    packed val (f :: l) = val f % 2 ^ f.info.width * 2 ^ f.info.lo + packed val l := by
  rw [packed, List.map_cons, List.sum_cons, packed]

/-- Fields from bit `k` on leave the bits below `k` at 0. -/
theorem two_pow_dvd_packed (val : Field → Nat) {k : Nat} {l : List Field} (h : ∀ f ∈ l, k ≤ f.info.lo) :
    2 ^ k ∣ packed val l := by
  induction l with
  | nil => exact Nat.dvd_zero _
  | cons f l ih =>
    have hf : 2 ^ k ∣ 2 ^ f.info.lo := Nat.pow_dvd_pow 2 (h f (.head _))
    rw [packed_cons]
    exact Nat.dvd_add (Nat.dvd_mul_left_of_dvd hf _) (ih fun g hg => h g (.tail _ hg))

/-- A cut at or above bit `k` does not see what lies below `k`. -/
theorem bits_add_of_lt {a k lo : Nat} (q w : Nat) (ha : a < 2 ^ k) (hk : k ≤ lo) :
    bits (a + 2 ^ k * q) lo w = bits (2 ^ k * q) lo w := by
  refine Nat.eq_of_testBit_eq fun j => ?_
  have hj : ¬ lo + j < k := by omega
  rw [testBit_bits, testBit_bits, Nat.add_comm, Nat.testBit_two_pow_mul_add _ ha, if_neg hj, Nat.testBit_two_pow_mul]
  simp [show k ≤ lo + j by omega]

/-- A cut of `w` bits below bit `lo + w` does not see what lies from there on. -/
theorem bits_mul_add (x lo w q : Nat) : bits (x % 2 ^ w * 2 ^ lo + 2 ^ (lo + w) * q) lo w = x % 2 ^ w := by
  have h : x % 2 ^ w * 2 ^ lo + 2 ^ (lo + w) * q = 2 ^ lo * (x % 2 ^ w + 2 ^ w * q) := by
    rw [Nat.pow_add, Nat.mul_add, Nat.mul_assoc, Nat.mul_comm (2 ^ lo) (x % 2 ^ w)]
  rw [bits, Nat.shiftRight_eq_div_pow, h, Nat.mul_div_cancel_left _ (Nat.two_pow_pos lo), Nat.add_mul_mod_self_left,
    Nat.mod_mod]

/-- The cut of a packed register at one of its fields is that field. -/
theorem bits_packed (val : Field → Nat) {l : List Field} (hl : FieldsApart l) {f : Field} (hf : f ∈ l) :
    bits (packed val l) f.info.lo f.info.width = val f % 2 ^ f.info.width := by
  induction l with
  | nil => cases hf
  | cons g l ih =>
    obtain ⟨hg, hl⟩ := List.pairwise_cons.mp hl
    obtain ⟨q, hq⟩ := two_pow_dvd_packed val hg
    rcases List.mem_cons.mp hf with rfl | hf
    · rw [packed_cons, hq, bits_mul_add]
    · have hlow : val g % 2 ^ g.info.width * 2 ^ g.info.lo < 2 ^ (g.info.lo + g.info.width) := by
        rw [Nat.pow_add, Nat.mul_comm]
        exact Nat.mul_lt_mul_of_pos_left (Nat.mod_lt _ (Nat.two_pow_pos _)) (Nat.two_pow_pos _)
      rw [packed_cons, hq, bits_add_of_lt _ _ hlow (hg f hf), ← hq, ih hl hf]

/-! ## The catalogue -/

theorem Field.width_pos (f : Field) : 0 < f.info.width := by cases f <;> decide

theorem Field.reset_lt (f : Field) : f.reset < 2 ^ f.info.width := by
  have h : f.reset = 0 ∨ f.reset < 2 ^ f.info.width ∧ f.info.width ≤ 32 := by cases f <;> decide
  rcases h with h | h
  · rw [h]; exact Nat.two_pow_pos _
  · exact h.1

/-- The fields of a register do not overlap (R9). -/
theorem Reg.fields_apart (r : Reg) : FieldsApart r.fields := by cases r <;> decide

theorem Reg.fields_nodup (r : Reg) : r.fields.Nodup := by
  refine r.fields_apart.imp fun {f g} h e => ?_
  have := f.width_pos
  subst e
  omega

/-- An offset of a register of the device's own block names one of its copies. -/
theorem regAt_device_index {off : Nat} {r : Reg} {i b : Nat} (h : regAt off = some (r, i, b))
    (hr : r.info.scope = .device) : i < r.info.count := by
  obtain ⟨q, _, hq⟩ := List.exists_of_findSome?_eq_some h
  dsimp only at hq
  split at hq
  case h_1 =>
    obtain ⟨⟨hb, hlt⟩, he⟩ := Option.ite_none_right_eq_some.mp hq
    obtain ⟨rfl, rfl, -⟩ := Prod.mk.inj (Option.some.inj he) |>.imp_right Prod.mk.inj
    rw [Nat.zero_mul, Nat.zero_add]
    exact Nat.div_lt_of_lt_mul (by omega)
  case h_2 hs | h_3 hs | h_4 hs =>
    have hqr : q = r := by
      repeat' split at hq
      all_goals cases hq
      rfl
    rw [hqr, hr] at hs
    cases hs

end Machine
end Sys2Proof
end

section
/-! SUPPORT. Updates of a register field by field: each field takes its own step, whatever the others take. -/

namespace Sys2Proof.Machine

/-- A step at a field changes copy `i` of that field alone, by what it held alone, and no memory. -/
structure ByField (i : Nat) (step : State → Field → State) : Prop where
  own : ∀ s t f, s.fld f i = t.fld f i → (step s f).fld f i = (step t f).fld f i
  other : ∀ s f g j, g ≠ f ∨ j ≠ i → (step s f).fld g j = s.fld g j
  mem : ∀ s f, (step s f).mem = s.mem

namespace ByField

variable {i : Nat} {step : State → Field → State} (hs : ByField i step)
include hs

theorem fold_other {g : Field} {j : Nat} (l : List Field) (s : State) (h : g ∉ l ∨ j ≠ i) :
    (l.foldl step s).fld g j = s.fld g j := by
  induction l generalizing s with
  | nil => rfl
  | cons f l ih =>
    have hf : g ≠ f ∨ j ≠ i := h.imp_left fun h e => h (e ▸ .head _)
    have hl : g ∉ l ∨ j ≠ i := h.imp_left fun h m => h (.tail _ m)
    rw [List.foldl_cons, ih _ hl, hs.other _ _ _ _ hf]

theorem fold_own {f : Field} {l : List Field} (s : State) (hn : l.Nodup) (hf : f ∈ l) :
    (l.foldl step s).fld f i = (step s f).fld f i := by
  induction l generalizing s with
  | nil => cases hf
  | cons g l ih =>
    obtain ⟨hg, hn⟩ := List.nodup_cons.mp hn
    rw [List.foldl_cons]
    by_cases h : f = g
    · subst h
      exact hs.fold_other l _ (.inl hg)
    · have hl : f ∈ l := (List.mem_cons.mp hf).resolve_left h
      rw [ih _ hn hl]
      exact hs.own _ _ _ (hs.other _ _ _ _ (.inl h))

theorem fold_mem (l : List Field) (s : State) : (l.foldl step s).mem = s.mem := foldl_keeps State.mem step hs.mem l s

end ByField

/-- Equal memories read alike. -/
theorem memKept_of_mem_eq {s t : State} (h : t.mem = s.mem) : MemKept s t := fun a => by rw [State.rdB, State.rdB, h]

/-! ## Writes (R13) -/

/-- What a write makes of a field depends on what that field held alone. -/
theorem State.newField_congr {s t : State} {f : Field} {i : Nat} (m v : Nat) (h : s.fld f i = t.fld f i) :
    s.newField f i m v = t.newField f i m v := by simp only [State.newField, h]

theorem State.newField_rw (s : State) {f : Field} (i m v : Nat) (h : f.info.acc = .rw) :
    s.newField f i m v = mergeBits f.info.width (s.fld f i) (bits m f.info.lo f.info.width)
      (bits v f.info.lo f.info.width) := by simp only [State.newField, h]

theorem State.newField_w1c (s : State) {f : Field} (i m v : Nat) (h : f.info.acc = .w1c) :
    s.newField f i m v = s.fld f i &&& (2 ^ f.info.width - 1 - (bits m f.info.lo f.info.width &&&
      bits v f.info.lo f.info.width)) := by simp only [State.newField, h]

theorem State.newField_wo (s : State) {f : Field} (i m v : Nat) (h : f.info.acc = .wo) :
    s.newField f i m v = bits m f.info.lo f.info.width &&& bits v f.info.lo f.info.width := by
  simp only [State.newField, h]

/-- A field that takes writes, covered whole by an access, becomes its part of the value. -/
theorem State.newField_covered (s : State) {f : Field} {b n : Nat} (i v : Nat) (h : f.info.acc = .rw ∨ f.info.acc = .wo)
    (hlo : 8 * b ≤ f.info.lo) (hhi : f.info.lo + f.info.width ≤ 8 * (b + n)) :
    s.newField f i (coverMask b n) (coverBits b n v) = bits v (f.info.lo - 8 * b) f.info.width := by
  have hb := Nat.mod_eq_of_lt (bits_lt v (f.info.lo - 8 * b) f.info.width)
  rcases h with h | h
  · rw [s.newField_rw i _ _ h, bits_coverMask hlo hhi, bits_coverBits v hlo hhi, mergeBits_full, hb]
  · rw [s.newField_wo i _ _ h, bits_coverMask hlo hhi, bits_coverBits v hlo hhi, Nat.and_comm,
      Nat.and_two_pow_sub_one_eq_mod, hb]

theorem State.writeField_written (s : State) {f : Field} (i m v : Nat) (h : f.info.acc = .rw ∨ f.info.acc = .w1c) :
    s.writeField f i m v = s.setFld f i (s.newField f i m v) := by
  rcases h with h | h <;> simp only [State.writeField, h]

theorem State.writeField_ignored (s : State) {f : Field} (i m v : Nat) (hrw : f.info.acc ≠ .rw)
    (hw1c : f.info.acc ≠ .w1c) : s.writeField f i m v = s := by
  unfold State.writeField
  split
  · contradiction
  · contradiction
  · rfl

theorem byField_writeField (i m v : Nat) : ByField i fun s f => s.writeField f i m v where
  own s t f h := by
    by_cases hw : f.info.acc = .rw ∨ f.info.acc = .w1c
    · rw [s.writeField_written i m v hw, t.writeField_written i m v hw, State.fld_setFld_same, State.fld_setFld_same,
        State.newField_congr m v h]
    · obtain ⟨hrw, hw1c⟩ := not_or.mp hw
      rwa [s.writeField_ignored i m v hrw hw1c, t.writeField_ignored i m v hrw hw1c]
  other s f g j h := by
    unfold State.writeField
    split
    · exact State.fld_setFld_other _ _ _ _ _ _ h
    · exact State.fld_setFld_other _ _ _ _ _ _ h
    · rfl
  mem s f := by unfold State.writeField; split <;> rfl

/-- A write under a range check, field by field. -/
theorem byField_rangeWrite (i m v : Nat) (ok : Field → Nat → Bool) :
    ByField i fun s f => if ok f (s.newField f i m v) then s.writeField f i m v else s where
  own s t f h := by
    rw [State.newField_congr m v h]
    split
    · exact (byField_writeField i m v).own s t f h
    · exact h
  other s f g j h := by
    split
    · exact (byField_writeField i m v).other s f g j h
    · rfl
  mem s f := by
    split
    · exact (byField_writeField i m v).mem s f
    · rfl

/-- In a plain write, each field of the register takes the write. -/
theorem State.fld_plainWrite_own (s : State) {r : Reg} {f : Field} (i m v : Nat) (hf : f ∈ r.fields) :
    (s.plainWrite r i m v).fld f i = (s.writeField f i m v).fld f i :=
  (byField_writeField i m v).fold_own s r.fields_nodup hf

theorem State.fld_plainWrite_written (s : State) {r : Reg} {f : Field} (i m v : Nat) (hf : f ∈ r.fields)
    (h : f.info.acc = .rw ∨ f.info.acc = .w1c) :
    (s.plainWrite r i m v).fld f i = s.newField f i m v % 2 ^ f.info.width := by
  rw [s.fld_plainWrite_own i m v hf, s.writeField_written i m v h, State.fld_setFld_same]

theorem State.fld_plainWrite_ignored (s : State) {r : Reg} {f : Field} (i m v : Nat) (hf : f ∈ r.fields)
    (hrw : f.info.acc ≠ .rw) (hw1c : f.info.acc ≠ .w1c) : (s.plainWrite r i m v).fld f i = s.fld f i := by
  rw [s.fld_plainWrite_own i m v hf, s.writeField_ignored i m v hrw hw1c]

theorem State.fld_plainWrite_other (s : State) {r : Reg} {f : Field} {i j : Nat} (m v : Nat) (h : f ∉ r.fields ∨ j ≠ i) :
    (s.plainWrite r i m v).fld f j = s.fld f j := (byField_writeField i m v).fold_other r.fields s h

@[simp] theorem State.plainWrite_mem (s : State) (r : Reg) (i m v : Nat) : (s.plainWrite r i m v).mem = s.mem :=
  (byField_writeField i m v).fold_mem r.fields s

/-- An RW field takes the bits that an access covers and keeps the others. -/
theorem State.testBit_fld_plainWrite_rw (s : State) {r : Reg} {f : Field} (i m v : Nat) {j : Nat} (hf : f ∈ r.fields)
    (h : f.info.acc = .rw) (hj : j < f.info.width) : ((s.plainWrite r i m v).fld f i).testBit j =
      if m.testBit (f.info.lo + j) then v.testBit (f.info.lo + j) else (s.fld f i).testBit j := by
  rw [s.fld_plainWrite_written i m v hf (.inl h), s.newField_rw i m v h, Nat.testBit_mod_two_pow,
    testBit_mergeBits (bits_lt _ _ _) hj, testBit_bits, testBit_bits]
  simp [hj]

/-- A W1C field loses the bits that an access writes 1 to. -/
theorem State.testBit_fld_plainWrite_w1c (s : State) {r : Reg} {f : Field} (i m v : Nat) {j : Nat} (hf : f ∈ r.fields)
    (h : f.info.acc = .w1c) (hj : j < f.info.width) : ((s.plainWrite r i m v).fld f i).testBit j =
      ((s.fld f i).testBit j && !(m.testBit (f.info.lo + j) && v.testBit (f.info.lo + j))) := by
  have hc (x : Nat) : 2 ^ f.info.width - 1 - x = 2 ^ f.info.width - (x + 1) := by omega
  have hlt := Nat.and_lt_two_pow (bits m f.info.lo f.info.width) (bits_lt v f.info.lo f.info.width)
  rw [s.fld_plainWrite_written i m v hf (.inr h), s.newField_w1c i m v h, Nat.testBit_mod_two_pow, Nat.testBit_and, hc,
    Nat.testBit_two_pow_sub_succ hlt, Nat.testBit_and, testBit_bits, testBit_bits]
  simp [hj]

/-- What an access writes, at a bit of an RW field that it covers. -/
theorem State.bit_plainWrite_covered (s : State) {r : Reg} {f : Field} {b n j : Nat} (i v : Nat) (hf : f ∈ r.fields)
    (h : f.info.acc = .rw) (hj : j < f.info.width) (hc : 8 * b ≤ f.info.lo + j ∧ f.info.lo + j < 8 * (b + n)) :
    bit ((s.plainWrite r i (coverMask b n) (coverBits b n v)).fld f i) j = bit v (f.info.lo + j - 8 * b) := by
  rw [bit_eq_testBit, bit_eq_testBit, s.testBit_fld_plainWrite_rw i _ _ hf h hj, testBit_coverMask, testBit_coverBits,
    decide_eq_true hc, if_pos rfl, Bool.true_and]

theorem State.bit_plainWrite_uncovered (s : State) {r : Reg} {f : Field} {b n j : Nat} (i v : Nat) (hf : f ∈ r.fields)
    (h : f.info.acc = .rw) (hj : j < f.info.width) (hc : ¬ (8 * b ≤ f.info.lo + j ∧ f.info.lo + j < 8 * (b + n))) :
    bit ((s.plainWrite r i (coverMask b n) (coverBits b n v)).fld f i) j = bit (s.fld f i) j := by
  rw [bit_eq_testBit, bit_eq_testBit, s.testBit_fld_plainWrite_rw i _ _ hf h hj, testBit_coverMask,
    decide_eq_false hc, if_neg Bool.false_ne_true]

/-- A bit of a W1C field stays unless the access covers it and writes 1 to it. -/
theorem State.bit_plainWrite_w1c (s : State) {r : Reg} {f : Field} {j : Nat} (i b n v : Nat) (hf : f ∈ r.fields)
    (h : f.info.acc = .w1c) (hj : j < f.info.width) :
    bit ((s.plainWrite r i (coverMask b n) (coverBits b n v)).fld f i) j = true ↔ bit (s.fld f i) j = true ∧
      ¬ ((8 * b ≤ f.info.lo + j ∧ f.info.lo + j < 8 * (b + n)) ∧ bit v (f.info.lo + j - 8 * b) = true) := by
  simp only [bit_eq_testBit, s.testBit_fld_plainWrite_w1c i _ _ hf h hj, testBit_coverMask, testBit_coverBits,
    Bool.and_eq_true, Bool.not_eq_true', ← Bool.not_eq_true, decide_eq_true_eq, ← and_assoc, and_self]

/-- A field covered whole reads what was written. -/
theorem State.fld_plainWrite_covered (s : State) {r : Reg} {f : Field} {b n : Nat} (i v : Nat) (hf : f ∈ r.fields)
    (h : f.info.acc = .rw) (hlo : 8 * b ≤ f.info.lo) (hhi : f.info.lo + f.info.width ≤ 8 * (b + n)) :
    (s.plainWrite r i (coverMask b n) (coverBits b n v)).fld f i = bits v (f.info.lo - 8 * b) f.info.width := by
  rw [s.fld_plainWrite_written i _ _ hf (.inl h), s.newField_covered i v (.inl h) hlo hhi,
    Nat.mod_eq_of_lt (bits_lt _ _ _)]

/-! ## Reads (R13) -/

theorem State.resetFld_same (s : State) (f : Field) (i : Nat) : (s.resetFld f i).fld f i = f.reset := by
  rw [State.resetFld, State.fld_setFld_same, Nat.mod_eq_of_lt f.reset_lt]

/-- The step of `readClear` on one field: a covered RC field returns to its Reset value. -/
def clearField (i b n : Nat) (s : State) (f : Field) : State :=
  if f.info.acc = .rc ∧ 8 * b ≤ f.info.lo ∧ f.info.lo + f.info.width ≤ 8 * (b + n) then s.resetFld f i else s

theorem State.readClear_eq_foldl (s : State) (r : Reg) (i b n : Nat) :
    s.readClear r i b n = r.fields.foldl (clearField i b n) s := by
  unfold State.readClear clearField
  congr
  funext s f
  cases h : f.info.acc <;> simp [h]

theorem byField_clearField (i b n : Nat) : ByField i (clearField i b n) where
  own s t f h := by
    unfold clearField
    split
    · rw [State.resetFld_same, State.resetFld_same]
    · exact h
  other s f g j h := by
    unfold clearField
    split
    · exact State.fld_setFld_other _ _ _ _ _ _ h
    · rfl
  mem s f := by unfold clearField; split <;> rfl

/-- A read returns the RC fields that it covers to their Reset values. -/
theorem State.fld_readClear_covered (s : State) {r : Reg} {f : Field} {b n : Nat} (i : Nat) (hf : f ∈ r.fields)
    (h : f.info.acc = .rc) (hlo : 8 * b ≤ f.info.lo) (hhi : f.info.lo + f.info.width ≤ 8 * (b + n)) :
    (s.readClear r i b n).fld f i = f.reset := by
  rw [s.readClear_eq_foldl, (byField_clearField i b n).fold_own s r.fields_nodup hf, clearField,
    if_pos ⟨h, hlo, hhi⟩, State.resetFld_same]

/-- A read changes RC fields of the copy that it reads and no others. -/
theorem State.fld_readClear_other (s : State) {r : Reg} {f : Field} {i j : Nat} (b n : Nat)
    (h : f ∉ r.fields ∨ f.info.acc ≠ .rc ∨ j ≠ i) : (s.readClear r i b n).fld f j = s.fld f j := by
  have hb := byField_clearField i b n
  rw [s.readClear_eq_foldl]
  by_cases hfj : f ∈ r.fields ∧ j = i
  · obtain ⟨hf, rfl⟩ := hfj
    have hacc : f.info.acc ≠ .rc := by simpa [hf] using h
    rw [hb.fold_own s r.fields_nodup hf, clearField, if_neg fun hc => hacc hc.1]
  · exact hb.fold_other r.fields s (Decidable.not_and_iff_not_or_not.mp hfj)

@[simp] theorem State.readClear_mem (s : State) (r : Reg) (i b n : Nat) : (s.readClear r i b n).mem = s.mem := by
  rw [s.readClear_eq_foldl]
  exact (byField_clearField i b n).fold_mem r.fields s

end Sys2Proof.Machine
end

section
/-! SUPPORT. Host accesses that reach a register: which register, which of its bits, and what a whole write of a register
that acts hands to the command of its row. -/

namespace Sys2Proof.Machine

/-! ## Writes -/

/-- A write of control space that a register stands at is a write of the bits that it covers (R628). -/
theorem State.putSpace_reg {s : State} {off n v : Nat} {r : Reg} {i b : Nat} (hlive : s.blockLive off = true)
    (hmsix : ¬ (0x8000 ≤ off ∧ off < 0x8400)) (hr : regAt off = some (r, i, b)) :
    s.putSpace off n v = s.writeBits r i (coverMask b n) (coverBits b n v) := by
  simp only [State.putSpace, hlive, hmsix, hr, Bool.not_true, Bool.false_eq_true, if_false]
  rfl

/-- A write of a register that does not act is a plain write. -/
theorem State.writeBits_plain (s : State) {r : Reg} (i m v : Nat) (h : r ∉ actingRegs) :
    s.writeBits r i m v = s.plainWrite r i m v := by
  unfold State.writeBits
  split
  case h_17 => rfl
  all_goals exact absurd (by simp [actingRegs]) h

/-- A host write of `n` bytes at `off` is served, and covers copy `i` of register `r` from its byte `b` on. -/
structure WriteReaches (s : State) (off n : Nat) (r : Reg) (i b : Nat) : Prop where
  perst : s.perst = false
  ready : s.ready = true
  served : bar0Ok off n = true
  live : s.blockLive off = true
  noMsix : ¬ (0x8000 ≤ off ∧ off < 0x8400)
  place : regAt off = some (r, i, b)

namespace WriteReaches

variable {s : State} {off n v : Nat} {r : Reg} {i b : Nat}

theorem exec_eq (h : WriteReaches s off n r i b) :
    exec (.registerWrite off n v) s = .next (s.writeBits r i (coverMask b n) (coverBits b n v)) := by
  change Host.Outcome.next (doWrite off n v s) = _
  rw [doWrite, h.perst, h.served, State.writeSpace, h.ready, State.putSpace_reg h.live h.noMsix h.place]
  rfl

/-- A whole write of a register of 8 bytes. -/
theorem exec_eq_whole (h : WriteReaches s off 8 r i 0) (hv : v < 2 ^ 64) :
    exec (.registerWrite off 8 v) s = .next (s.writeBits r i (2 ^ 64 - 1) v) := by
  rw [h.exec_eq, coverMask_whole, coverBits_whole hv]

/-- Of a register of the device's own block that stands once, the one copy. -/
theorem index_eq_zero (h : WriteReaches s off n r i b) (hr : r.info.scope = .device ∧ r.info.count = 1) : i = 0 := by
  have := regAt_device_index h.place hr.1
  omega

end WriteReaches

/-! ## Whole writes -/

/-- The field lies in the first 8 bytes of the register and takes what is written to it. -/
abbrev Reg.Takes (r : Reg) (f : Field) : Prop :=
  f ∈ r.fields ∧ (f.info.acc = .rw ∨ f.info.acc = .wo) ∧ f.info.lo + f.info.width ≤ 64

theorem State.newField_whole (s : State) {r : Reg} {f : Field} {v : Nat} (i : Nat) (hv : v < 2 ^ 64) (h : r.Takes f) :
    s.newField f i (2 ^ 64 - 1) v = bits v f.info.lo f.info.width := by
  obtain ⟨-, hacc, hhi⟩ := h
  have := s.newField_covered (b := 0) (n := 8) i v hacc (Nat.zero_le _) (by omega)
  rwa [coverMask_whole, coverBits_whole hv] at this

theorem State.merged_eq_packed (s : State) (r : Reg) (i m v : Nat) :
    s.merged r i m v = packed (fun f => s.newField f i m v) r.fields := by
  rw [packed, List.sum_eq_foldl, List.foldl_map]
  rfl

/-- The register that a whole write leaves shows what was written at every field that takes it. -/
theorem State.bits_merged_whole (s : State) {r : Reg} {v : Nat} (f : Field) (i : Nat) (hv : v < 2 ^ 64) (h : r.Takes f) :
    bits (s.merged r i (2 ^ 64 - 1) v) f.info.lo f.info.width = bits v f.info.lo f.info.width := by
  rw [s.merged_eq_packed, bits_packed _ r.fields_apart h.1, s.newField_whole i hv h, Nat.mod_eq_of_lt (bits_lt _ _ _)]

theorem State.bit_merged_whole (s : State) {r : Reg} {v : Nat} (f : Field) (i : Nat) (hv : v < 2 ^ 64)
    (h : r.Takes f ∧ f.info.width = 1) : bit (s.merged r i (2 ^ 64 - 1) v) f.info.lo = bit v f.info.lo := by
  have hb := s.bits_merged_whole f i hv h.1
  rw [h.2] at hb
  rw [bit_eq_bits, bit_eq_bits, hb]

/-! ## Commands by the bits of their operand that they read -/

theorem doDbgctl_congr (d g : Nat) (s : State) {v w : Nat} (hbit : ∀ k < 6, bit v k = bit w k)
    (hip : bits v 16 12 = bits w 16 12) : doDbgctl d g v s = doDbgctl d g w s := by
  simp only [doDbgctl, hbit 0 (by omega), hbit 1 (by omega), hbit 2 (by omega), hbit 3 (by omega), hbit 4 (by omega),
    hbit 5 (by omega), hip]

theorem doEditionWrite_congr (s : State) {v w : Nat} (h6 : bit v 6 = bit w 6) (h7 : bit v 7 = bit w 7)
    (h8 : bit v 8 = bit w 8) : doEditionWrite v s = doEditionWrite w s := by
  simp only [doEditionWrite, h6, h7, h8]

theorem State.writeRecover_congr (s : State) {v w : Nat} (hd : bits v 0 32 = bits w 0 32)
    (hl : bits v 32 5 = bits w 32 5) (ht : bits v 37 1 = bits w 37 1) (hg : bit v 38 = bit w 38) :
    s.writeRecover v = s.writeRecover w := by
  simp only [State.writeRecover, hd, hl, ht, hg]

/-! ## A whole write of a register that acts is the command of its row -/

namespace WriteReaches

variable {s : State} {off v : Nat} {i : Nat}

theorem budLimit (h : WriteReaches s off 8 .budLimit i 0) (hv : v < 2 ^ 64) :
    exec (.registerWrite off 8 v) s = exec (.budLimitWrite v) s := by
  change _ = execBudLimitWrite v s
  rw [h.exec_eq_whole hv, h.index_eq_zero (by decide), execBudLimitWrite, if_pos h.ready]

theorem memQos (h : WriteReaches s off 8 .memQos i 0) (hv : v < 2 ^ 64) :
    exec (.registerWrite off 8 v) s = exec (.memQosWrite v) s := by
  change _ = execMemQosWrite v s
  rw [h.exec_eq_whole hv, h.index_eq_zero (by decide), execMemQosWrite, if_pos h.ready]

theorem fltCfg (h : WriteReaches s off 8 .fltCfg i 0) (hv : v < 2 ^ 64) :
    exec (.registerWrite off 8 v) s = exec (.fltCfgWrite v) s := by
  change _ = execFltCfgWrite v s
  rw [h.exec_eq_whole hv, h.index_eq_zero (by decide), execFltCfgWrite, if_pos h.ready]

theorem crzCfg {d : Fin 8} (h : WriteReaches s off 8 .crzCfg d.val 0) (hv : v < 2 ^ 64) (hd : s.absent d = false) :
    exec (.registerWrite off 8 v) s = exec (.crzCfgWrite d v) s := by
  change _ = execCrzCfgWrite d v s
  rw [h.exec_eq_whole hv, execCrzCfgWrite, if_pos (by simp [h.ready, hd])]

theorem yrdReg {d : Fin 8} {c : Fin 4} (h : WriteReaches s off 8 .yrdReg (4 * d.val + c.val) 0) (hv : v < 2 ^ 64)
    (hd : s.absent d = false) : exec (.registerWrite off 8 v) s = exec (.yrdRegWrite d c v) s := by
  change _ = execYrdRegWrite d c v s
  rw [h.exec_eq_whole hv, execYrdRegWrite, if_pos (by simp [h.ready, hd])]

/-- HALT_REQ: GTH.DBGCTL takes bits 0 to 5 and BREAK_IP. -/
theorem gthDbgctl {d g : Fin 8} (h : WriteReaches s off 8 .gthDbgctl (8 * d.val + g.val) 0) (hv : v < 2 ^ 64)
    (hreq : bit v 1 = true) : exec (.registerWrite off 8 v) s = exec (.haltReq d g v) s := by
  have hd : (8 * d.val + g.val) / 8 = d.val := by omega
  have hg : (8 * d.val + g.val) % 8 = g.val := by omega
  have hbit : ∀ k < 6, bit (s.merged .gthDbgctl (8 * d.val + g.val) (2 ^ 64 - 1) v) k = bit v k := by
    intro k hk
    match k with
    | 0 => exact s.bit_merged_whole .gthDbgctl_enable _ hv (by decide)
    | 1 => exact s.bit_merged_whole .gthDbgctl_haltReq _ hv (by decide)
    | 2 => exact s.bit_merged_whole .gthDbgctl_step _ hv (by decide)
    | 3 => exact s.bit_merged_whole .gthDbgctl_resume _ hv (by decide)
    | 4 => exact s.bit_merged_whole .gthDbgctl_breakEn _ hv (by decide)
    | 5 => exact s.bit_merged_whole .gthDbgctl_clearLog _ hv (by decide)
  have hip := s.bits_merged_whole (r := .gthDbgctl) .gthDbgctl_breakIp (8 * d.val + g.val) hv (by decide)
  have hor : v ||| 2 = v := or_two_pow_of_bit hreq
  change _ = execHaltReq d g v s
  rw [h.exec_eq_whole hv, execHaltReq, hor, State.writeBits, hd, hg, doDbgctl_congr _ _ _ hbit hip]

/-- XENTRY_WRITE: TOR.XENTRY takes its low 42 bits. -/
theorem torXentry {k : Fin 256} (h : WriteReaches s off 8 .torXentry k.val 0) (hv : v < 2 ^ 64) :
    exec (.registerWrite off 8 v) s = exec (.xentryWrite k v) s := by
  have hm : s.xentryMerged k.val (2 ^ 64 - 1) v = v % 2 ^ 42 := mergeBits_full 42 _ v
  change _ = execXentryWrite k v s
  rw [h.exec_eq_whole hv, execXentryWrite, State.writeBits, hm, doXentryWrite, doXentryWrite, Nat.mod_mod]

/-- The write of TOR.EDITION that a whole write makes, whatever its read-only fields hold. -/
theorem torEdition (h : WriteReaches s off 8 .torEdition i 0) (hv : v < 2 ^ 64) :
    exec (.registerWrite off 8 v) s = .next (doEditionWrite v s) := by
  rw [h.exec_eq_whole hv, State.writeBits, doEditionWrite_congr s
    (s.bit_merged_whole .torEdition_stageDone i hv (by decide)) (s.bit_merged_whole .torEdition_switch i hv (by decide))
    (s.bit_merged_whole .torEdition_retire i hv (by decide))]

theorem torEdition_stageDone (h : WriteReaches s off 8 .torEdition i 0) (hv : v < 2 ^ 64) (hb : bit v 6 = true) :
    exec (.registerWrite off 8 v) s = exec (.stageDone v) s := by
  have hor : v ||| 64 = v := or_two_pow_of_bit hb
  change _ = execStageDone v s
  rw [h.torEdition hv, execStageDone, hor]

theorem torEdition_switch (h : WriteReaches s off 8 .torEdition i 0) (hv : v < 2 ^ 64) (hb : bit v 7 = true) :
    exec (.registerWrite off 8 v) s = exec (.editionSwitch v) s := by
  have hor : v ||| 128 = v := or_two_pow_of_bit hb
  change _ = execEditionSwitch v s
  rw [h.torEdition hv, execEditionSwitch, hor]

theorem torEdition_retire (h : WriteReaches s off 8 .torEdition i 0) (hv : v < 2 ^ 64) (hb : bit v 8 = true) :
    exec (.registerWrite off 8 v) s = exec (.editionRetire v) s := by
  have hor : v ||| 256 = v := or_two_pow_of_bit hb
  change _ = execEditionRetire v s
  rw [h.torEdition hv, execEditionRetire, hor]

theorem fltStop (h : WriteReaches s off 8 .fltStop i 0) (hv : v < 2 ^ 64) (hb : bit v 0 = true) :
    exec (.registerWrite off 8 v) s = exec .fltStop s := by
  have hm : bit (s.merged .fltStop i (2 ^ 64 - 1) v) 0 = bit v 0 := s.bit_merged_whole .fltStop_stop i hv (by decide)
  change _ = execFltStop s
  rw [h.exec_eq_whole hv, State.writeBits, hm, if_pos hb, execFltStop]

theorem fltRecover (h : WriteReaches s off 8 .fltRecover i 0) (hv : v < 2 ^ 64) (hb : bit v 38 = true) :
    exec (.registerWrite off 8 v) s = exec (.recoverGo v) s := by
  change _ = execRecoverGo v s
  rw [h.exec_eq_whole hv, State.writeBits, execRecoverGo, if_pos h.ready, or_two_pow_of_bit hb, s.writeRecover_congr
    (s.bits_merged_whole .fltRecover_dFence i hv (by decide)) (s.bits_merged_whole .fltRecover_logicalD i hv (by decide))
    (s.bits_merged_whole .fltRecover_takeover i hv (by decide)) (s.bit_merged_whole .fltRecover_go i hv (by decide))]

theorem cfgPortctl (h : WriteReaches s off 8 .cfgPortctl i 0) (hv : v < 2 ^ 64) :
    exec (.registerWrite off 8 v) s = exec (.portRestart (bits v 0 12)) s := by
  have hm : bits (s.merged .cfgPortctl i (2 ^ 64 - 1) v) 0 12 = bits v 0 12 :=
    s.bits_merged_whole .cfgPortctl_restart i hv (by decide)
  change _ = execPortRestart (bits v 0 12) s
  rw [h.exec_eq_whole hv, State.writeBits, hm, execPortRestart]

/-- ATTEST_GO: of SEC.ATTEST, a write stores ADDR alone. -/
theorem secAttest (h : WriteReaches s off 8 .secAttest i 0) (hv : v < 2 ^ 64) (hb : bit v 48 = true) :
    exec (.registerWrite off 8 v) s = exec (.attestGo (bits v 0 48)) s := by
  have hm : bit (s.merged .secAttest 0 (2 ^ 64 - 1) v) 48 = bit v 48 := s.bit_merged_whole .secAttest_go 0 hv (by decide)
  have hf : s.newField .secAttest_addr 0 (2 ^ 64 - 1) v = bits v 0 48 :=
    s.newField_whole (r := .secAttest) 0 hv (by decide)
  have hp : s.plainWrite .secAttest 0 (2 ^ 64 - 1) v = s.setFld .secAttest_addr 0 (bits v 0 48) := by rw [← hf]; rfl
  change _ = execAttestGo (bits v 0 48) s
  rw [h.exec_eq_whole hv, h.index_eq_zero (by decide), State.writeBits, execAttestGo, doAttestGo, if_pos h.ready, hp]
  simp only [hm, hb, if_true]

/-- RING_ENABLE: the upper half of a ring register, with ENABLE written 1. -/
theorem doRingEnable_eq (ring : RingSel) (hready : s.ready = true) (hv : v < 2 ^ 64) (hb : bit v 32 = true) :
    doRingEnable ring v s = s.ringWrite ring (coverMask 8 8) (coverBits 8 8 v) := by
  rw [doRingEnable, if_pos hready, Nat.mod_eq_of_lt hv, or_two_pow_of_bit hb]
  rw [coverBits, Nat.mod_eq_of_lt hv]
  rfl

theorem hifMring (h : WriteReaches s off 8 .hifMring 0 8) (hv : v < 2 ^ 64) (hb : bit v 32 = true) :
    exec (.registerWrite off 8 v) s = exec (.ringEnable .manifest v) s := by
  change _ = execRingEnable .manifest v s
  rw [h.exec_eq, State.writeBits, execRingEnable, doRingEnable_eq .manifest h.ready hv hb]

theorem hifXring (h : WriteReaches s off 8 .hifXring 0 8) (hv : v < 2 ^ 64) (hb : bit v 32 = true) :
    exec (.registerWrite off 8 v) s = exec (.ringEnable .transfer v) s := by
  change _ = execRingEnable .transfer v s
  rw [h.exec_eq, State.writeBits, execRingEnable, doRingEnable_eq .transfer h.ready hv hb]

end WriteReaches

end Sys2Proof.Machine
end

section
/-! SUPPORT. Writes under a range check, reads that reach a register, and accesses that R627 refuses. -/

namespace Sys2Proof.Machine

/-! ## Writes under a range check -/

/-- A whole write under a range check: a field whose part of the value is in range takes it, another keeps its own. -/
theorem State.fld_rangeWrite_whole (s : State) {r : Reg} {v : Nat} (f : Field) (i : Nat) (ok : Field → Nat → Bool)
    (hv : v < 2 ^ 64) (h : r.Takes f ∧ f.info.acc = .rw) : (s.rangeWrite r i (2 ^ 64 - 1) v ok).fld f i =
      if ok f (bits v f.info.lo f.info.width) then bits v f.info.lo f.info.width else s.fld f i := by
  obtain ⟨htakes, hrw⟩ := h
  have hs := byField_rangeWrite i (2 ^ 64 - 1) v ok
  rw [State.rangeWrite, hs.fold_own s r.fields_nodup htakes.1, s.writeField_written i _ v (.inl hrw),
    s.newField_whole i hv htakes]
  split
  · rw [State.fld_setFld_same, Nat.mod_eq_of_lt (bits_lt _ _ _)]
  · rfl

theorem State.fld_rangeWrite_other (s : State) {r : Reg} {f : Field} {i j : Nat} (m v : Nat) (ok : Field → Nat → Bool)
    (h : f ∉ r.fields ∨ j ≠ i) : (s.rangeWrite r i m v ok).fld f j = s.fld f j :=
  (byField_rangeWrite i m v ok).fold_other r.fields s h

@[simp] theorem State.rangeWrite_mem (s : State) (r : Reg) (i m v : Nat) (ok : Field → Nat → Bool) :
    (s.rangeWrite r i m v ok).mem = s.mem := (byField_rangeWrite i m v ok).fold_mem r.fields s

/-! ## Reads -/

/-- Bytes of control space that a register stands at show that register (R628). -/
theorem State.viewBytes_reg {s : State} {off n : Nat} {r : Reg} {i b : Nat} (hlive : s.blockLive off = true)
    (hmsix : ¬ (0x8000 ≤ off ∧ off < 0x8400)) (hpending : ¬ (0xC000 ≤ off ∧ off < 0xC008))
    (hr : regAt off = some (r, i, b)) : s.viewBytes off n = bits (s.viewReg r i) (8 * b) (8 * n) := by
  simp only [State.viewBytes, hlive, hmsix, hpending, hr, Bool.not_true, Bool.false_eq_true, if_false]

/-- A read of control space that a register without an effect of its own stands at (R13, R628). -/
theorem State.readOut_reg {s : State} {off n : Nat} {r : Reg} {i b : Nat} (hlive : s.blockLive off = true)
    (hr : regAt off = some (r, i, b)) (htime : r ≠ .timeNow) (hnonce : r ≠ .secNonce) :
    s.readOut off n = (s.viewBytes off n, s.readClear r i b n) := by
  rw [State.readOut, hlive, hr]
  cases r
  case timeNow => exact absurd rfl htime
  case secNonce => exact absurd rfl hnonce
  all_goals rfl

/-- A read that is served answers with what control space shows, after the effects of reading it. -/
theorem doRead_served {s : State} {off n : Nat} (hperst : s.perst = false) (hok : bar0Ok off n = true) :
    doRead off n s = (s.readOut off n).2.answer (.data (s.readOut off n).1) := by
  simp only [doRead, hperst, hok, Bool.false_eq_true, if_false, if_true]
  rfl

theorem doRead_refused {s : State} {off n : Nat} (hperst : s.perst = false) (hok : bar0Ok off n = false) :
    doRead off n s = s.badAccess.answer .ur := by
  simp [doRead, hperst, hok]

theorem doWrite_refused {s : State} {off n v : Nat} (hperst : s.perst = false) (hok : bar0Ok off n = false) :
    doWrite off n v s = s.badAccess := by
  simp [doWrite, hperst, hok]

/-! ## The count of refused accesses (R627) -/

theorem State.badAccess_count (s : State) :
    s.badAccess.fld .hifCause_badAccess 0 = min 65535 (s.fld .hifCause_badAccess 0 + 1) := by
  have hw : Field.hifCause_badAccess.info.width = 16 := rfl
  rw [State.badAccess, State.bump, State.fld_setFld_same, hw]
  omega

theorem State.badAccess_regsKept (s : State) : RegsKept [.hifCause_badAccess] s s.badAccess := by
  intro f i hf
  exact s.fld_setFld_field _ f 0 i _ (List.ne_of_not_mem_cons hf)

theorem State.badAccess_memKept (s : State) : MemKept s s.badAccess := fun _ => rfl

/-! ## TIME.NOW (R58, R59) -/

/-- The low half of TIME.NOW shows the low half of local time. -/
theorem State.viewBytes_timeNow (s : State) : s.viewBytes timeNowOff 4 = s.now % 2 ^ 32 := by
  have hreg : s.viewReg .timeNow 0 = s.now % 2 ^ 64 := by
    change 0 + s.now % 2 ^ 64 * 2 ^ 0 = _
    omega
  rw [State.viewBytes_reg rfl (by decide) (by decide) (by decide : regAt timeNowOff = some (.timeNow, 0, 0)), hreg, bits]
  change s.now % 2 ^ 64 % 2 ^ 32 = _
  omega

/-- A read of the low half answers it and latches the high half. -/
theorem State.readOut_timeNow (s : State) : s.readOut timeNowOff 4 = (s.now % 2 ^ 32,
    { s with hif := { s.hif with timeLatch := some (s.now / 2 ^ 32 % 2 ^ 32) } }) := by
  have hr : regAt timeNowOff = some (.timeNow, 0, 0) := by decide
  have hlive : s.blockLive timeNowOff = true := rfl
  rw [State.readOut, hlive, hr, s.viewBytes_timeNow]
  rfl

end Sys2Proof.Machine
end

section
/-! The statements of the family of resets and of register accesses. -/

open Sys2Proof Sys2Proof.Machine

namespace Sys2Proof.Proofs

/-- The register store of the reset state is empty, so that every field reads its Reset value. -/
theorem reset_fld (f : Field) (i : Nat) : State.reset.fld f i = f.reset := rfl

/-- Settles O3: the reset state holds every field at the Reset value of the catalogue, and the table lists the values that
are not 0. -/
theorem resetFields : Obligations.ResetFields := by
  intro f i
  rw [reset_fld]
  cases f <;> rfl

/-- COL.CFG takes what is written, but for a LAG_THRESHOLD of 0 (R449). -/
theorem colCfg_write {s : State} {off v : Nat} (h : WriteReaches s off 8 .colCfg 0 0) (hv : v < 2 ^ 64) :
    Completes (.registerWrite off 8 v) s fun t =>
      t.fld .colCfg_stallUs 0 = bits v 32 24 ∧
      t.fld .colCfg_lagThreshold 0 = (if bits v 0 32 = 0 then s.fld .colCfg_lagThreshold 0 else bits v 0 32) ∧
      RegsKept [.colCfg_stallUs, .colCfg_lagThreshold] s t ∧ MemKept s t := by
  refine ⟨_, h.exec_eq_whole hv, ?_, ?_, ?_, memKept_of_mem_eq (State.rangeWrite_mem ..)⟩
  · exact s.fld_rangeWrite_whole .colCfg_stallUs 0 fieldRange hv (by decide)
  · refine (s.fld_rangeWrite_whole .colCfg_lagThreshold 0 fieldRange hv (by decide)).trans ?_
    change (if decide (bits v 0 32 ≥ 1) = true then bits v 0 32 else s.fld .colCfg_lagThreshold 0) = _
    by_cases hz : bits v 0 32 = 0
    · rw [hz]; rfl
    · rw [if_neg hz, if_pos (by simpa using Nat.one_le_iff_ne_zero.mpr hz)]
  · intro f i hf
    have hfields : f ∉ Reg.colCfg.fields := fun hm => hf (by simpa [Reg.fields, or_comm] using hm)
    exact s.fld_rangeWrite_other _ v fieldRange (.inl hfields)

/-- Settles O24: a register that does not act takes a plain write, and a whole write of one that acts is the command of
its row. -/
theorem plainRegisterWrite : Obligations.PlainRegisterWrite := by
  refine ⟨?_, ?_⟩
  · intro s off n v r i b hperst hready hok hlive hmsix hr hplain covered
    have h : WriteReaches s off n r i b := ⟨hperst, hready, hok, hlive, hmsix, hr⟩
    refine ⟨_, h.exec_eq, ?_⟩
    rw [s.writeBits_plain i _ _ hplain]
    exact ⟨fun f hf hacc j hj => ⟨s.bit_plainWrite_covered i v hf hacc hj, s.bit_plainWrite_uncovered i v hf hacc hj⟩,
      fun f hf hacc j hj => s.bit_plainWrite_w1c i b n v hf hacc hj,
      fun f hf hacc hlo hhi => s.fld_plainWrite_covered i v hf hacc hlo hhi,
      fun f hf hrw hw1c => s.fld_plainWrite_ignored i _ _ hf hrw hw1c,
      fun f j hfj => s.fld_plainWrite_other _ _ hfj, memKept_of_mem_eq (State.plainWrite_mem ..)⟩
  · intro s off v r i hperst hready hok hlive hmsix hv same
    have reach {r i b} (hr : regAt off = some (r, i, b)) : WriteReaches s off 8 r i b :=
      ⟨hperst, hready, hok, hlive, hmsix, hr⟩
    refine ⟨fun hr => colCfg_write (reach hr) hv, fun hr => ?_, fun hr => (reach hr).hifMring hv,
      fun hr => (reach hr).hifXring hv⟩
    have h := reach hr
    refine ⟨?_, ?_, ?_, ?_, ?_, ?_, ?_, ?_, ?_, ?_, ?_, ?_⟩
    · rintro rfl; exact h.budLimit hv
    · rintro rfl; exact h.memQos hv
    · rintro rfl; exact h.fltCfg hv
    · rintro d hd rfl rfl; exact h.crzCfg hv hd
    · rintro d c hd rfl rfl; exact h.yrdReg hv hd
    · rintro d g - rfl rfl; exact h.gthDbgctl hv
    · rintro k rfl rfl; exact h.torXentry hv
    · rintro rfl; exact ⟨h.torEdition_stageDone hv, h.torEdition_switch hv, h.torEdition_retire hv⟩
    · rintro rfl; exact h.fltStop hv
    · rintro rfl; exact h.fltRecover hv
    · rintro rfl; exact h.cfgPortctl hv
    · rintro rfl; exact h.secAttest hv

/-- Settles O25: a served read answers what the register shows and clears what it covers, a refused access is counted,
and a read of the low half of TIME.NOW latches the high half. -/
theorem registerRead : Obligations.RegisterRead := by
  refine ⟨?served, ?refusedRead, ?refusedWrite, ?timeNow⟩
  case served =>
    intro s off n r i b hperst hok hlive hr htime hnonce
    refine ⟨doRead off n s, rfl, ?_⟩
    rw [doRead_served hperst hok, State.readOut_reg hlive hr htime hnonce]
    exact ⟨rfl, fun f hf hacc hlo hhi => s.fld_readClear_covered i hf hacc hlo hhi,
      fun f j hfj => s.fld_readClear_other b n hfj, memKept_of_mem_eq (s.readClear_mem r i b n)⟩
  case refusedRead =>
    intro s off n hperst hok
    refine ⟨doRead off n s, rfl, ?_⟩
    rw [doRead_refused hperst hok]
    exact ⟨rfl, s.badAccess_count, s.badAccess_regsKept, s.badAccess_memKept⟩
  case refusedWrite =>
    intro s off n hperst hok
    refine ⟨doWrite off n 0 s, rfl, ?_⟩
    rw [doWrite_refused hperst hok]
    exact ⟨s.badAccess_count, s.badAccess_regsKept, s.badAccess_memKept⟩
  case timeNow =>
    intro s hperst
    refine ⟨doRead timeNowOff 4 s, rfl, ?_⟩
    rw [doRead_served hperst (by decide), s.readOut_timeNow]
    exact ⟨rfl, rfl, fun _ _ _ => rfl, fun _ => rfl⟩

end Sys2Proof.Proofs
end

section
/-! SUPPORT. Issue of an instruction (R226 to R248): the state that carries its plan out, and device memory, which an
issue leaves as the landings of its beat left it. -/

namespace Sys2Proof.Machine

variable (s : State)

/-! ## Device memory -/

@[simp] theorem State.hazard_mem (d g ip cls : Nat) (c : QCmd) : (s.hazard d g ip cls c).mem = s.mem := by
  unfold State.hazard State.schedEvent
  dsimp only
  repeat' split
  all_goals simp

@[simp] theorem State.takeSample_mem (d : Nat) (c : CruiseRec) : (s.takeSample d c).mem = s.mem := by
  unfold State.takeSample
  repeat' split
  all_goals simp

@[simp] theorem State.setGthFlags_mem (i fl : Nat) : (s.setGthFlags i fl).mem = s.mem :=
  foldl_keeps (·.mem) _ (fun s p => by dsimp only; split <;> simp) numFields.zipIdx s

/-- Carrying out a plan writes no memory: its writes pend. -/
@[simp] theorem State.commitPlan_mem (d g t : Nat) (p : Plan) : (s.commitPlan d g t p).mem = s.mem := by
  have hsamples : (p.samples.foldl (fun s c => s.takeSample d c) s).mem = s.mem :=
    foldl_keeps (·.mem) _ (fun s c => s.takeSample_mem d c) p.samples s
  simp [State.commitPlan, hsamples]

/-! ## What an issue carries out -/

/-- A state as it was, or with one hazard of the gathering's program recorded (R238). -/
def State.MaybeHazard (d g : Nat) (c : QCmd) (s1 : State) : Prop :=
  s1 = s ∨ ∃ ip cls, s1 = s.hazard d g ip cls c

namespace State.MaybeHazard

variable {s} {s1 : State} {d g : Nat} {c : QCmd} (h : s.MaybeHazard d g c s1)
include h

theorem gaths : s1.gaths = s.gaths := by
  obtain rfl | ⟨ip, cls, rfl⟩ := h
  · rfl
  · exact s.hazard_gaths d g ip cls c

theorem mem : s1.mem = s.mem := by
  obtain rfl | ⟨ip, cls, rfl⟩ := h
  · rfl
  · exact s.hazard_mem d g ip cls c

end State.MaybeHazard

/-- A plan whose reads are clean meets no line in error, where everything has landed whole. -/
theorem State.readBad_none {d g : Nat} {p : Plan} (hl : (s.gath d g).badWrite = none) (hb : CleanReads s p) :
    s.readBad d g p = none := by
  rw [State.readBad, hl]
  refine List.findSome?_eq_none_iff.mpr ?_
  intro q hq
  cases q with
  | line l =>
    obtain ⟨hfound, hpoison⟩ := hb _ hq l rfl
    simp [hfound, hpoison]
  | _ => rfl

section
variable {s} {d g op wait : Nat} {plan : Nat → State → Nat → Plan} {post : QCmd → Nat → Nat → State → State}
  {c : QCmd} {w t : Nat} (hi : Issuing s d g op c w) (ht : t = max (s.gath d g).beat wait) (hl : LandsWhole s d g t)
  (hs : (plan w (s.landTo d g t) t).stops = []) (hb : CleanReads (s.landTo d g t) (plan w (s.landTo d g t) t))
include hi ht hl hs hb

/-- `State.issue_next` with the state that carries the plan out: the one after the landings of the beat, perhaps with a
hazard recorded. -/
theorem State.issue_maybeHazard : ∃ s1, (s.landTo d g t).MaybeHazard d g c s1 ∧ s.issue d g op wait plan post =
    (post c w t (s1.commitPlan d g t (plan w (s.landTo d g t) t))).endReplay d g := by
  obtain ⟨hissuable, hdebug, -, -⟩ := hi
  have hbad := State.readBad_none _ hl hb
  unfold State.issue
  rw [hissuable]
  subst ht
  simp only [State.landTo_flag, hdebug, Bool.false_eq_true, if_false, hs, hbad]
  refine ⟨_, ?_, rfl⟩
  split
  · exact .inr ⟨_, _, rfl⟩
  · exact .inl rfl

/-- Where what follows the plan leaves `dropDue` alone, the issue ends no replay. -/
theorem State.issue_carried (hpost : ∀ u : State, ((post c w t u).gath d g).dropDue = (u.gath d g).dropDue) :
    ∃ s1, (s.landTo d g t).MaybeHazard d g c s1 ∧
      s.issue d g op wait plan post = post c w t (s1.commitPlan d g t (plan w (s.landTo d g t) t)) := by
  obtain ⟨s1, hs1, hissue⟩ := State.issue_maybeHazard (post := post) hi ht hl hs hb
  obtain ⟨-, -, hdrop, -⟩ := hi
  refine ⟨s1, hs1, hissue.trans (State.endReplay_none _ ?_)⟩
  rw [hpost, State.commitPlan_dropDue, State.gath, hs1.gaths]
  exact (s.landTo_dropDue d g t).trans hdrop

end

end Sys2Proof.Machine
end

section
/-! SUPPORT. MODE (R142, R143, R156, R221, R227): the core that its plan makes, its beats, and the registers that mirror
the mode. -/

namespace Sys2Proof.Machine

/-! ## The core of a gathering -/

@[simp] theorem GCore.goto_config (k : GCore) (ip : Nat) : (k.goto ip).config = k.config := rfl
@[simp] theorem GCore.goto_shape (k : GCore) (ip : Nat) : (k.goto ip).shape = k.shape := rfl
@[simp] theorem GCore.goto_buck (k : GCore) (ip : Nat) : (k.goto ip).buck = k.buck := rfl
@[simp] theorem GCore.goto_ftz (k : GCore) (ip : Nat) : (k.goto ip).ftz = k.ftz := rfl
@[simp] theorem GCore.goto_acc (k : GCore) (ip : Nat) : (k.goto ip).acc = k.acc := rfl
@[simp] theorem GCore.goto_s (k : GCore) (ip : Nat) : (k.goto ip).s = k.s := rfl
@[simp] theorem GCore.goto_v (k : GCore) (ip : Nat) : (k.goto ip).v = k.v := rfl

@[simp] theorem GCore.dropCells_config (k : GCore) : k.dropCells.config = k.config := rfl
@[simp] theorem GCore.dropCells_shape (k : GCore) : k.dropCells.shape = k.shape := rfl
@[simp] theorem GCore.dropCells_buck (k : GCore) : k.dropCells.buck = k.buck := rfl
@[simp] theorem GCore.dropCells_ftz (k : GCore) : k.dropCells.ftz = k.ftz := rfl
@[simp] theorem GCore.dropCells_acc (k : GCore) : k.dropCells.acc = [] := rfl
@[simp] theorem GCore.dropCells_s (k : GCore) : k.dropCells.s = k.s := rfl
@[simp] theorem GCore.dropCells_v (k : GCore) : k.dropCells.v = k.v := rfl

/-! ## The plan of MODE -/

section
variable (d g w : Nat) (s : State) (t : Nat)

theorem planMode_config : (planMode d g w s t).core.config =
    if ct1Setcfg w = 1 then ct1Config w else (s.gath d g).core.config := by
  simp only [planMode, apply_ite GCore.config, GCore.dropCells_config, ite_self]

theorem planMode_shape : (planMode d g w s t).core.shape =
    if ct1Setcfg w = 1 ∧ ct1Config w = 0 then ct1Shape w else (s.gath d g).core.shape := by
  simp only [planMode, apply_ite GCore.shape, GCore.dropCells_shape, ite_self]
  by_cases hcfg : ct1Setcfg w = 1
  · simp only [hcfg, if_true, true_and]
  · simp only [hcfg, if_false, false_and]

theorem planMode_buck : (planMode d g w s t).core.buck =
    if ct1Setbuck w = 1 then buckOf (ct1Buck w) else (s.gath d g).core.buck := by
  simp only [planMode, apply_ite GCore.buck, GCore.dropCells_buck, ite_self]

theorem planMode_ftz : (planMode d g w s t).core.ftz =
    if ct1Setftz w = 1 then ct1Ftz w == 1 else (s.gath d g).core.ftz := by
  simp only [planMode, apply_ite GCore.ftz, GCore.dropCells_ftz, ite_self]

/-- A change of configuration empties the accumulator file, and nothing else does (R143, log 148). -/
theorem planMode_acc : (planMode d g w s t).core.acc =
    if ct1Setcfg w = 1 ∧ ct1Config w ≠ (s.gath d g).core.config then [] else (s.gath d g).core.acc := by
  simp only [planMode, apply_ite GCore.acc, apply_ite GCore.config, GCore.dropCells_acc, ite_self]
  by_cases hcfg : ct1Setcfg w = 1 <;> simp [hcfg]

theorem planMode_s : (planMode d g w s t).core.s = (s.gath d g).core.s := by
  simp only [planMode, apply_ite GCore.s, GCore.dropCells_s, ite_self]

theorem planMode_v : (planMode d g w s t).core.v = (s.gath d g).core.v := by
  simp only [planMode, apply_ite GCore.v, GCore.dropCells_v, ite_self]

theorem modeChanges_iff (k : GCore) : modeChanges k w = true ↔
    ct1Setcfg w = 1 ∧ (ct1Config w ≠ k.config ∨ (ct1Config w = 0 ∧ ct1Shape w ≠ k.shape)) := by
  simp [modeChanges]

theorem planMode_span_change (h : modeChanges (s.gath d g).core w = true) :
    (planMode d g w s t).span = 8 + ((s.gath d g).drainEnd - t) := if_pos h

theorem planMode_span_keep (h : ¬ modeChanges (s.gath d g).core w = true) : (planMode d g w s t).span = 1 := if_neg h

/-- MODE reads nothing that a landing could hold in error. -/
theorem planMode_cleanReads (s1 : State) : CleanReads s1 (planMode d g w s t) :=
  fun _ hq => absurd hq List.not_mem_nil

end

/-! ## The mirror of the mode (R126, R130, R144) -/

section
variable (s : State) (d g : Nat)

@[simp] theorem State.mirrorMode_gath : (s.mirrorMode d g).gath d g = s.gath d g := rfl

@[simp] theorem State.mirrorMode_mem : (s.mirrorMode d g).mem = s.mem := rfl

theorem State.mirrorMode_fld_config :
    (s.mirrorMode d g).fld .gthCfg_config (gi d g) = (s.gath d g).core.config % 4 := by
  simp only [State.mirrorMode, State.setFlag]
  rw [State.fld_setFld_field _ _ _ _ _ _ (by decide), State.fld_setFld_field _ _ _ _ _ _ (by decide),
    State.fld_setFld_field _ _ _ _ _ _ (by decide), State.fld_setFld_field _ _ _ _ _ _ (by decide),
    State.fld_setFld_same]
  rfl

theorem State.mirrorMode_flag_ftz :
    (s.mirrorMode d g).flag .gthNumstat_ftz (gi d g) = (s.gath d g).core.ftz := by
  rw [State.mirrorMode, State.flag, State.setFlag, State.fld_setFld_field _ _ _ _ _ _ (by decide)]
  exact State.flag_setFlag_same _ _ _ _ (by decide)

end

theorem exec_mode (d g : Fin 8) (s : State) :
    exec (.mode d g) s = .next (s.issue d g 0x04 0 (planMode d g) fun _ _ _ s => s.mirrorMode d g) := rfl

end Sys2Proof.Machine
end

section
/-! The statements of the family of gatherings and tiles. -/

open Sys2Proof Sys2Proof.Machine

namespace Sys2Proof.Proofs

/-- Settles O38: MODE meets no stop and reads nothing, so its plan is carried out on the state after the landings of its
beat; the plan's core has the settings, and the mirror that follows shows them. -/
theorem modeInstruction : Obligations.ModeInstruction := by
  intro s d g c w hi t y k ch
  have ⟨_, _, _, hwhole⟩ := hi
  obtain ⟨s1, hs1, hnext⟩ := State.issue_carried (wait := 0) (plan := planMode d g)
    (post := fun _ _ _ s => s.mirrorMode d g) hi (Nat.max_zero t).symm hwhole rfl
    (planMode_cleanReads d g w _ t _) fun _ => rfl
  obtain ⟨hcore, hbeat, -, -⟩ := State.commitPlan_issued s hs1.gaths (planMode d g w (s.landTo d g t) t)
  refine ⟨_, (exec_mode d g s).trans (congrArg _ hnext), ?_⟩
  have hch : modeChanges k w = true ↔ ch := modeChanges_iff w k
  simp only [State.mirrorMode_gath, State.mirrorMode_flag_ftz, State.mirrorMode_fld_config, hcore, hbeat,
    GCore.goto_config, GCore.goto_shape, GCore.goto_buck, GCore.goto_ftz, GCore.goto_acc, GCore.goto_s, GCore.goto_v]
  refine ⟨planMode_config .., planMode_shape .., planMode_ftz .., fun hbuck => ?_, fun h => ?_, fun h => ?_,
    planMode_acc .., planMode_s .., planMode_v .., trivial, trivial, memKept_of_mem_eq ?_⟩
  · exact (planMode_buck ..).trans (if_pos hbuck)
  · rw [planMode_span_change _ _ _ _ _ (hch.mpr h)]
  · rw [planMode_span_keep _ _ _ _ _ (mt hch.mp h)]
  · rw [State.mirrorMode_mem, State.commitPlan_mem, hs1.mem]

end Sys2Proof.Proofs
end
